-- ==== Sys2Proof/Word.lean ====
section
/-! DEFINITION. The word types of the model and their plainest arithmetic. -/

namespace Sys2Proof

/-- A byte. -/
abbrev Byte := BitVec 8

/-- A list of bytes, in the order of their addresses. -/
abbrev Bytes := List Byte

/-- A device address (R30): group in bits [16:6], member in bits [5:0]. -/
abbrev Da := BitVec 17

end Sys2Proof
end

