-- ==== Sys2Proof/Syntax.lean ====
section
/-! DEFINITION. The commands of the block: one constructor per row of spec/opcode_table.json, and the
data that cross its boundary (beads, strands, frames). -/

namespace Sys2Proof

/-- A fabric port, PORT[0..127] (R14). -/
abbrev PortNo := Fin 128

/-- A host port, HOST[0..7] (R14). -/
abbrev HostNo := Fin 8

/-- A function of a host port: function 0 is the PF, v is VF v (R376). -/
structure Func where
  hp : HostNo
  fn : Fin 32
deriving DecidableEq, Repr, Inhabited

/-- The path an admin command came by (R427): the admin ring of a function, or the mailbox, which the
maintenance port, MCTP and remote admin strands share. -/
inductive Path where
  | ring (f : Func)
  | mailbox
deriving DecidableEq, Repr, Inhabited

/-- The parts of an admin command that every opcode has (R428): the path that carries it, SEQ, the
command ring position, INTR and REPLY_DATA. -/
structure AdminCtx where
  path : Path
  seq : Nat
  index : Nat
  intr : Bool
  replyData : Nat
deriving DecidableEq, Repr, Inhabited

/-- Who makes a register access: a function of a host, or the maintenance port (R423, R437). -/
inductive Master where
  | host (f : Func)
  | maint
deriving DecidableEq, Repr, Inhabited

/-- How a read of host memory ends (R389, R390, R395). -/
inductive RdStatus where
  | ok | poisoned | unsupported | completerAbort | timeout | hostLost
deriving DecidableEq, Repr, Inhabited

/-- A service frame: its type byte, its body and its two CRC bytes, and whether it held a control
character other than K28.1 (R324, R325) (DEDUCED, log 14). -/
structure Frame where
  typ : Byte
  body : Bytes
  crc : BitVec 16
  ctl : Bool
deriving DecidableEq, Repr, Inhabited

/-- A bead: 64 bytes of content and the trailer (R36, R37). -/
structure Bead where
  content : Bytes
  trailer : BitVec 16
deriving DecidableEq, Repr, Inhabited

/-- The fields of a header bead (R46). The reserved bits are kept, since they enter the CRC. -/
structure Hdr where
  lsn : BitVec 20 := 0
  ttl : BitVec 5 := 0
  defl : BitVec 2 := 0
  trim : Bool := false
  ce : BitVec 2 := 0
  vn : Bool := false
  epoch : Bool := false
  ver : BitVec 2 := 0
  tc : BitVec 2 := 0
  poison : Bool := false
  kind : BitVec 4 := 0
  det : Bool := false
  ord : BitVec 4 := 0
  entropy : BitVec 16 := 0
  rsv62 : BitVec 2 := 0
  dstDa : Da := 0
  dstEp : BitVec 20 := 0
  srcDa : Da := 0
  srcEp : BitVec 20 := 0
  job : BitVec 16 := 0
  bgen : BitVec 8 := 0
  op : BitVec 8 := 0
  flags : BitVec 8 := 0
  len : BitVec 13 := 0
  rsv191 : Bool := false
  bsn : BitVec 32 := 0
  msn : BitVec 24 := 0
  rsv248 : BitVec 8 := 0
  offset : BitVec 32 := 0
  key : BitVec 32 := 0
  addr : BitVec 64 := 0
  opw : BitVec 128 := 0
deriving DecidableEq, Repr, Inhabited

/-- A strand (R44): the header's fields, the header bead's T.CRC (which no router recomputes, R40) and
the payload beads as they stand. -/
structure Strand where
  hdr : Hdr
  crc : BitVec 13 := 0
  beads : List Bead := []
deriving DecidableEq, Repr, Inhabited

/-- The name of a stream at one of its ends (R233, R234): the local endpoint, the peer's device and
endpoint, and the ordering class. -/
structure StreamKey where
  ep : Nat
  peer : Da
  peerEp : Nat
  ord : Nat
deriving DecidableEq, Repr, Inhabited

/-- The blocks that ask PWR before they raise their activity (R495). -/
inductive SlewBlock where
  | ember (cluster : Fin 72)
  | reduction (unit : Fin 8)
  | dma | matching
  | injection (hp : HostNo)
  | calendar
deriving DecidableEq, Repr, Inhabited

/-- Where an SRAM word lies (R12, R13): the block that owns it. -/
inductive SramBlock where
  | hearthHeader | hearthPayload | replay (p : PortNo) | portTable (p : PortNo)
  | glb | kiln | pwr | time | flt | tally | xlat (k : Fin 4) | ept | matching | coll | clasp | xport | cong
  | dma | rtr | ember (cluster : Fin 72) | mgf
deriving DecidableEq, Repr, Inhabited

/-- What a PMBus poll of one rail finds (R494): did it answer, is a fault bit set, and the readings. -/
structure RailReading where
  answered : Bool
  fault : Bool
  millivolt : Nat
  milliamp : Nat
  celsius : Int
deriving DecidableEq, Repr, Inhabited

/-- The condition that clears and may let a pending MSI-X message go (R383). -/
inductive MsixCond where
  | mask | functionMask | enable | busMaster
deriving DecidableEq, Repr, Inhabited

/-- The commands, one constructor per row of the table, in its order (DESIGN CHOICE, log 1). -/
inductive Instr where
  /-- COLD_RESET (R461). -/
  | coldReset (straps : BitVec 4)
  /-- RESET_PIN_ASSERT (R461). -/
  | resetPinAssert
  /-- DEVICE_LEVEL_RESET (R462). -/
  | deviceLevelReset
  /-- BOOT_SEQUENCE (R466). -/
  | bootSequence (failedEngines : List (Nat × Nat))
  /-- PFAIL_TAKEN (R484). -/
  | pfailTaken
  /-- PFAIL_RECOVERED (R488). -/
  | pfailRecovered
  /-- POWER_GOOD_FALL (R492). -/
  | powerGoodFall
  /-- REFCLK_A_FAIL (R17). -/
  | refclkAFail (bWithin : Bool)
  /-- REFCLK_B_FAIL (R17). -/
  | refclkBFail
  /-- THERMAL_READING (R501). -/
  | thermalReading (readings : List Int)
  /-- THERMTRIP (R502). -/
  | thermtrip (reading : Int)
  /-- DROOP_DETECT (R498). -/
  | droopDetect (mvBelow : Nat)
  /-- DROOP_END (R498). -/
  | droopEnd
  /-- DROOP_LONG (R499). -/
  | droopLong
  /-- SLEW_GRANT_REQUEST (R495). -/
  | slewGrantRequest (blk : SlewBlock) (rise : Bool) (amount : Nat)
  /-- PMBUS_POLL (R494). -/
  | pmbusPoll (rails : List RailReading)
  /-- PM_ALERT (R494). -/
  | pmAlert (rails : List RailReading)
  /-- AVS_STEP (R493). -/
  | avsStep (measured : Option Nat)
  /-- SRAM_ECC_ERROR (R13). -/
  | sramEccError (blk : SramBlock) (uncorrectable : Bool) (obj : Option Nat)
  /-- DIE_LINK_FAIL (R11). -/
  | dieLinkFail (die : Fin 8)
  /-- CONTAINMENT_ACTION (R519). -/
  | containmentAction (source : Nat)
  /-- KILN_LOG_WRITE (R522). -/
  | kilnLogWrite
  /-- WEAR_UPDATE (R483). -/
  | wearUpdate
  /-- CTRL_EN_SET (R424). -/
  | ctrlEnSet (m : Master) (off value : Nat)
  /-- CTRL_EN_CLEAR (R424). -/
  | ctrlEnClear (m : Master) (off value : Nat)
  /-- REGISTER_WRITE (R421). -/
  | registerWrite (m : Master) (off width value : Nat) (poisoned : Bool)
  /-- RESERVE_PEAK_READ (R421). -/
  | reservePeakRead (m : Master)
  /-- TIME_NOW_LATCH (R366). -/
  | timeNowLatch (m : Master)
  /-- CHAINED_COUNTER_READ (R524). -/
  | chainedCounterRead (m : Master) (off : Nat)
  /-- DOORBELL_WRITE (R57). -/
  | doorbellWrite (f : Func) (off len : Nat) (poisoned : Bool)
  /-- RING_ENTRY_ARRIVAL (R72). -/
  | ringEntryArrival (req : Nat) (status : RdStatus) (data : List Byte)
  /-- POLL_TIMER (R73). -/
  | pollTimer (ep : Nat)
  /-- CQ_ARM (R84). -/
  | cqArm (f : Func) (cq : Nat)
  /-- DMA_KICK (R409). -/
  | dmaKick (m : Master) (ch : Fin 64)
  /-- FENCE_REQ (R460). -/
  | fenceReq (m : Master) (logical : Fin 64)
  /-- FLT_FORCE (R518). -/
  | fltForce (m : Master) (w : Fin 32) (bits : BitVec 32)
  /-- FLT_STICKY_CLEAR (R515). -/
  | fltStickyClear (m : Master) (w : Fin 32) (bits : BitVec 32)
  /-- TX_DATA (R442). -/
  | txData (m : Master) (word : BitVec 64)
  /-- TX_END (R442). -/
  | txEnd (m : Master) (word : BitVec 64)
  /-- RX_DATA_READ (R444). -/
  | rxDataRead (m : Master) (width : Nat)
  /-- RX_DATA_STALL_END (R445). -/
  | rxDataStallEnd (m : Master)
  /-- FLUSH_RX (R446). -/
  | flushRx (m : Master)
  /-- FLUSH_TX (R446). -/
  | flushTx (m : Master)
  /-- FLUSH_TAKE_EFFECT (R446). -/
  | flushTakeEffect (rx : Bool)
  /-- ADMIN_RING_ENABLE (R435). -/
  | adminRingEnable (m : Master) (hp : HostNo)
  /-- ADMIN_RING_DISABLE (R436). -/
  | adminRingDisable (m : Master) (hp : HostNo)
  /-- ADM_CMD_TAIL (R435). -/
  | admCmdTail (m : Master) (hp : HostNo) (count : BitVec 16)
  /-- ADM_RSP_HEAD (R435). -/
  | admRspHead (m : Master) (hp : HostNo) (count : BitVec 16)
  /-- ADMIN_COMMAND_FETCH (R435). -/
  | adminCommandFetch (f : Func)
  /-- ADMIN_COMMAND_BEGIN (R433). -/
  | adminCommandBegin (p : Path)
  /-- ADMIN_TIMEOUT (R434). -/
  | adminTimeout (p : Path)
  /-- MBX_GO (R439). -/
  | mbxGo
  /-- MAINTENANCE_REQUEST (R437). -/
  | maintenanceRequest (bytes : List Byte)
  /-- MCTP_REQUEST (R437). -/
  | mctpRequest (bytes : List Byte)
  /-- MAINTENANCE_GAP (R437). -/
  | maintenanceGap
  /-- MSIX_UNMASK (R383). -/
  | msixUnmask (f : Func) (vector : Nat) (cond : MsixCond)
  /-- EQ_MODERATION_TIMER (R86). -/
  | eqModerationTimer (f : Func) (eq : Nat)
  /-- FLR (R394). -/
  | flr (f : Func)
  /-- VF_DISABLE (R394). -/
  | vfDisable (hp : HostNo)
  /-- D3HOT_ENTRY (R385). -/
  | d3hotEntry (f : Func)
  /-- BUS_MASTER_DISABLE (R540). -/
  | busMasterDisable (f : Func)
  /-- PERST_ASSERT (R394). -/
  | perstAssert (hp : HostNo)
  /-- PERST_DEASSERT (R398). -/
  | perstDeassert (hp : HostNo)
  /-- HOT_RESET (R394). -/
  | hotReset (hp : HostNo)
  /-- HOST_LINK_DOWN (R394). -/
  | hostLinkDown (hp : HostNo)
  /-- DL_ACTIVE_REACHED (R399). -/
  | dlActiveReached (hp : HostNo) (speed width : Nat) (flit : Bool)
  /-- HOST_LOSS_DESTROY (R396). -/
  | hostLossDestroy (hp : HostNo)
  /-- PRESENCE_TAKEN (R392). -/
  | presenceTaken (hp : HostNo)
  /-- PRESENCE_LOST (R392). -/
  | presenceLost (hp : HostNo)
  /-- POWER_FAULT_TAKEN (R392). -/
  | powerFaultTaken (hp : HostNo)
  /-- BUTTON_PRESS (R391). -/
  | buttonPress (hp : HostNo)
  /-- POWERING_DONE (R392). -/
  | poweringDone (hp : HostNo)
  /-- ISB_SCAN (R347). -/
  | isbScan (din : BitVec 512)
  /-- PPS_IN_EDGE (R369). -/
  | ppsInEdge
  /-- GM_PPS_TIMEOUT (R359). -/
  | gmPpsTimeout
  /-- PPS_OUT_EDGE (R368). -/
  | ppsOutEdge
  /-- TOD_LINE (R370). -/
  | todLine
  /-- MIRROR_WRITE (R367). -/
  | mirrorWrite (mirror : Fin 64)
  /-- MARKER_SEND (R354). -/
  | markerSend (port : PortNo)
  /-- MARKER_ARRIVAL (R354). -/
  | markerArrival (port : PortNo)
  /-- TIME_STAMP (R355). -/
  | timeStamp (port : PortNo) (fr : Frame)
  /-- SERVO_NO_THETA (R360). -/
  | servoNoTheta
  /-- HOLDOVER_LIMIT (R360). -/
  | holdoverLimit
  /-- CLOCK_PARENT_LOSS (R331). -/
  | clockParentLoss
  /-- ANNOUNCE_SEND (R358). -/
  | announceSend
  /-- TIME_ANNOUNCEMENT (R358). -/
  | timeAnnouncement (port : PortNo) (st : Strand)
  /-- ELECTION_EVALUATE (R358). -/
  | electionEvaluate
  /-- SERVICE_SYNC_ACQUIRE (R323). -/
  | serviceSyncAcquire (port : PortNo)
  /-- SERVICE_SYNC_LOSS (R323). -/
  | serviceSyncLoss (port : PortNo)
  /-- CLK_TOLERANCE_LOSS (R332). -/
  | clkToleranceLoss (port : PortNo)
  /-- CODEWORD_LOCK_LOSS (R322). -/
  | codewordLockLoss (port : PortNo)
  /-- LINK_ACK (R308). -/
  | linkAck (port : PortNo) (fr : Frame)
  /-- CONG_HINT (R280). -/
  | congHint (port : PortNo) (fr : Frame)
  /-- CONG_HINT_SEND (R280). -/
  | congHintSend
  /-- HINT_STALE (R280). -/
  | hintStale (port : PortNo)
  /-- TRAIN_REQ (R336). -/
  | trainReq (port : PortNo) (fr : Frame)
  /-- TRAIN_RSP (R336). -/
  | trainRsp (port : PortNo) (fr : Frame)
  /-- TRAIN_REQ_RESEND (R336). -/
  | trainReqResend (port : PortNo) (lane : Fin 2)
  /-- TRAIN_STATE (R334). -/
  | trainState (port : PortNo) (fr : Frame)
  /-- TRAIN_STATE_SEND (R327). -/
  | trainStateSend (port : PortNo)
  /-- IDENTITY (R335). -/
  | identity (port : PortNo) (fr : Frame)
  /-- IDENTITY_SEND (R335). -/
  | identitySend (port : PortNo)
  /-- IDENTITY_RETRY (R335). -/
  | identityRetry (port : PortNo)
  /-- LANE_READY (R336). -/
  | laneReady (port : PortNo) (lane : Fin 2) (errors : Nat)
  /-- ALIGN_LOCK (R337). -/
  | alignLock (port : PortNo) (lane : Fin 2)
  /-- PORT_ENTER_SERVICE (R334). -/
  | portEnterService (port : PortNo)
  /-- EQ_LIMIT_EXPIRY (R337). -/
  | eqLimitExpiry (port : PortNo)
  /-- BRINGUP_RETRY (R337). -/
  | bringupRetry (port : PortNo)
  /-- TRAINING_HISTORY_WRITE (R337). -/
  | trainingHistoryWrite (port : PortNo)
  /-- LEARNING_EXPIRY (R278). -/
  | learningExpiry (port : PortNo)
  /-- PROPOSE (R340). -/
  | propose (port : PortNo) (fr : Frame)
  /-- ACCEPT (R338). -/
  | accept (port : PortNo) (fr : Frame)
  /-- REJECT (R339). -/
  | reject (port : PortNo) (fr : Frame)
  /-- DONE (R338). -/
  | done (port : PortNo) (fr : Frame)
  /-- PROPOSE_RESEND (R338). -/
  | proposeResend (port : PortNo)
  /-- PROPOSAL_ABANDON (R338). -/
  | proposalAbandon (port : PortNo)
  /-- RETRAIN_TIMEOUT (R339). -/
  | retrainTimeout (port : PortNo)
  /-- LINK_HEALTH (R338). -/
  | linkHealth (port : PortNo) (fr : Frame)
  /-- LINK_HEALTH_SEND (R327). -/
  | linkHealthSend (port : PortNo) (eye0 eye1 : BitVec 7)
  /-- LOOPBACK (R344). -/
  | loopback (port : PortNo) (fr : Frame)
  /-- DOWN_HOLD_EXPIRY (R314). -/
  | downHoldExpiry (port : PortNo)
  /-- HEADER_BEAD_ARRIVAL (R303). -/
  | headerBeadArrival (port : PortNo) (b : Bead)
  /-- BEAD_ARRIVAL (R303). -/
  | beadArrival (port : PortNo) (b : Bead)
  /-- LINK_ACK_TIMER (R306). -/
  | linkAckTimer (port : PortNo)
  /-- REPLAY_TIMER (R309). -/
  | replayTimer (port : PortNo)
  /-- REPLAY_COMPLETE (R309). -/
  | replayComplete (port : PortNo)
  /-- RTT_PERIOD (R311). -/
  | rttPeriod (port : PortNo)
  /-- HEALTH_PERIOD (R315). -/
  | healthPeriod (port : PortNo)
  /-- LINK_TRANSMIT_START (R302). -/
  | linkTransmitStart (port : PortNo)
  /-- SCHEDULER_CHOICE (R259). -/
  | schedulerChoice (target : Fin 136)
  /-- AGE_LIMIT_TRIM (R286). -/
  | ageLimitTrim (target : Fin 136) (queue : Fin 8) (pos : Nat)
  /-- QDEPTH_SAMPLE (R267). -/
  | qdepthSample
  /-- HOST_INJECTION_ADMIT (R274). -/
  | hostInjectionAdmit (hp : HostNo)
  /-- CALENDAR_SLOT_DUE (R257). -/
  | calendarSlotDue
  /-- INCREASE_TIMER (R252). -/
  | increaseTimer (da : Da) (vn : Bool)
  /-- IDLE_RESET (R253). -/
  | idleReset (da : Da) (vn : Bool)
  /-- RATE_FLOOR (R255). -/
  | rateFloor (da : Da) (vn : Bool)
  /-- RETRANSMIT_TIMER (R231). -/
  | retransmitTimer (da : Da) (vn : Bool) (bsn : BitVec 32)
  /-- UNREACHABLE_EXPIRY (R215). -/
  | unreachableExpiry (da : Da)
  /-- ACK_DELAY_TIMER (R227). -/
  | ackDelayTimer (da : Da) (vn : Bool)
  /-- NOT_READY_BACKOFF (R241). -/
  | notReadyBackoff (id : Nat)
  /-- TRIM_RESEND (R243). -/
  | trimResend (id : Nat)
  /-- READ_RESEND (R128). -/
  | readResend (st : Strand)
  /-- SEND_RECORD_IDLE (R233). -/
  | sendRecordIdle (k : StreamKey)
  /-- RECV_RECORD_IDLE (R234). -/
  | recvRecordIdle (k : StreamKey)
  /-- PARKING_TIMEOUT (R156). -/
  | parkingTimeout (st : Strand)
  /-- CONTEXT_FETCH_COMPLETE (R90). -/
  | contextFetchComplete (req : Nat) (status : RdStatus) (data : List Byte)
  /-- CONTEXT_FETCH_TIMEOUT (R90). -/
  | contextFetchTimeout (st : Strand)
  /-- WRITE_STRAND (R122). -/
  | writeStrand (st : Strand)
  /-- WRITE_IMM_STRAND (R123). -/
  | writeImmStrand (st : Strand)
  /-- PUT_COUNT_STRAND (R123). -/
  | putCountStrand (st : Strand)
  /-- SEND_STRAND (R71). -/
  | sendStrand (st : Strand)
  /-- SEND_TAGGED_STRAND (R154). -/
  | sendTaggedStrand (st : Strand)
  /-- RNDV_RTS_STRAND (R160). -/
  | rndvRtsStrand (st : Strand)
  /-- RNDV_DONE_STRAND (R161). -/
  | rndvDoneStrand (st : Strand)
  /-- READ_REQ_STRAND (R127). -/
  | readReqStrand (st : Strand)
  /-- RNDV_READ_STRAND (R162). -/
  | rndvReadStrand (st : Strand)
  /-- READ_RSP_STRAND (R127). -/
  | readRspStrand (st : Strand)
  /-- RNDV_READ_RSP (R160). -/
  | rndvReadRsp (st : Strand)
  /-- ATOMIC_STRAND (R130). -/
  | atomicStrand (st : Strand)
  /-- ATOMIC_READ_COMPLETE (R130). -/
  | atomicReadComplete (req : Nat) (status : RdStatus) (data : List Byte)
  /-- ATOMIC_RSP_STRAND (R121). -/
  | atomicRspStrand (st : Strand)
  /-- LOCK_ACQUIRE (R137). -/
  | lockAcquire (st : Strand)
  /-- LOCK_TRY (R137). -/
  | lockTry (st : Strand)
  /-- LOCK_RELEASE (R137). -/
  | lockRelease (st : Strand)
  /-- LOCK_GRANT (R138). -/
  | lockGrant (st : Strand)
  /-- LOCK_BUSY (R121). -/
  | lockBusy (st : Strand)
  /-- LOCK_INHERIT (R139). -/
  | lockInherit (st : Strand)
  /-- LOCK_RELEASED (R121). -/
  | lockReleased (st : Strand)
  /-- LOCK_REMOVED (R143). -/
  | lockRemoved (st : Strand)
  /-- STEP_DATA (R190). -/
  | stepData (st : Strand)
  /-- ARM_FIRE (R208). -/
  | armFire (st : Strand)
  /-- ACK_STRAND (R226). -/
  | ackStrand (st : Strand)
  /-- NACK_STRAND (R229). -/
  | nackStrand (st : Strand)
  /-- RESYNC_NACK (R219). -/
  | resyncNack (st : Strand)
  /-- TRIM_NOTICE_STRAND (R243). -/
  | trimNoticeStrand (st : Strand)
  /-- EP_GONE_STRAND (R229). -/
  | epGoneStrand (st : Strand)
  /-- MGMT_RX (R441). -/
  | mgmtRx (st : Strand)
  /-- REMOTE_ADMIN (R443). -/
  | remoteAdmin (st : Strand)
  /-- DATA_WRITE (R443). -/
  | dataWrite (st : Strand)
  /-- DATA_READ (R443). -/
  | dataRead (st : Strand)
  /-- FLUSH_READ_COMPLETE (R122). -/
  | flushReadComplete (req : Nat) (status : RdStatus)
  /-- HOST_READ_COMPLETE (R390). -/
  | hostReadComplete (req : Nat) (status : RdStatus) (data : List Byte)
  /-- WALK_READ_COMPLETE (R108). -/
  | walkReadComplete (req : Nat) (status : RdStatus) (data : List Byte)
  /-- HEAD_WORD_READ_COMPLETE (R83). -/
  | headWordReadComplete (req : Nat) (status : RdStatus) (data : List Byte)
  /-- COMPLETION_TIMEOUT (R390). -/
  | completionTimeout (req : Nat)
  /-- TRIGGERED_START (R207). -/
  | triggeredStart (ep : Nat)
  /-- NOP (R68). -/
  | nop (ep : Nat)
  /-- WRITE (R121). -/
  | write (ep : Nat)
  /-- WRITE_IMM (R121). -/
  | writeImm (ep : Nat)
  /-- READ (R127). -/
  | read (ep : Nat)
  /-- PUT_COUNT (R121). -/
  | putCount (ep : Nat)
  /-- SEND (R71). -/
  | send (ep : Nat)
  /-- SEND_TAGGED (R157). -/
  | sendTagged (ep : Nat)
  /-- ATOMIC (R129). -/
  | atomic (ep : Nat)
  /-- CLASP_ACQUIRE (R137). -/
  | claspAcquire (ep : Nat)
  /-- CLASP_TRY (R137). -/
  | claspTry (ep : Nat)
  /-- CLASP_RELEASE (R138). -/
  | claspRelease (ep : Nat)
  /-- COLL_START (R178). -/
  | collStart (ep : Nat)
  /-- RECV (R70). -/
  | recv (ep : Nat)
  /-- RECV_TAGGED (R154). -/
  | recvTagged (ep : Nat)
  /-- INSTANCE_RUN (R178). -/
  | instanceRun (inst : Nat)
  /-- COLL_TIMEOUT (R201). -/
  | collTimeout (inst : Nat)
  /-- RELEASE_DELIVERY (R210). -/
  | releaseDelivery (hp : HostNo)
  /-- PREWARN_ASSERT (R210). -/
  | prewarnAssert (output : Fin 4)
  /-- PREWARN_DEASSERT (R210). -/
  | prewarnDeassert (output : Fin 4)
  /-- SPILL_RETURN (R166). -/
  | spillReturn (ep : Nat)
  /-- DMA_COPY (R408). -/
  | dmaCopy (ch : Fin 64)
  /-- DMA_PUT (R408). -/
  | dmaPut (ch : Fin 64)
  /-- DMA_GET (R408). -/
  | dmaGet (ch : Fin 64)
  /-- DMA_PEAT_READ (R408). -/
  | dmaPeatRead (ch : Fin 64)
  /-- DMA_PEAT_WRITE (R408). -/
  | dmaPeatWrite (ch : Fin 64)
  /-- DMA_CHUNK_SELECT (R416). -/
  | dmaChunkSelect
  /-- WATCHDOG (R452). -/
  | watchdog (cluster : Fin 72)
  /-- TAKEOVER (R455). -/
  | takeover
  /-- TAKEOVER_DRAINED (R455). -/
  | takeoverDrained
  /-- TALLY_TICK (R527). -/
  | tallyTick
  /-- EP_BLOCK_ASSIGN (R92). -/
  | epBlockAssign (c : AdminCtx) (block hp fn job backing : Nat)
  /-- EP_BLOCK_RELEASE (R92). -/
  | epBlockRelease (c : AdminCtx) (block : Nat)
  /-- EP_CREATE (R92). -/
  | epCreate (c : AdminCtx) (ep typ sBase sN rBase rN sCq rCq eq pin poll : Nat)
  /-- EP_ENABLE (R61). -/
  | epEnable (c : AdminCtx) (ep : Nat)
  /-- EP_DISABLE (R61). -/
  | epDisable (c : AdminCtx) (ep : Nat)
  /-- EP_RESET (R63). -/
  | epReset (c : AdminCtx) (ep : Nat)
  /-- EP_DESTROY (R63). -/
  | epDestroy (c : AdminCtx) (ep : Nat)
  /-- EP_QUERY (R92). -/
  | epQuery (c : AdminCtx) (ep : Nat)
  /-- CQ_CREATE (R92). -/
  | cqCreate (c : AdminCtx) (cq function base n head eq arm whole : Nat)
  /-- CQ_RESET (R93). -/
  | cqReset (c : AdminCtx) (cq : Nat)
  /-- CQ_DESTROY (R92). -/
  | cqDestroy (c : AdminCtx) (cq : Nat)
  /-- EQ_CREATE (R92). -/
  | eqCreate (c : AdminCtx) (function eq base n head vector modCount modTime : Nat)
  /-- EQ_MODERATE (R92). -/
  | eqModerate (c : AdminCtx) (function eq modCount modTime : Nat)
  /-- EQ_DESTROY (R92). -/
  | eqDestroy (c : AdminCtx) (function eq : Nat)
  /-- JOB_SLOT_CREATE (R116). -/
  | jobSlotCreate (c : AdminCtx) (job hp fn root mrBase m : Nat)
  /-- JOB_SLOT_DESTROY (R116). -/
  | jobSlotDestroy (c : AdminCtx) (slot : Nat)
  /-- ROOT_SET (R111). -/
  | rootSet (c : AdminCtx) (slot root : Nat)
  /-- SEG_SET (R96). -/
  | segSet (c : AdminCtx) (slot seg iovaBase size busBase ctl rsv : Nat)
  /-- XLAT_INVALIDATE (R111). -/
  | xlatInvalidate (c : AdminCtx) (slot iova pages scope : Nat)
  /-- XLAT_INVALIDATE_SLOT (R111). -/
  | xlatInvalidateSlot (c : AdminCtx) (slot : Nat)
  /-- MR_INVALIDATE (R114). -/
  | mrInvalidate (c : AdminCtx) (slot region : Nat)
  /-- XLAT_PROBE (R116). -/
  | xlatProbe (c : AdminCtx) (slot iova : Nat)
  /-- CLASP_DOMAIN_CREATE (R135). -/
  | claspDomainCreate (c : AdminCtx) (domain slot fairness members : Nat)
  /-- CLASP_DOMAIN_DESTROY (R145). -/
  | claspDomainDestroy (c : AdminCtx) (domain : Nat)
  /-- CLASP_QUERY (R145). -/
  | claspQuery (c : AdminCtx) (record slot iova : Nat)
  /-- CLASP_FORCE_RELEASE (R140). -/
  | claspForceRelease (c : AdminCtx) (record : Nat)
  /-- CLASP_WAITER_REMOVE (R143). -/
  | claspWaiterRemove (c : AdminCtx) (record da ep : Nat)
  /-- MATCH_CTX_CREATE (R150). -/
  | matchCtxCreate (c : AdminCtx) (ep recBase uBase b spBase sz : Nat)
  /-- MATCH_CTX_DESTROY (R171). -/
  | matchCtxDestroy (c : AdminCtx) (ep : Nat)
  /-- MATCH_QUERY (R171). -/
  | matchQuery (c : AdminCtx) (ep : Nat)
  /-- MATCH_PROBE (R171). -/
  | matchProbe (c : AdminCtx) (ep comm srcRank tag ignoreLow anySrc : Nat)
  /-- COLL_GROUP_CREATE (R172). -/
  | collGroupCreate (c : AdminCtx) (group key slot n table scratch size : Nat)
  /-- COLL_GROUP_DESTROY (R213). -/
  | collGroupDestroy (c : AdminCtx) (group : Nat)
  /-- COLL_GROUP_QUERY (R213). -/
  | collGroupQuery (c : AdminCtx) (group : Nat)
  /-- COLL_RICK_LOAD (R187). -/
  | collRickLoad (c : AdminCtx) (rick image length : Nat)
  /-- COLL_RICK_UNLOAD (R213). -/
  | collRickUnload (c : AdminCtx) (rick : Nat)
  /-- COLL_RICK_QUERY (R213). -/
  | collRickQuery (c : AdminCtx) (rick : Nat)
  /-- COLL_COUNTER_ALLOC (R205). -/
  | collCounterAlloc (c : AdminCtx) (slot count mirror : Nat)
  /-- COLL_COUNTER_FREE (R213). -/
  | collCounterFree (c : AdminCtx) (first count : Nat)
  /-- COLL_COUNTER_READ (R213). -/
  | collCounterRead (c : AdminCtx) (index : Nat)
  /-- COLL_COUNTER_WRITE (R203). -/
  | collCounterWrite (c : AdminCtx) (index value : Nat)
  /-- COLL_COUNTER_BIND (R204). -/
  | collCounterBind (c : AdminCtx) (ep dir index : Nat)
  /-- COLL_COUNTER_ARM (R208). -/
  | collCounterArm (c : AdminCtx) (index tag : Nat)
  /-- COLL_COUNTER_DISARM (R209). -/
  | collCounterDisarm (c : AdminCtx) (index : Nat)
  /-- COLL_ARM_FIRE (R208). -/
  | collArmFire (c : AdminCtx) (da ep job counter tag inc : Nat)
  /-- COLL_ABORT (R201). -/
  | collAbort (c : AdminCtx) (group ep : Nat)
  /-- BRAID_QUERY (R270). -/
  | braidQuery (c : AdminCtx) (da vn : Nat)
  /-- BRAID_RATE_SET (R270). -/
  | braidRateSet (c : AdminCtx) (da vn rate alpha : Nat)
  /-- SCHED_QUEUE_SET (R263). -/
  | schedQueueSet (c : AdminCtx) (target queue weight rate burst resetMode : Nat)
  /-- SCHED_PORT_SHAPE_SET (R263). -/
  | schedPortShapeSet (c : AdminCtx) (target rate burst overhead resetMode : Nat)
  /-- SCHED_MARK_SET (R270). -/
  | schedMarkSet (c : AdminCtx) (target queue kmin kmax pmax : Nat)
  /-- SCHED_HIST_SELECT (R268). -/
  | schedHistSelect (c : AdminCtx) (target queue : Nat)
  /-- SHAPE_GROUP_SET (R264). -/
  | shapeGroupSet (c : AdminCtx) (hp group rate burst resetMode : Nat)
  /-- SHAPE_GROUP_BIND (R264). -/
  | shapeGroupBind (c : AdminCtx) (ep group : Nat)
  /-- SCHED_STATS_READ (R270). -/
  | schedStatsRead (c : AdminCtx) (target : Nat)
  /-- DEVICE_DA_SET (R299). -/
  | deviceDaSet (c : AdminCtx) (da persist : Nat)
  /-- PORT_ROLE_SET (R27). -/
  | portRoleSet (c : AdminCtx) (port role persist : Nat)
  /-- PORT_DRAIN (R296). -/
  | portDrain (c : AdminCtx) (port drain : Nat)
  /-- PORT_QUERY (R299). -/
  | portQuery (c : AdminCtx) (port : Nat)
  /-- ROUTE_LOAD (R291). -/
  | routeLoad (c : AdminCtx) (version image length allow persist : Nat)
  /-- ROUTE_ENTRY_SET (R287). -/
  | routeEntrySet (c : AdminCtx) (version table index entry allow persist : Nat)
  /-- ROUTE_ENTRY_READ (R299). -/
  | routeEntryRead (c : AdminCtx) (version table index : Nat)
  /-- ROUTE_EPOCH_SET (R288). -/
  | routeEpochSet (c : AdminCtx) (epoch persist : Nat)
  /-- ROUTE_DEFL_SET (R299). -/
  | routeDeflSet (c : AdminCtx) (port queue dth : Nat)
  /-- ROUTE_PARAM_SET (R299). -/
  | routeParamSet (c : AdminCtx) (hintW dim seed age : Nat)
  /-- ROUTE_LAND_SET (R299). -/
  | routeLandSet (c : AdminCtx) (hp trimTh : Nat)
  /-- ROUTE_PROBE (R299). -/
  | routeProbe (c : AdminCtx) (dstDa srcDa epoch vn tc entropy det arrival : Nat)
  /-- LANE_QUERY (R350). -/
  | laneQuery (c : AdminCtx) (port : Nat)
  /-- LANE_RETRAIN (R338). -/
  | laneRetrain (c : AdminCtx) (port kind lane : Nat)
  /-- LANE_HISTORY_CLEAR (R350). -/
  | laneHistoryClear (c : AdminCtx) (port : Nat)
  /-- CLOCK_PARENT_SET (R330). -/
  | clockParentSet (c : AdminCtx) (p0 p1 p2 p3 : Nat)
  /-- CLOCK_PARENT_QUERY (R350). -/
  | clockParentQuery (c : AdminCtx)
  /-- LANE_TEST_ENTER (R343). -/
  | laneTestEnter (c : AdminCtx) (port remoteAllow : Nat)
  /-- LANE_TEST_EXIT (R343). -/
  | laneTestExit (c : AdminCtx) (port : Nat)
  /-- LANE_PATTERN_SET (R342). -/
  | lanePatternSet (c : AdminCtx) (port mask gen chk user : Nat)
  /-- LANE_LOOPBACK_SET (R344). -/
  | laneLoopbackSet (c : AdminCtx) (port kind mask : Nat)
  /-- LANE_ERR_INJECT (R345). -/
  | laneErrInject (c : AdminCtx) (port lane kind count stop : Nat)
  /-- LANE_EYE_SCAN (R346). -/
  | laneEyeScan (c : AdminCtx) (port lane eye ph0 ph1 phStep of0 of1 ofStep dwell result : Nat)
  /-- LANE_PRBS_READ (R350). -/
  | lanePrbsRead (c : AdminCtx) (port : Nat)
  /-- CAGE_SET (R348). -/
  | cageSet (c : AdminCtx) (port auto autoPwr pwrEn indA indB : Nat)
  /-- TIME_QUERY (R372). -/
  | timeQuery (c : AdminCtx)
  /-- TIME_CFG_SET (R357). -/
  | timeCfgSet (c : AdminCtx) (mode isGm prio lockTh unlockTh stepTh holdLim persist : Nat)
  /-- TIME_SET (R359). -/
  | timeSet (c : AdminCtx) (ns frac : Nat)
  /-- TIME_UTC_SET (R372). -/
  | timeUtcSet (c : AdminCtx) (utc persist : Nat)
  /-- TIME_PORT_QUERY (R372). -/
  | timePortQuery (c : AdminCtx) (port : Nat)
  /-- TIME_ASYM_SET (R355). -/
  | timeAsymSet (c : AdminCtx) (port asym persist : Nat)
  /-- TIME_MIRROR_SET (R367). -/
  | timeMirrorSet (c : AdminCtx) (mirror hp fn addr period : Nat)
  /-- TIME_PPS_SET (R372). -/
  | timePpsSet (c : AdminCtx) (outEn outAny outWidth outDelay inEn inDisc inDelay todEn persist : Nat)
  /-- HOST_QUERY (R403). -/
  | hostQuery (c : AdminCtx) (hp : Nat)
  /-- HOST_FUNC_CONFIG (R403). -/
  | hostFuncConfig (c : AdminCtx) (hp totalVfs pfVec vfVec persist : Nat)
  /-- HOST_SPLIT_SET (R373). -/
  | hostSplitSet (c : AdminCtx) (ctl split persist : Nat)
  /-- HOST_SLOT_SET (R392). -/
  | hostSlotSet (c : AdminCtx) (hp auto autoPwr pwrEn attnInd pwrInd notify persist : Nat)
  /-- HOST_SLOT_REMOVE (R392). -/
  | hostSlotRemove (c : AdminCtx) (hp : Nat)
  /-- HOST_WAKE (R386). -/
  | hostWake (c : AdminCtx) (hp : Nat)
  /-- DMA_CH_CREATE (R404). -/
  | dmaChCreate (c : AdminCtx) (ch hp slotA slotB ring n ep ord tc prio vector halfInt fullInt errInt : Nat)
  /-- DMA_CH_TARGET_SET (R418). -/
  | dmaChTargetSet (c : AdminCtx) (ch target da ep rkey : Nat)
  /-- DMA_CH_START (R405). -/
  | dmaChStart (c : AdminCtx) (ch : Nat)
  /-- DMA_CH_STOP (R405). -/
  | dmaChStop (c : AdminCtx) (ch : Nat)
  /-- DMA_CH_RESET (R405). -/
  | dmaChReset (c : AdminCtx) (ch : Nat)
  /-- DMA_CH_DESTROY (R418). -/
  | dmaChDestroy (c : AdminCtx) (ch : Nat)
  /-- DMA_CH_QUERY (R418). -/
  | dmaChQuery (c : AdminCtx) (ch : Nat)
  /-- DMA_CH_PRIO_SET (R416). -/
  | dmaChPrioSet (c : AdminCtx) (ch prio : Nat)
  /-- IDENTIFY (R440). -/
  | identify (c : AdminCtx)
  /-- CAPS_QUERY (R440). -/
  | capsQuery (c : AdminCtx)
  /-- ECHO (R440). -/
  | echo (c : AdminCtx) (lo hi : Nat)
  /-- ADMIN_STATS (R440). -/
  | adminStats (c : AdminCtx)
  /-- DEVICE_RESET (R465). -/
  | deviceReset (c : AdminCtx)
  /-- PORT_RESET (R464). -/
  | portReset (c : AdminCtx) (port : Nat)
  /-- BLOCK_RESET (R463). -/
  | blockReset (c : AdminCtx) (blk inst : Nat)
  /-- SET_MODE (R20). -/
  | setMode (c : AdminCtx) (mode : Nat)
  /-- BOOT_MODE_SET (R475). -/
  | bootModeSet (c : AdminCtx) (mode : Nat)
  /-- LC_QUERY (R489). -/
  | lcQuery (c : AdminCtx)
  /-- LC_CHANGE (R479). -/
  | lcChange (c : AdminCtx) (lc : Nat)
  /-- IDENTITY_WRITE (R489). -/
  | identityWrite (c : AdminCtx) (serial keyAddr : Nat)
  /-- CALIBRATION_WRITE (R489). -/
  | calibrationWrite (c : AdminCtx) (offset addr length : Nat)
  /-- PEAT_QUERY (R483). -/
  | peatQuery (c : AdminCtx)
  /-- JOURNAL_READ (R486). -/
  | journalRead (c : AdminCtx) (age page : Nat)
  /-- PEAT_READ (R489). -/
  | peatRead (c : AdminCtx) (offset length : Nat)
  /-- PEAT_WRITE (R489). -/
  | peatWrite (c : AdminCtx) (offset addr length : Nat)
  /-- FW_WRITE (R473). -/
  | fwWrite (c : AdminCtx) (slot offset addr length : Nat)
  /-- FW_VERIFY (R473). -/
  | fwVerify (c : AdminCtx) (slot : Nat)
  /-- FW_ACTIVATE (R473). -/
  | fwActivate (c : AdminCtx) (slot : Nat)
  /-- FW_COMMIT (R472). -/
  | fwCommit (c : AdminCtx)
  /-- FW_QUERY (R489). -/
  | fwQuery (c : AdminCtx)
  /-- PERSONALITY_SET (R474). -/
  | personalitySet (c : AdminCtx) (personality : Nat)
  /-- PWR_QUERY (R509). -/
  | pwrQuery (c : AdminCtx)
  /-- PWR_LIMIT_SET (R509). -/
  | pwrLimitSet (c : AdminCtx) (slew droop stretch persist : Nat)
  /-- PWR_THERMAL_SET (R509). -/
  | pwrThermalSet (c : AdminCtx) (warn thr1 thr2 persist : Nat)
  /-- PWR_RAIL_MAP (R509). -/
  | pwrRailMap (c : AdminCtx) (rail addr page persist : Nat)
  /-- PWR_PREWARN_FORCE (R500). -/
  | pwrPrewarnForce (c : AdminCtx) (mask duration : Nat)
  /-- PWR_SENSOR_READ (R509). -/
  | pwrSensorRead (c : AdminCtx)
  /-- FLT_QUERY (R534). -/
  | fltQuery (c : AdminCtx) (source : Nat)
  /-- FLT_SEVERITY_SET (R516). -/
  | fltSeveritySet (c : AdminCtx) (first count sev persist : Nat)
  /-- FLT_ROUTE_SET (R534). -/
  | fltRouteSet (c : AdminCtx) (group mask persist : Nat)
  /-- FAULT_LOG_READ (R534). -/
  | faultLogRead (c : AdminCtx) (first count : Nat)
  /-- TALLY_START (R527). -/
  | tallyStart (c : AdminCtx) (hp ring m period groups portMaskLo portMaskHi hostMask : Nat)
  /-- TALLY_STOP (R534). -/
  | tallyStop (c : AdminCtx)
  /-- COUNTER_CHAIN (R524). -/
  | counterChain (c : AdminCtx) (offset chain : Nat)
  /-- COUNTER_CLEAR (R525). -/
  | counterClear (c : AdminCtx) (blk inst : Nat)
  /-- COUNTER_WRAP_CLEAR (R523). -/
  | counterWrapClear (c : AdminCtx) (offset : Nat)
  /-- CLK_OK_RESTORED (R332). -/
  | clkOkRestored (port : PortNo)
  /-- PREWARN_FORCE_EXPIRY (R500). -/
  | prewarnForceExpiry
  /-- PRBS_CHECKER_LOCK (R342). -/
  | prbsCheckerLock (port : PortNo) (lane : Fin 3)
  /-- FIRMWARE_TRAP (R453). -/
  | firmwareTrap (cluster : Fin 72)
  /-- FILIGREE_STOP (R453). -/
  | filigreeStop (cluster : Fin 72)
  /-- LOCKSTEP (R512). -/
  | lockstep
  /-- CONTROLLER_UNCORRECTABLE (R400). -/
  | controllerUncorrectable (hp : HostNo)
  /-- CORRECTABLE_LINK_ERROR (R400). -/
  | correctableLinkError (hp : HostNo)
  /-- RETURN_TO_D0 (R385). -/
  | returnToD0 (f : Func)
deriving DecidableEq, Repr

end Sys2Proof
end

