-- ==== Sys2Proof/Decode.lean ====
section
/-! DEFINITION. The decoder of table words. No row of spec/opcode_table.json has bits: commands come to the block from
its pins, its links and its hosts, and none is spelled by a word. -/

namespace Sys2Proof

/-- The command that a word of the table's bits spells: no row gives bits (DESIGN CHOICE, log 1). -/
def decodeTableWord (_nbits _w : Nat) : Option Instr := none

end Sys2Proof
end

