-- ==== Sys2Proof/Machine/AdmSizes.lean ====
section
/-! DEFINITION. The parameters of every admin command: sizes and alignments in bytes (R429). -/

namespace Sys2Proof.Machine

/-- Parameters of the opcodes 0x01xx. -/
def sizes01 : List (Nat × List (Nat × Nat)) :=
  [ (0x0101, []),
    (0x0102, []),
    (0x0103, [(8, 8), (8, 8)]),
    (0x0104, []) ]

/-- Parameters of the opcodes 0x02xx. -/
def sizes02 : List (Nat × List (Nat × Nat)) :=
  [ (0x0201, [(2, 2), (1, 1), (1, 1), (2, 2), (8, 8)]),
    (0x0202, [(2, 2)]),
    (0x0210, [(4, 4), (1, 1), (8, 8), (1, 1), (8, 8), (1, 1), (2, 2), (2, 2), (1, 1), (1, 1), (1, 1)]),
    (0x0211, [(4, 4)]),
    (0x0212, [(4, 4)]),
    (0x0213, [(4, 4)]),
    (0x0214, [(4, 4)]),
    (0x0215, [(4, 4)]),
    (0x0220, [(2, 2), (1, 1), (8, 8), (1, 1), (8, 8), (2, 2), (1, 1), (1, 1)]),
    (0x0221, [(2, 2)]),
    (0x0222, [(2, 2)]),
    (0x0230, [(1, 1), (1, 1), (8, 8), (1, 1), (8, 8), (2, 2), (1, 1), (2, 2)]),
    (0x0231, [(1, 1), (1, 1), (1, 1), (2, 2)]),
    (0x0232, [(1, 1), (1, 1)]) ]

/-- Parameters of the opcodes 0x03xx. -/
def sizes03 : List (Nat × List (Nat × Nat)) :=
  [ (0x0301, [(2, 2), (1, 1), (1, 1), (8, 8), (8, 8), (1, 1)]),
    (0x0302, [(2, 2)]),
    (0x0303, [(2, 2), (8, 8)]),
    (0x0310, [(2, 2), (1, 1), (8, 8), (8, 8), (8, 8), (1, 1), (7, 1)]),
    (0x0320, [(2, 2), (8, 8), (8, 8), (1, 1)]),
    (0x0321, [(2, 2)]),
    (0x0330, [(2, 2), (4, 4)]),
    (0x0340, [(2, 2), (8, 8)]) ]

/-- Parameters of the opcodes 0x04xx. -/
def sizes04 : List (Nat × List (Nat × Nat)) :=
  [ (0x0401, [(2, 2), (2, 2), (1, 1), (4, 4)]),
    (0x0402, [(2, 2)]),
    (0x0410, [(4, 4), (2, 2), (8, 8)]),
    (0x0411, [(2, 2)]),
    (0x0412, [(2, 2), (4, 4), (4, 4)]) ]

/-- Parameters of the opcodes 0x05xx. -/
def sizes05 : List (Nat × List (Nat × Nat)) :=
  [ (0x0501, [(4, 4), (8, 8), (8, 8), (1, 1), (8, 8), (1, 1)]),
    (0x0502, [(4, 4)]),
    (0x0510, [(4, 4)]),
    (0x0511, [(4, 4), (2, 2), (4, 4), (8, 8), (1, 1), (1, 1)]) ]

/-- Parameters of the opcodes 0x06xx. -/
def sizes06 : List (Nat × List (Nat × Nat)) :=
  [ (0x0601, [(2, 2), (4, 4), (2, 2), (4, 4), (8, 8), (8, 8), (8, 8)]),
    (0x0602, [(2, 2)]),
    (0x0603, [(2, 2)]),
    (0x0610, [(2, 2), (8, 8), (8, 8)]),
    (0x0611, [(2, 2)]),
    (0x0612, [(2, 2)]),
    (0x0620, [(2, 2), (4, 4), (8, 8)]),
    (0x0621, [(4, 4), (4, 4)]),
    (0x0622, [(4, 4)]),
    (0x0623, [(4, 4), (8, 8)]),
    (0x0624, [(4, 4), (1, 1), (4, 4)]),
    (0x0630, [(4, 4), (4, 4)]),
    (0x0631, [(4, 4)]),
    (0x0632, [(4, 4), (4, 4), (2, 2), (4, 4), (4, 4), (4, 4)]),
    (0x0640, [(2, 2), (4, 4)]) ]

/-- Parameters of the opcodes 0x07xx. -/
def sizes07 : List (Nat × List (Nat × Nat)) :=
  [ (0x0701, [(4, 4), (1, 1)]),
    (0x0702, [(4, 4), (1, 1), (2, 2), (2, 2)]),
    (0x0710, [(1, 1), (1, 1), (1, 1), (2, 2), (2, 2), (1, 1)]),
    (0x0711, [(1, 1), (2, 2), (2, 2), (1, 1), (1, 1)]),
    (0x0712, [(1, 1), (1, 1), (2, 2), (2, 2), (1, 1)]),
    (0x0713, [(1, 1), (1, 1)]),
    (0x0720, [(1, 1), (1, 1), (2, 2), (2, 2), (1, 1)]),
    (0x0721, [(4, 4), (1, 1)]),
    (0x0730, [(1, 1)]) ]

/-- Parameters of the opcodes 0x08xx. -/
def sizes08 : List (Nat × List (Nat × Nat)) :=
  [ (0x0801, [(4, 4), (1, 1)]),
    (0x0802, [(1, 1), (1, 1), (1, 1)]),
    (0x0803, [(1, 1), (1, 1)]),
    (0x0804, [(1, 1)]),
    (0x0810, [(1, 1), (8, 8), (8, 8), (1, 1), (1, 1)]),
    (0x0811, [(1, 1), (1, 1), (2, 2), (8, 8), (1, 1), (1, 1)]),
    (0x0812, [(1, 1), (1, 1), (2, 2)]),
    (0x0813, [(1, 1), (1, 1)]),
    (0x0820, [(1, 1), (1, 1), (2, 2)]),
    (0x0821, [(1, 1), (1, 1), (2, 2), (1, 1)]),
    (0x0822, [(1, 1), (2, 2)]),
    (0x0830, [(4, 4), (4, 4), (1, 1), (1, 1), (1, 1), (2, 2), (1, 1), (1, 1)]) ]

/-- Parameters of the opcodes 0x09xx. -/
def sizes09 : List (Nat × List (Nat × Nat)) :=
  [ (0x0901, [(1, 1)]),
    (0x0902, [(1, 1), (1, 1), (1, 1)]),
    (0x0903, [(1, 1)]),
    (0x0904, [(1, 1), (1, 1), (1, 1), (1, 1)]),
    (0x0905, []),
    (0x0910, [(1, 1), (1, 1)]),
    (0x0911, [(1, 1)]),
    (0x0912, [(1, 1), (1, 1), (1, 1), (1, 1), (10, 8)]),
    (0x0913, [(1, 1), (1, 1), (1, 1)]),
    (0x0914, [(1, 1), (1, 1), (1, 1), (2, 2), (1, 1)]),
    (0x0915, [(1, 1), (1, 1), (1, 1), (1, 1), (1, 1), (1, 1), (1, 1), (1, 1), (1, 1), (1, 1), (8, 8)]),
    (0x0916, [(1, 1)]),
    (0x0920, [(1, 1), (1, 1), (1, 1), (1, 1), (1, 1), (1, 1)]) ]

/-- Parameters of the opcodes 0x0Axx. -/
def sizes0A : List (Nat × List (Nat × Nat)) :=
  [ (0x0A01, []),
    (0x0A02, [(1, 1), (1, 1), (1, 1), (1, 1), (1, 1), (1, 1), (1, 1), (1, 1)]),
    (0x0A03, [(8, 8), (2, 2)]),
    (0x0A04, [(2, 2), (1, 1)]),
    (0x0A10, [(1, 1)]),
    (0x0A11, [(1, 1), (2, 2), (1, 1)]),
    (0x0A20, [(1, 1), (1, 1), (1, 1), (8, 8), (2, 2)]),
    (0x0A21, [(1, 1), (1, 1), (1, 1), (4, 4), (1, 1), (1, 1), (4, 4), (1, 1), (1, 1)]) ]

/-- Parameters of the opcodes 0x0Bxx. -/
def sizes0B : List (Nat × List (Nat × Nat)) :=
  [ (0x0B01, [(1, 1)]),
    (0x0B02, [(1, 1), (1, 1), (2, 2), (2, 2), (1, 1)]),
    (0x0B03, [(1, 1), (1, 1), (1, 1)]),
    (0x0B10, [(1, 1), (1, 1), (1, 1), (1, 1), (1, 1), (1, 1), (1, 1), (1, 1)]),
    (0x0B11, [(1, 1)]),
    (0x0B12, [(1, 1)]) ]

/-- Parameters of the opcodes 0x0Cxx. -/
def sizes0C : List (Nat × List (Nat × Nat)) :=
  [ (0x0C01, [(1, 1), (1, 1), (2, 2), (2, 2), (8, 8), (1, 1), (4, 4), (1, 1), (1, 1), (1, 1), (2, 2), (1, 1), (1, 1), (1, 1)]),
    (0x0C02, [(1, 1), (1, 1), (4, 4), (4, 4), (4, 4)]),
    (0x0C03, [(1, 1)]),
    (0x0C04, [(1, 1)]),
    (0x0C05, [(1, 1)]),
    (0x0C06, [(1, 1)]),
    (0x0C07, [(1, 1)]),
    (0x0C08, [(1, 1), (1, 1)]) ]

/-- Parameters of the opcodes 0x0Dxx. -/
def sizes0D : List (Nat × List (Nat × Nat)) :=
  [ (0x0D01, []),
    (0x0D02, [(1, 1), (1, 1), (1, 1), (1, 1)]),
    (0x0D03, [(1, 1), (1, 1), (1, 1), (1, 1)]),
    (0x0D04, [(1, 1), (1, 1), (1, 1), (1, 1)]),
    (0x0D05, [(1, 1), (2, 2)]),
    (0x0D06, []) ]

/-- Parameters of the opcodes 0x0Exx. -/
def sizes0E : List (Nat × List (Nat × Nat)) :=
  [ (0x0E01, []),
    (0x0E02, [(1, 1)]),
    (0x0E03, [(1, 1), (1, 1)]),
    (0x0E10, [(1, 1)]),
    (0x0E11, [(1, 1)]),
    (0x0E20, []),
    (0x0E21, [(1, 1)]),
    (0x0E22, [(8, 8), (8, 8)]),
    (0x0E23, [(4, 4), (8, 8), (8, 8)]),
    (0x0E30, []),
    (0x0E31, [(1, 1), (1, 1)]),
    (0x0E32, [(4, 4), (8, 8)]),
    (0x0E33, [(4, 4), (8, 8), (8, 8)]),
    (0x0E40, [(1, 1), (4, 4), (8, 8), (8, 8)]),
    (0x0E41, [(1, 1)]),
    (0x0E42, [(1, 1)]),
    (0x0E43, []),
    (0x0E44, []),
    (0x0E50, [(1, 1)]) ]

/-- Parameters of the opcodes 0x0Fxx. -/
def sizes0F : List (Nat × List (Nat × Nat)) :=
  [ (0x0F01, [(2, 2)]),
    (0x0F02, [(2, 2), (2, 2), (1, 1), (1, 1)]),
    (0x0F03, [(1, 1), (1, 1), (1, 1)]),
    (0x0F10, [(4, 4), (1, 1)]),
    (0x0F20, [(1, 1), (8, 8), (1, 1), (4, 4), (4, 4), (8, 8), (8, 8), (1, 1)]),
    (0x0F21, []),
    (0x0F30, [(4, 4), (1, 1)]),
    (0x0F31, [(1, 1), (1, 1)]),
    (0x0F32, [(4, 4)]) ]

/-- The parameters of an opcode (DESIGN CHOICE, log 28). -/
def sizesOf (op : Nat) : List (Nat × Nat) :=
  ((sizes01 ++ sizes02 ++ sizes03 ++ sizes04 ++ sizes05 ++ sizes06 ++ sizes07 ++ sizes08
    ++ sizes09 ++ sizes0A ++ sizes0B ++ sizes0C ++ sizes0D ++ sizes0E ++ sizes0F).find? (fun p => p.1 == op)).elim [] (·.2)

end Sys2Proof.Machine
end

