-- ==== Sys2Proof/Config.lean ====
section
/-! DEFINITION. What the spec leaves open: opaque constants, so that no proof can see their values. -/

namespace Sys2Proof.Config

/-- The n-th value that the spec does not state (a free choice among several, an undefined value) (DESIGN CHOICE, log 5). -/
opaque freeNat : Nat → Nat

/-- SHA-384 of a byte string (R471): a named standard the spec does not restate (DEDUCED, log 7). -/
opaque sha384 : Bytes → Bytes

/-- ECDSA P-384 check of a signature: key, digest, signature (R471) (DEDUCED, log 7). -/
opaque ecdsaOk : Bytes → Bytes → Bytes → Bool

/-- The full activity in mA of Ember (0), the reduction units (1), DMA (2) and host injection (3) (R501): not
stated (DESIGN CHOICE, log 64). -/
opaque fullActivity : Nat → Nat

/-- The voltage table of CALIBRATION (R493) by its bytes that are not zero and the hottest temperature, in mV: its format is not
stated (DESIGN CHOICE, log 64). -/
opaque avsTable : List (Nat × Byte) → Int → Nat

/-- A NaN result's payload bits, by the operands' bits (R195): the spec fixes no NaN propagation. -/
opaque nanBits : Nat → Nat → Nat

/-- The asymmetry of a port by factory calibration (R355), in 2^-16 ns: the calibration is not stated (DESIGN CHOICE, log 64). -/
opaque calAsym : Nat → Int

end Sys2Proof.Config
end

