-- ==== Sys2Proof/Machine/Bits.lean ====
section
/-! DEFINITION. Bit fields, byte order, check codes and sparse maps. -/

namespace Sys2Proof.Machine

/-- Field of width `w` at bit `lo` of a number (R2). -/
def bitsOf (v lo w : Nat) : Nat := (v >>> lo) % 2 ^ w

/-- One bit of a number. -/
def bitOf (v i : Nat) : Bool := v.testBit i

/-- A Boolean as a bit. -/
def b2n (b : Bool) : Nat := if b then 1 else 0

/-- The number of the bytes, least significant first (R3). -/
def leNat : Bytes → Nat
  | [] => 0
  | b :: bs => b.toNat + 256 * leNat bs

/-- `n` bytes of a number, least significant first (R3). -/
def toLe : Nat → Nat → Bytes
  | 0, _ => []
  | n + 1, v => BitVec.ofNat 8 v :: toLe n (v / 256)

/-- `n` bytes from offset `off`. -/
def slice (bs : Bytes) (off n : Nat) : Bytes := (bs.drop off).take n

/-- The little-endian number in `n` bytes at offset `off`. -/
def leAt (bs : Bytes) (off n : Nat) : Nat := leNat (slice bs off n)

/-- `n` zero bytes. -/
def zeros (n : Nat) : Bytes := List.replicate n 0

/-- The bytes cut or padded with zeros to length `n`. -/
def padTo (n : Nat) (bs : Bytes) : Bytes := bs.take n ++ zeros (n - bs.length)

/-- Is every byte zero. -/
def allZero (bs : Bytes) : Bool := bs.all (· == 0)

/-- Replaces the bytes at offset `off` by `new`. -/
def patch (bs : Bytes) (off : Nat) (new : Bytes) : Bytes :=
  bs.take off ++ new ++ bs.drop (off + new.length)

/-- The quotient rounded up. -/
def ceilDiv (a b : Nat) : Nat := (a + b - 1) / b

/-- A signed number in two's complement of `w` bits. -/
def toSigned (w v : Nat) : Int :=
  let v := v % 2 ^ w
  if v < 2 ^ (w - 1) then (v : Int) else (v : Int) - (2 ^ w : Nat)

/-- The two's complement bits of a signed number. -/
def ofSigned (w : Nat) (v : Int) : Nat := (v % ((2 ^ w : Nat) : Int)).toNat

/-- Adds without exceeding a largest value. -/
def satAdd (top a b : Nat) : Nat := min top (a + b)

/-- The position of the most significant 1 bit of `v` below `2 ^ n`, counted from 1; 0 for zero. -/
def bitLen : Nat → Nat → Nat
  | 0, _ => 0
  | n + 1, v => if v = 0 then 0 else 1 + bitLen n (v / 2)

/-- Splits a range into pieces that do not cross a multiple of `page` and are at most `most` long;
`fuel` bounds the number of pieces. -/
def splitRange (page most : Nat) : Nat → Nat → Nat → List (Nat × Nat)
  | 0, _, _ => []
  | fuel + 1, addr, len =>
    if len = 0 then [] else
      let n := min len (min most (page - addr % page))
      if n = 0 then [] else (addr, n) :: splitRange page most fuel (addr + n) (len - n)

/-- Do two ranges `[a, a+la)` and `[b, b+lb)` share an address. -/
def overlaps (a la b lb : Nat) : Bool := decide (0 < la ∧ 0 < lb ∧ a < b + lb ∧ b < a + la)

/-! ### Check codes -/

/-- The eight bits of a byte, bit 0 first (R36). -/
def byteBits (b : Byte) : List Bool :=
  [b.getLsbD 0, b.getLsbD 1, b.getLsbD 2, b.getLsbD 3, b.getLsbD 4, b.getLsbD 5, b.getLsbD 6, b.getLsbD 7]

/-- One step of the bead CRC (R39). -/
def crc13Feed (crc : BitVec 13) (x : Bool) : BitVec 13 :=
  let top := crc.getLsbD 12 != x
  let crc := crc <<< 1
  if top then crc ^^^ 0x1CF5#13 else crc

/-- The bead CRC over the content, T.KIND and T.LAST (R39). -/
def crc13 (content : Bytes) (kind last : Bool) : BitVec 13 :=
  let c := content.foldl (fun c b => (byteBits b).foldl crc13Feed c) 0x1FFF#13
  crc13Feed (crc13Feed c kind) last

/-- One bit of the frame CRC (R324). -/
def crc16Feed (crc : BitVec 16) (x : Bool) : BitVec 16 :=
  let top := crc.getLsbD 0 != x
  let crc := crc >>> 1
  if top then crc ^^^ 0x8408#16 else crc

/-- The frame CRC over type and body (R324). -/
def crc16 (bs : Bytes) : BitVec 16 :=
  bs.foldl (fun c b => (byteBits b).foldl crc16Feed c) 0xFFFF#16

/-- One bit of the CRC-32 of R186. -/
def crc32Feed (crc : BitVec 32) (x : Bool) : BitVec 32 :=
  let top := crc.getLsbD 0 != x
  let crc := crc >>> 1
  if top then crc ^^^ 0xEDB88320#32 else crc

/-- The CRC-32 of R186: reflected polynomial, all ones at the start, inverted at the end. -/
def crc32 (bs : Bytes) : BitVec 32 :=
  ~~~(bs.foldl (fun c b => (byteBits b).foldl crc32Feed c) 0xFFFFFFFF#32)

/-- One bit of the CRC-8 of the SMBus PEC (R437), most significant bit first. -/
def crc8Feed (crc : BitVec 8) (x : Bool) : BitVec 8 :=
  let top := crc.getLsbD 7 != x
  let crc := crc <<< 1
  if top then crc ^^^ 0x07#8 else crc

/-- The CRC-8 of the SMBus PEC (R437). -/
def crc8 (bs : Bytes) : BitVec 8 :=
  bs.foldl (fun c b => (byteBits b).reverse.foldl crc8Feed c) 0#8

/-- One step of the 16-bit LFSR of R101 (and of the marking LFSR, R248). -/
def lfsr16 (v : BitVec 16) : BitVec 16 :=
  let bit := (v.getLsbD 0 != v.getLsbD 2) != (v.getLsbD 3 != v.getLsbD 5)
  (v >>> 1) ||| (if bit then 0x8000#16 else 0)

/-! ### Sparse maps: lists of pairs with rising keys -/

/-- The value at a key. -/
def mget {α : Type} (m : List (Nat × α)) (k : Nat) : Option α :=
  match m with
  | [] => none
  | (j, a) :: rest => if j = k then some a else mget rest k

/-- Is a key present. -/
def mhas {α : Type} (m : List (Nat × α)) (k : Nat) : Bool := (mget m k).isSome

/-- Sets the value at a key, keeping the keys rising. -/
def mset {α : Type} (m : List (Nat × α)) (k : Nat) (a : α) : List (Nat × α) :=
  match m with
  | [] => [(k, a)]
  | (j, b) :: rest =>
    if k < j then (k, a) :: (j, b) :: rest
    else if k = j then (k, a) :: rest
    else (j, b) :: mset rest k a

/-- Removes a key. -/
def mdel {α : Type} (m : List (Nat × α)) (k : Nat) : List (Nat × α) := m.filter (fun p => p.1 != k)

/-- Changes the value at a key, if it is present. -/
def mupd {α : Type} (m : List (Nat × α)) (k : Nat) (f : α → α) : List (Nat × α) :=
  m.map (fun p => if p.1 = k then (p.1, f p.2) else p)

/-- Changes every value. -/
def mmap {α β : Type} (m : List (Nat × α)) (f : Nat → α → β) : List (Nat × β) :=
  m.map (fun p => (p.1, f p.1 p.2))

/-- The value at a key of a list keyed by any type with decidable equality. -/
def aget {κ α : Type} [DecidableEq κ] (m : List (κ × α)) (k : κ) : Option α :=
  match m with
  | [] => none
  | (j, a) :: rest => if j = k then some a else aget rest k

/-- Sets the value at a key: in place, or at the end. -/
def aset {κ α : Type} [DecidableEq κ] (m : List (κ × α)) (k : κ) (a : α) : List (κ × α) :=
  match m with
  | [] => [(k, a)]
  | (j, b) :: rest => if j = k then (k, a) :: rest else (j, b) :: aset rest k a

/-- Removes a key. -/
def adel {κ α : Type} [DecidableEq κ] (m : List (κ × α)) (k : κ) : List (κ × α) :=
  m.filter (fun p => decide (p.1 ≠ k))

/-- The first numbers below `n`, from `start`, that satisfy a test. -/
def firstFree (p : Nat → Bool) : Nat → Nat → Option Nat
  | 0, _ => none
  | fuel + 1, i => if p i then some i else firstFree p fuel (i + 1)

/-- Replaces element `i` of a list. -/
def lset {α : Type} (l : List α) (i : Nat) (a : α) : List α := l.set i a

/-- Element `i` of a list, or a default. -/
def lget {α : Type} (l : List α) (i : Nat) (d : α) : α := l.getD i d

/-- Adds up the numbers of a list. -/
def sumOf (l : List Nat) : Nat := l.foldl (· + ·) 0

end Sys2Proof.Machine
end

