-- ==== Sys2Proof/Machine/Float.lean ====
section
/-! DEFINITION. The arithmetic of reductions and atomics: floating point rounded once, the element types,
the carriers of EXACT and BINNED mode (R129, R193 to R199). -/

namespace Sys2Proof.Machine

/-! ### Floating-point formats -/

/-- A format: exponent bits, fraction bits, and whether it is E4M3 with its own rules (R195). -/
structure Fmt where
  eb : Nat
  mb : Nat
  e4m3 : Bool := false
deriving DecidableEq, Repr, Inhabited

/-- A decoded value: a NaN, an infinity, or ±m · 2^e. -/
inductive Fp where
  | nan
  | inf (neg : Bool)
  | fin (neg : Bool) (m : Nat) (e : Int)
deriving DecidableEq, Repr, Inhabited

/-- Bits of a format in all. -/
def Fmt.width (f : Fmt) : Nat := 1 + f.eb + f.mb

/-- The exponent of the least bit of a subnormal. -/
def Fmt.qmin (f : Fmt) : Int := 2 - 2 ^ (f.eb - 1) - (f.mb : Int)

/-- The value that bits stand for (R195). -/
def Fmt.decode (f : Fmt) (v : Nat) : Fp :=
  let neg := bitOf v (f.eb + f.mb)
  let ex := bitsOf v f.mb f.eb
  let fr := bitsOf v 0 f.mb
  if f.e4m3 then
    if ex = 15 ∧ fr = 7 then .nan
    else if ex = 0 then .fin neg fr f.qmin
    else .fin neg (2 ^ f.mb + fr) (f.qmin + ((ex : Int) - 1))
  else if ex = 2 ^ f.eb - 1 then (if fr = 0 then .inf neg else .nan)
  else if ex = 0 then .fin neg fr f.qmin
  else .fin neg (2 ^ f.mb + fr) (f.qmin + ((ex : Int) - 1))

/-- The sign bit in place. -/
def Fmt.sign (f : Fmt) (neg : Bool) : Nat := b2n neg * 2 ^ (f.eb + f.mb)

/-- Infinity; in E4M3 the largest number (R195). -/
def Fmt.infinity (f : Fmt) (neg : Bool) : Nat :=
  f.sign neg + (if f.e4m3 then 0x7E else (2 ^ f.eb - 1) * 2 ^ f.mb)

/-- ±m · 2^e rounded to nearest even, m not zero (R195). -/
def Fmt.round (f : Fmt) (neg : Bool) (m : Nat) (e : Int) : Nat :=
  let top : Int := (Nat.log2 m : Int) + e
  let q := max (top - (f.mb : Int)) f.qmin
  let n : Nat :=
    if q ≤ e then m <<< (e - q).toNat
    else
      let s := (q - e).toNat
      let k := m >>> s
      let r := m % 2 ^ s
      let h := 2 ^ (s - 1)
      if r < h then k else if h < r then k + 1 else k + k % 2
  let bits := (q - f.qmin).toNat * 2 ^ f.mb + n
  let most := if f.e4m3 then 0x7E else (2 ^ f.eb - 1) * 2 ^ f.mb - 1
  if most < bits then f.infinity neg else f.sign neg + bits

/-- A quiet NaN; its sign and its other fraction bits are free, and the same for either order of the
operands (R195, R196). -/
def Fmt.quietNan (f : Fmt) (a b : Nat) : Nat :=
  let n := Config.nanBits (min a b) (max a b)
  if f.e4m3 then f.sign (bitOf n 0) + 0x7F
  else f.sign (bitOf n 0) + (2 ^ f.eb - 1) * 2 ^ f.mb + 2 ^ (f.mb - 1) + bitsOf n 1 (f.mb - 1)

/-- A signed integer from sign and magnitude. -/
def signed (neg : Bool) (m : Nat) : Int := if neg then -(m : Int) else m

/-- Rounds an integer times a power of two; the sign of a zero is given. -/
def Fmt.roundInt (f : Fmt) (x : Int) (e : Int) (zneg : Bool) : Nat :=
  if x = 0 then f.sign zneg else f.round (decide (x < 0)) x.natAbs e

/-- Exact sum, rounded once (R195) (DEDUCED, log 45). -/
def Fmt.add (f : Fmt) (a b : Nat) : Nat :=
  match f.decode a, f.decode b with
  | .nan, _ => f.quietNan a b
  | _, .nan => f.quietNan a b
  | .inf x, .inf y => if x = y then f.infinity x else f.quietNan a b
  | .inf x, _ => f.infinity x
  | _, .inf y => f.infinity y
  | .fin s m e, .fin t n g =>
    let lo := min e g
    f.roundInt (signed s (m <<< (e - lo).toNat) + signed t (n <<< (g - lo).toNat)) lo (s && t)

/-- Exact product, rounded once (R195) (DEDUCED, log 45). -/
def Fmt.mul (f : Fmt) (a b : Nat) : Nat :=
  match f.decode a, f.decode b with
  | .nan, _ => f.quietNan a b
  | _, .nan => f.quietNan a b
  | .inf x, .inf y => f.infinity (x != y)
  | .inf x, .fin t n _ => if n = 0 then f.quietNan a b else f.infinity (x != t)
  | .fin s m _, .inf y => if m = 0 then f.quietNan a b else f.infinity (s != y)
  | .fin s m e, .fin t n g => if m * n = 0 then f.sign (s != t) else f.round (s != t) (m * n) (e + g)

/-- A number that orders the values of a format other than NaN, −0 below +0 (R195). -/
def Fmt.rank (f : Fmt) (v : Nat) : Int :=
  let m := v % 2 ^ (f.eb + f.mb)
  if bitOf v (f.eb + f.mb) then -(m : Int) - 1 else m

/-- Is a value a NaN. -/
def Fmt.isNan (f : Fmt) (v : Nat) : Bool := f.decode v == .nan

def fp16 : Fmt := { eb := 5, mb := 10 }
def bf16 : Fmt := { eb := 8, mb := 7 }
def fp32 : Fmt := { eb := 8, mb := 23 }
def fp64 : Fmt := { eb := 11, mb := 52 }
def e4m3 : Fmt := { eb := 4, mb := 3, e4m3 := true }
def e5m2 : Fmt := { eb := 5, mb := 2 }

/-- FETCH_ADD_F64 (R129). -/
def atomicAddF64 (word opnd : Nat) : Nat :=
  if fp64.isNan word then word ||| 2 ^ 51
  else if fp64.isNan opnd then opnd ||| 2 ^ 51
  else
    match fp64.decode word, fp64.decode opnd with
    | .inf x, .inf y => if x = y then word else 0x7FF8000000000000
    | _, _ => fp64.add word opnd

/-- The new word of an atomic, none where the word is not written (R129): `aop`, word, OPERAND1,
OPERAND2. -/
def atomicNew (aop word a b : Nat) : Option Nat :=
  match aop with
  | 0 => some ((word + a) % 2 ^ 64)
  | 1 => if word = a then some b else none
  | 2 => some a
  | 3 => some (word &&& a)
  | 4 => some (word ||| a)
  | 5 => some (word ^^^ a)
  | _ => some (atomicAddF64 word a)

/-! ### Element types -/

/-- The format of a floating DTYPE (R193). -/
def dtypeFmt (t : Nat) : Option Fmt :=
  match t with
  | 5 => some e4m3
  | 6 => some e5m2
  | 7 => some fp16
  | 8 => some bf16
  | 9 => some fp32
  | 10 => some fp64
  | _ => none

/-- The size of a DTYPE in bytes (R193); 0 for a reserved one. -/
def dtypeSize (t : Nat) : Nat :=
  match t with
  | 0 => 1
  | 1 => 4
  | 2 => 8
  | 3 => 4
  | 4 => 8
  | 5 => 1
  | 6 => 1
  | 7 => 2
  | 8 => 2
  | 9 => 4
  | 10 => 8
  | _ => 0

/-- Is a DTYPE a signed integer. -/
def dtypeSigned (t : Nat) : Bool := t == 1 || t == 2

/-- The size s of an element under a ROP (R193). -/
def elemSize (rop t : Nat) : Nat := if rop = 5 ∨ rop = 6 then 2 * dtypeSize t else dtypeSize t

/-- The size w of a wire element (R189, R197, R198). -/
def wireElem (rop t mode : Nat) : Nat :=
  if mode = 2 then (if t = 7 then 8 else 40) else if mode = 3 then 24 else elemSize rop t

/-- The permitted combinations (R194). -/
def ropPermitted (rop t mode : Nat) : Bool :=
  let fo := mode == 0 || mode == 1
  let i := decide (1 ≤ t ∧ t ≤ 4)
  let wide := t == 1 || t == 3 || t == 9 || t == 2 || t == 4 || t == 10
  decide (t ≤ 10) &&
    match rop with
    | 0 => mode == 0
    | 1 => (fo && t != 0) || (mode == 2 && (t == 7 || t == 8 || t == 9)) || (mode == 3 && t == 10)
    | 2 => fo && t != 0
    | 3 => fo && t != 0
    | 4 => fo && t != 0
    | 5 => fo && wide
    | 6 => fo && wide
    | 7 => fo && i
    | 8 => fo && i
    | 9 => fo && i
    | _ => false

/-- The contribution limit (R199); none where there is none. -/
def contribLimit (t mode : Nat) : Option Nat :=
  if mode = 2 then (if t = 7 then some 524288 else some (2 ^ 31)) else if mode = 3 then some 8388608 else none

/-- A number that orders the values of a type for MIN, MAX and the value of a pair: none for a NaN.
`zeros`: are −0 and +0 apart. -/
def orderOf (t : Nat) (zeros : Bool) (v : Nat) : Option Int :=
  match dtypeFmt t with
  | some f =>
    if f.isNan v then none
    else if !zeros && v % 2 ^ (f.eb + f.mb) == 0 then some 0 else some (f.rank v)
  | none => some (if dtypeSigned t then toSigned (8 * dtypeSize t) v else v)

/-- MINLOC and MAXLOC (R193, R195): the value in the low half of the element, its index in the high half. -/
def locOp (isMin : Bool) (t a b : Nat) : Nat :=
  let n := 8 * dtypeSize t
  let va := orderOf t false (a % 2 ^ n)
  let vb := orderOf t false (b % 2 ^ n)
  let byIndex :=
    let ia := toSigned n (a / 2 ^ n)
    let ib := toSigned n (b / 2 ^ n)
    if ia < ib then a else if ib < ia then b else min a b
  match va, vb with
  | none, none => byIndex
  | none, some _ => b
  | some _, none => a
  | some x, some y => if x = y then byIndex else if decide (x < y) = isMin then a else b

/-- One combination of two operands in FAST and ORDERED mode (R193, R195) (DEDUCED, log 45). -/
def combine (rop t a b : Nat) : Nat :=
  let n := 8 * dtypeSize t
  match rop with
  | 1 => match dtypeFmt t with
    | some f => f.add a b
    | none => (a + b) % 2 ^ n
  | 2 => match dtypeFmt t with
    | some f => f.mul a b
    | none => (a * b) % 2 ^ n
  | 3 => match orderOf t true a, orderOf t true b with
    | some x, some y => if y < x then b else a
    | _, _ => match dtypeFmt t with | some f => f.quietNan a b | none => a
  | 4 => match orderOf t true a, orderOf t true b with
    | some x, some y => if x < y then b else a
    | _, _ => match dtypeFmt t with | some f => f.quietNan a b | none => a
  | 5 => locOp true t a b
  | 6 => locOp false t a b
  | 7 => a &&& b
  | 8 => a ||| b
  | 9 => a ^^^ b
  | _ => a

/-! ### Carriers -/

/-- Bits of X and the weight of its least bit in an EXACT carrier (R197). -/
def exactBits (t : Nat) : Nat := if t = 7 then 60 else 310
def exactUnit (t : Nat) : Int := if t = 7 then -24 else -149

/-- The EXACT carrier of an element (R197). -/
def toExact (t v : Nat) : Nat :=
  let n := exactBits t
  match ((dtypeFmt t).getD fp32).decode v with
  | .nan => 2 ^ n
  | .inf false => 2 ^ (n + 1)
  | .inf true => 2 ^ (n + 2)
  | .fin s m e => ofSigned n (signed s (m <<< (e - exactUnit t).toNat))

/-- The sum of two EXACT carriers (R197). -/
def addExact (t a b : Nat) : Nat :=
  let n := exactBits t
  (a % 2 ^ n + b % 2 ^ n) % 2 ^ n + (bitsOf a n 3 ||| bitsOf b n 3) * 2 ^ n

/-- The canonical quiet NaN of a type (R197) (DEDUCED, log 45). -/
def canonicalNan (t : Nat) : Nat :=
  match t with
  | 7 => 0x7E00
  | 8 => 0x7FC0
  | 9 => 0x7FC00000
  | _ => 0x7FF8000000000000

/-- Flags of a carrier (bit 0 NAN, 1 POS_INF, 2 NEG_INF), then its value rounded once (R197, R198). -/
def roundCarrier (t flags : Nat) (x e : Int) : Nat :=
  let f := (dtypeFmt t).getD fp64
  if bitOf flags 0 || (bitOf flags 1 && bitOf flags 2) then canonicalNan t
  else if bitOf flags 1 then f.infinity false
  else if bitOf flags 2 then f.infinity true
  else f.roundInt x e false

/-- The element an EXACT carrier rounds to (R197). -/
def fromExact (t v : Nat) : Nat :=
  let n := exactBits t
  roundCarrier t (bitsOf v n 3) (toSigned n v) (exactUnit t)

/-- A BINNED carrier (R198): E, S0, S1, S2 and the flags. -/
structure Binned where
  e : Nat := 0
  s0 : Int := 0
  s1 : Int := 0
  s2 : Int := 0
  flags : Nat := 0
deriving DecidableEq, Repr, Inhabited

/-- The words of a BINNED carrier (R198). -/
def Binned.encode (c : Binned) : Nat :=
  (ofSigned 56 c.s0 + c.e * 2 ^ 56) + (ofSigned 56 c.s1 + c.flags * 2 ^ 56) * 2 ^ 64 + ofSigned 56 c.s2 * 2 ^ 128

/-- The carrier that words hold. -/
def Binned.decode (v : Nat) : Binned :=
  { e := bitsOf v 56 7, s0 := toSigned 56 (bitsOf v 0 56), s1 := toSigned 56 (bitsOf v 64 56),
    s2 := toSigned 56 (bitsOf v 128 56), flags := bitsOf v 120 3 }

/-- The BINNED carrier of an FP64 element (R198). -/
def toBinned (v : Nat) : Nat :=
  match fp64.decode v with
  | .nan => ({ flags := 1 } : Binned).encode
  | .inf false => ({ flags := 2 } : Binned).encode
  | .inf true => ({ flags := 4 } : Binned).encode
  | .fin s m e =>
    if m = 0 then ({} : Binned).encode
    else
      let q := m <<< (e + 1074).toNat
      let t := Nat.log2 q / 32
      let part (i : Nat) : Int := if t < i then 0 else signed s (bitsOf q (32 * (t - i)) 32)
      ({ e := t, s0 := part 0, s1 := part 1, s2 := part 2 } : Binned).encode

/-- The sums of a carrier moved to a larger E (R198). -/
def Binned.move (c : Binned) (e : Nat) : Binned :=
  match e - c.e with
  | 0 => c
  | 1 => { c with e := e, s0 := 0, s1 := c.s0, s2 := c.s1 }
  | 2 => { c with e := e, s0 := 0, s1 := 0, s2 := c.s0 }
  | _ => { c with e := e, s0 := 0, s1 := 0, s2 := 0 }

/-- The combination of two BINNED carriers (R198). -/
def addBinned (a b : Nat) : Nat :=
  let x := Binned.decode a
  let y := Binned.decode b
  let e := max x.e y.e
  let x := x.move e
  let y := y.move e
  ({ e := e, s0 := x.s0 + y.s0, s1 := x.s1 + y.s1, s2 := x.s2 + y.s2, flags := x.flags ||| y.flags } : Binned).encode

/-- The element a BINNED carrier rounds to (R198). -/
def fromBinned (v : Nat) : Nat :=
  let c := Binned.decode v
  roundCarrier 10 c.flags (c.s0 * 2 ^ 64 + c.s1 * 2 ^ 32 + c.s2) (32 * ((c.e : Int) - 2) - 1074)

/-- An element as it is on the wire and in STAGE (R189, R197, R198). -/
def toWire (t mode v : Nat) : Nat := if mode = 2 then toExact t v else if mode = 3 then toBinned v else v

/-- A wire element written to USER_DST (R197, R198). -/
def fromWire (t mode v : Nat) : Nat := if mode = 2 then fromExact t v else if mode = 3 then fromBinned v else v

/-- The combination of two wire elements (R195 to R198). -/
def combineWire (rop t mode a b : Nat) : Nat :=
  if mode = 2 then addExact t a b else if mode = 3 then addBinned a b else combine rop t a b

end Sys2Proof.Machine
end

