-- ==== Sys2Proof/Machine/Regs.lean ====
section
/-! DEFINITION. The register map: every page and register of the CSR window (R535 to R539), with the
access types of its fields (R8) and its reset value. -/

namespace Sys2Proof.Machine

/-- One register, or an array of them, of a page: the masks say which bits are of which type (R8); bits
in no mask are RO or reserved. -/
structure RegDesc where
  page : Nat := 0
  off : Nat
  n : Nat := 1
  stride : Nat := 4
  w64 : Bool := false
  rw : Nat := 0
  rwe : Nat := 0
  w1c : Nat := 0
  wo : Nat := 0
  rc : Nat := 0
  reset : Nat := 0
  perf : Bool := false
deriving DecidableEq, Repr, Inhabited

/-- Has the register a field a write acts on (R423). -/
def RegDesc.writable (r : RegDesc) : Bool := r.rw + r.rwe + r.w1c + r.wo != 0

/-- Has the register set, clear and toggle aliases (R420). -/
def RegDesc.aliased (r : RegDesc) : Bool := r.rw != 0 && r.rwe + r.w1c + r.wo + r.rc == 0

/-- One region of the CSR window (R535). -/
structure BlockDesc where
  id : Nat
  base : Nat
  inst : Nat := 1
  pages : Nat := 1
  stride : Nat := 0
  regs : List RegDesc := []
deriving DecidableEq, Repr, Inhabited

/-- CTRL and STATUS, which every page has (R419, R536). -/
def commonRegs : List RegDesc :=
  [ { off := 0x000, rw := 1 }, { off := 0x004, w1c := 2 } ]

/-- An array of 48-bit performance counters. -/
def perfArr (off n : Nat) : RegDesc := { off := off, n := n, stride := 8, w64 := true, perf := true }

/-- An array of 32-bit link error counters. -/
def linkArr (off n : Nat) : RegDesc := { off := off, n := n }

def glbRegs : List RegDesc :=
  [ { off := 0x010, reset := 1 }, { off := 0x020 }, { off := 0x024 }, { off := 0x028 }, { off := 0x02C },
    perfArr 0x100 16 ]

def kilnRegs : List RegDesc := [ { off := 0x020 }, { off := 0x024 } ]

def pwrRegs : List RegDesc :=
  [ { off := 0x020, reset := 0x00011E28 }, { off := 0x024, reset := 0x0067645F }, { off := 0x030 },
    { off := 0x034, reset := 0x320 }, { off := 0x038 }, { off := 0x040, n := 4, reset := 0xFFFFFFFF },
    perfArr 0x100 4 ]

def timeRegs : List RegDesc :=
  [ { off := 0x020, reset := 0x8001 }, { off := 0x024, reset := 0x0A0A1004 }, { off := 0x030 },
    { off := 0x040, w64 := true }, { off := 0x048 }, { off := 0x04C }, { off := 0x050, reset := 0x6400 },
    { off := 0x058, w64 := true } ]

def fltRegs : List RegDesc :=
  [ { off := 0x020, rw := 1 }, { off := 0x024 }, { off := 0x100, n := 32, w1c := 0xFFFFFFFF },
    { off := 0x180, n := 32, wo := 0xFFFFFFFF }, perfArr 0x200 2,
    { page := 1, off := 0x000, rw := 1 }, { page := 1, off := 0x004, w1c := 2 },
    { page := 1, off := 0x100, n := 128 },
    { page := 2, off := 0x000, rw := 1 }, { page := 2, off := 0x004, w1c := 2 },
    { page := 2, off := 0x100, n := 40, reset := 0xFFFFFFFF },
    { page := 3, off := 0x000, rw := 1 }, { page := 3, off := 0x004, w1c := 2 },
    { page := 3, off := 0x020 }, { page := 3, off := 0x024 } ]

def tallyRegs : List RegDesc :=
  [ { off := 0x020 }, { off := 0x024 }, { off := 0x028 }, { off := 0x02C }, { off := 0x030 },
    { off := 0x034, w1c := 3 } ]

def hostRegs : List RegDesc :=
  [ { off := 0x020 }, { off := 0x024, reset := 0x00600400 }, { off := 0x028 }, { off := 0x02C },
    { off := 0x030, reset := 0x00FF3000 }, { off := 0x040 }, { off := 0x044, w1c := 3 },
    { off := 0x100, w64 := true, rw := 0xFFFFFFFFFF000 }, { off := 0x108, w64 := true, rw := 0xFFFFFFFFFF000 },
    { off := 0x110, rw := 0xFFF0F, reset := 4 }, { off := 0x114, rw := 1 }, { off := 0x118 },
    { off := 0x11C, wo := 0xFFFFFFFF }, { off := 0x120, wo := 0xFFFFFFFF }, { off := 0x124 },
    perfArr 0x200 6, perfArr 0x240 4, perfArr 0x260 4, { off := 0x380, wo := 0xFFFFFFFF } ]

def xlatRegs : List RegDesc :=
  [ { off := 0x020, rwe := 0xFFFF, reset := 0xACE1 }, { off := 0x030 },
    { off := 0x100, n := 4, stride := 0x10, w64 := true, rwe := 0xFFFFFFFFFF001 },
    { off := 0x108, n := 4, stride := 0x10, w64 := true, rwe := 0xFFFFFFFFFF000 },
    { off := 0x140, n := 4, stride := 0x10, w64 := true, rwe := 0xFFFFFFFFFF001 },
    { off := 0x148, n := 4, stride := 0x10, w64 := true, rwe := 0xFFFFFFFFFF000 } ]

def eptRegs : List RegDesc :=
  [ { off := 0x020, rwe := 0xFFFF0F, reset := 0x6408 }, { off := 0x030 }, { off := 0x034 }, { off := 0x038 } ]

def matchRegs : List RegDesc :=
  [ { off := 0x020, rwe := 0x7F, reset := 0x10 }, { off := 0x030 }, { off := 0x034 }, { off := 0x038 } ]

def collRegs : List RegDesc :=
  [ { off := 0x020, rwe := 0xFFFF, reset := 0x64 }, { off := 0x024, rwe := 0x1FFFFFF, reset := 0x000A1400 },
    { off := 0x028, rwe := 0xFFFFFF, reset := 0xFA50 }, { off := 0x030, n := 5 } ]

def claspRegs : List RegDesc :=
  [ { off := 0x020, rwe := 0x3FF00FF, reset := 0x00400000 }, { off := 0x028 }, { off := 0x030 }, { off := 0x034 } ]

def xportRegs : List RegDesc :=
  [ { off := 0x020, rwe := 0x1F07, reset := 0xC04 }, { off := 0x024, rwe := 0xFF3F, reset := 0x3210 },
    { off := 0x028, rwe := 0xFF0FF7F, reset := 0x07406408 }, { off := 0x030 }, { off := 0x034 }, { off := 0x038 } ]

def congRegs : List RegDesc :=
  [ { off := 0x020, rwe := 0xFFFFFFFF, reset := 0x432053E8 }, { off := 0x024, rwe := 0xFFFFFFFF, reset := 0x02320A0A },
    { off := 0x028, rwe := 0xFFF, reset := 0xF0A }, { off := 0x02C, rwe := 0xF0FFF, reset := 0x0006000A },
    { off := 0x030 } ]

def dmaRegs : List RegDesc :=
  [ { off := 0x020, rwe := 7, reset := 4 }, { off := 0x030, wo := 0xFFFFFFFF }, { off := 0x100, n := 64 },
    perfArr 0x300 4 ]

def rtrRegs : List RegDesc :=
  [ { off := 0x020 }, { off := 0x024 }, { off := 0x028 }, { off := 0x02C }, { off := 0x030, reset := 0x4008 },
    { off := 0x034, reset := 3 }, { off := 0x040, n := 8, reset := 0x800 }, { off := 0x060, reset := 0xAC000 },
    { off := 0x064 }, { off := 0x068, rc := 0xFFFFFFFF } ]

def emberRegs : List RegDesc :=
  [ { off := 0x020 }, { off := 0x024, reset := 0x800 }, { off := 0x028, wo := 0xFFFFFFFF },
    { off := 0x100, n := 64 }, { off := 0x200, n := 72 }, perfArr 0x340 6 ]

def mgfRegs : List RegDesc :=
  [ { off := 0x020, rwe := 0x10F, reset := 0xF }, { off := 0x024, rwe := 0x8001FFFF }, { off := 0x030 },
    { off := 0x034 }, { off := 0x038, wo := 0xFFFFFFFF }, { off := 0x03C, rw := 0xFF },
    { off := 0x040, w64 := true, rc := 0xFFFFFFFFFFFFFFFF }, { off := 0x048 },
    { off := 0x050, w64 := true, wo := 0xFFFFFFFFFFFFFFFF }, { off := 0x058, w64 := true, wo := 0xFFFFFFFFFFFFFFFF },
    perfArr 0x100 5 ]

def laneRegs : List RegDesc :=
  [ { off := 0x020, rwe := 0xFF7F, reset := 0x2839 }, { off := 0x030 }, { off := 0x034 }, { off := 0x038 },
    { off := 0x03C, reset := 0x700 }, { off := 0x040, n := 2, stride := 8, w64 := true, reset := 0x400000 },
    linkArr 0x080 6, perfArr 0x100 8, { off := 0x180, n := 3, stride := 8, w64 := true } ]

def linkRegs : List RegDesc :=
  [ { off := 0x020, rwe := 0xFFFFFF3F, reset := 0x280A1920 }, { off := 0x024, rwe := 0xFFFFFF0F, reset := 0x0A0A0A0B },
    { off := 0x028 }, { off := 0x02C }, { off := 0x030 }, { off := 0x034 }, { off := 0x038, reset := 0x640000 },
    { off := 0x03C }, linkArr 0x080 5, perfArr 0x100 8 ]

def rinRegs : List RegDesc := [ { off := 0x020, reset := 0x00FF000A }, { off := 0x024 }, perfArr 0x100 4 ]

def oschRegs : List RegDesc :=
  [ { off := 0x020, w64 := true, reset := 0x0000000400100000 }, { off := 0x028, reset := 8 },
    { off := 0x040, n := 8, stride := 8, w64 := true, reset := 0x10000010 },
    { off := 0x080, n := 8, reset := 0x40040010 }, { off := 0x0A0, n := 8, reset := 0x100 },
    { off := 0x100, n := 8, stride := 8, w64 := true }, perfArr 0x200 16,
    perfArr 0x300 5, perfArr 0x340 4 ]

/-- The regions of the CSR window in the order of R535. -/
def blocks : List BlockDesc :=
  [ { id := 0xF2, base := 0x00000000 },
    { id := 0x01, base := 0x00010000, regs := glbRegs },
    { id := 0x02, base := 0x00020000, regs := kilnRegs },
    { id := 0x03, base := 0x00030000, regs := pwrRegs },
    { id := 0x04, base := 0x00040000, regs := timeRegs },
    { id := 0x05, base := 0x00050000, pages := 4, regs := fltRegs },
    { id := 0x06, base := 0x00060000, regs := tallyRegs },
    { id := 0x08, base := 0x00080000, inst := 8, pages := 16, stride := 0x10000, regs := hostRegs },
    { id := 0xF0, base := 0x00100000, pages := 8 },
    { id := 0xF1, base := 0x00108000 },
    { id := 0x10, base := 0x00200000, inst := 4, stride := 0x1000, regs := xlatRegs },
    { id := 0x11, base := 0x00210000, regs := eptRegs },
    { id := 0x12, base := 0x00220000, regs := matchRegs },
    { id := 0x13, base := 0x00230000, regs := collRegs },
    { id := 0x14, base := 0x00240000, regs := claspRegs },
    { id := 0x15, base := 0x00250000, regs := xportRegs },
    { id := 0x16, base := 0x00260000, regs := congRegs },
    { id := 0x17, base := 0x00270000, regs := dmaRegs },
    { id := 0x18, base := 0x00280000, regs := rtrRegs },
    { id := 0x19, base := 0x00300000, regs := emberRegs },
    { id := 0x1A, base := 0x00400000, regs := mgfRegs },
    { id := 0x20, base := 0x01000000, inst := 128, stride := 0x4000, regs := laneRegs },
    { id := 0x21, base := 0x01001000, inst := 128, stride := 0x4000, regs := linkRegs },
    { id := 0x22, base := 0x01002000, inst := 128, stride := 0x4000, regs := rinRegs },
    { id := 0x23, base := 0x01003000, inst := 128, stride := 0x4000, regs := oschRegs } ]

/-- Base addresses of the central pages (R535). -/
def GLB : Nat := 0x00010000
def KILN : Nat := 0x00020000
def PWR : Nat := 0x00030000
def TIME : Nat := 0x00040000
def FLT : Nat := 0x00050000
def TALLY : Nat := 0x00060000
def HOSTB (h : Nat) : Nat := 0x00080000 + h * 0x10000
def XLAT (k : Nat) : Nat := 0x00200000 + k * 0x1000
def EPT : Nat := 0x00210000
def MATCH : Nat := 0x00220000
def COLL : Nat := 0x00230000
def CLASP : Nat := 0x00240000
def XPORT : Nat := 0x00250000
def CONG : Nat := 0x00260000
def DMA : Nat := 0x00270000
def RTR : Nat := 0x00280000
def EMBER : Nat := 0x00300000
def MGF : Nat := 0x00400000
def LANE (p : Nat) : Nat := 0x01000000 + p * 0x4000
def LINK (p : Nat) : Nat := 0x01001000 + p * 0x4000
def RIN (p : Nat) : Nat := 0x01002000 + p * 0x4000
def OSCH (p : Nat) : Nat := 0x01003000 + p * 0x4000

/-- The region and instance an offset of the window lies in, with the page of the instance and the
offset in that page. -/
structure Place where
  block : BlockDesc
  inst : Nat
  page : Nat
  off : Nat
deriving DecidableEq, Repr, Inhabited

/-- The place of an offset in one region, if it lies there. -/
def placeIn (b : BlockDesc) (a : Nat) : Option Place :=
  if a < b.base then none
  else
    let r := a - b.base
    let i := if b.stride = 0 then 0 else r / b.stride
    let o := r - i * b.stride
    if i < b.inst ∧ o < b.pages * 0x1000 then some ⟨b, i, o / 0x1000, o % 0x1000⟩ else none

/-- The place of an offset of the CSR window (R535). -/
def place (a : Nat) : Option Place := blocks.findSome? (fun b => placeIn b a)

/-- The base of the page of a place. -/
def Place.pageBase (p : Place) : Nat := p.block.base + p.inst * p.block.stride + p.page * 0x1000

/-- Every register of a block: those every page has and its own. -/
def regsOf (b : BlockDesc) : List RegDesc := if b.id ≥ 0xF0 then [] else commonRegs ++ b.regs

/-- Does a register (or one of its array) hold the word at an offset of its page; the index if so. -/
def RegDesc.indexAt (r : RegDesc) (page off : Nat) : Option Nat :=
  if r.page ≠ page ∨ off < r.off then none
  else
    let w := if r.w64 then max 8 r.stride else r.stride
    let i := (off - r.off) / w
    let o := (off - r.off) % w
    if i < r.n ∧ o < (if r.w64 then 8 else 4) then some i else none

/-- The register at an offset of the CSR window, its index in its array, and the offset of its first
byte. -/
structure RegAt where
  pl : Place
  desc : RegDesc
  idx : Nat
deriving DecidableEq, Repr, Inhabited

/-- The BAR0 offset of the register itself. -/
def RegAt.base (r : RegAt) : Nat := r.pl.pageBase + r.desc.off + r.idx * r.desc.stride

/-- Finds the register a word offset of a page belongs to. -/
def findReg (pl : Place) (off : Nat) : Option RegAt :=
  (regsOf pl.block).findSome? (fun r => (r.indexAt pl.page off).map (fun i => ⟨pl, r, i⟩))

/-- Which alias an offset of a page names (R419). -/
inductive AliasKind where
  | plain | set | clear | toggle
deriving DecidableEq, Repr, Inhabited

/-- The alias and the offset less the alias distance (R419). Only offsets of the register quarter of a
page name registers. -/
def aliasOf (off : Nat) : AliasKind × Nat :=
  if off < 0x400 then (.plain, off) else if off < 0x800 then (.set, off - 0x400)
  else if off < 0xC00 then (.clear, off - 0x800) else (.toggle, off - 0xC00)

/-- The reset value of the register at a BAR0 offset; the few arrays whose value varies by index first
(R538). Registers that show structured state are computed where they are read. -/
def regReset (a : Nat) : Nat :=
  match place a with
  | none => 0
  | some pl =>
    match findReg pl pl.off with
    | none => 0
    | some r =>
      if r.pl.block.id = 0x23 ∧ r.desc.off = 0x040 ∧ r.idx % 4 = 0 then 0 else r.desc.reset

end Sys2Proof.Machine
end

