-- ==== Sys2Proof/Machine/State.lean ====
section
/-! DEFINITION. Everything the spec gives the device to hold, as plain data, and its value after reset. -/

namespace Sys2Proof.Machine

/-! ### Outcomes -/

/-- Why a step can stop with a fault. No command of the table does: every one has an effect in every
state. -/
inductive Fault where
  /-- Raised by nothing. Safe. -/
  | none
deriving DecidableEq, Repr, Inhabited

/-- Why a command can be refused. -/
inductive Refusal where
  /-- A command whose meaning is not written. Safe. -/
  | notModelled (mnemonic : String)
deriving DecidableEq, Repr, Inhabited

/-! ### What leaves the device -/

/-- Everything that leaves the device, in the order in which it leaves. -/
inductive Output where
  /-- A posted write: function, bus address, data, Relaxed Ordering, poisoned (R387, R389). -/
  | hostWrite (f : Func) (addr : Nat) (data : Bytes) (ro poison : Bool)
  /-- A read request with its number (R390). -/
  | hostRead (f : Func) (req addr len : Nat)
  /-- An AtomicOp request (R130): 0 FetchAdd, 1 Swap, 2 CAS, with its operands. -/
  | hostAtomic (f : Func) (req addr op a b : Nat)
  /-- A completion of a register read. -/
  | readData (m : Master) (width value : Nat)
  /-- A request answered with Unsupported Request. -/
  | unsupported (m : Master)
  /-- An error logged by AER of a function (R380): the name of the error. -/
  | aer (f : Func) (what : String)
  /-- A PM_PME message (R386). -/
  | pme (f : Func)
  /-- A bead on a fabric link. -/
  | bead (p : PortNo) (b : Bead)
  /-- A service frame. -/
  | frame (p : PortNo) (fr : Frame)
  /-- A K28.1 time marker (R354). -/
  | marker (p : PortNo)
  /-- A change of a pin: its name, its index and its level. -/
  | pin (name : String) (i level : Nat)
  /-- A frame of the indicator scan bus (R347). -/
  | isb (frame : BitVec 512)
  /-- Bytes sent by the maintenance port (R437). -/
  | maint (bytes : Bytes)
  /-- An MCTP response (R437). -/
  | mctp (bytes : Bytes)
  /-- A time-of-day line (R370). -/
  | tod (line : Bytes)
  /-- A PWR grant of activity (R495). -/
  | grant (blk : SlewBlock) (amount : Nat)
deriving DecidableEq, Repr, Inhabited

/-! ### Host memory -/

/-- Bytes with one poison mark (R389). -/
structure Chunk where
  bytes : Bytes
  poison : Bool := false
deriving DecidableEq, Repr, Inhabited

/-- The page right an access needs (R108, check 7). -/
inductive Right where
  | r | w | a
deriving DecidableEq, Repr, Inhabited

/-- The region right an access needs (R113). -/
inductive RegionRight where
  | any | localWrite | remoteRead | remoteWrite | remoteAtomic | clasp
deriving DecidableEq, Repr, Inhabited

/-- What is done with the translated range: read it, write it, or only find its bus addresses. -/
inductive AccAct where
  | read
  | write (data : List Chunk) (ro : Bool)
  | find
deriving DecidableEq, Repr, Inhabited

/-- The outcome of a translated access: a completion status (0 is OK), the data read and the pieces of
the bus range. -/
structure AccRes where
  status : Nat
  data : List Chunk := []
  pieces : List (Nat × Nat) := []
  info : List Nat := []
deriving DecidableEq, Repr, Inhabited

/-- An admin command being carried out whose reply comes later: its parts, its opcode and its
parameters (R428, R434). -/
structure AdminJob where
  ctx : AdminCtx
  op : Nat
  params : List Nat
deriving DecidableEq, Repr, Inhabited

/-- A strand that the target is working on: the strand, and for an operation addressed to the own DA the
content that it is (R214); the time of its arrival. -/
structure Rx where
  st : Strand
  self : Option Nat := none
  t0 : Nat := 0
deriving DecidableEq, Repr, Inhabited

/-- What proceeds when an access or a read of host memory ends. -/
inductive Use where
  /-- `n` entries of a ring from position `pos`, read for a scan (R72). -/
  | ring (ep : Nat) (recv : Bool) (scan pos n : Nat)
  /-- `n` entries of a DMA channel's ring (R406). -/
  | dmaRing (ch scan pos n : Nat)
  /-- The payload of a content's first transmission. -/
  | pay (cid : Nat)
  /-- The payload of a retransmission (R231). -/
  | repay (da : Nat) (vn : Bool) (bsn : Nat)
  /-- The placement of an arrived strand's payload (R122, R236). -/
  | place (rx : Rx)
  /-- The placement of a SEND or tagged message's strand into the buffer of a posted receive. -/
  | placeRecv (rx : Rx)
  /-- The placement of a READ or rendezvous response (R127). -/
  | placeRsp (op : Nat) (off len : Nat) (rx : Rx)
  /-- The placement of an atomic's result or a grant record (R121). -/
  | placeRes (op : Nat) (rx : Rx)
  /-- The read of the source at the target of a READ_REQ or RNDV_READ. -/
  | source (rx : Rx)
  /-- The translation of an atomic's or lock's word. -/
  | word (rx : Rx)
  /-- The flushing read of a DURABLE message (R122). -/
  | flush (rx : Rx)
  /-- An atomic (R130): the read of the serialised path, a native AtomicOp, the read of the CAS loop and
  the CAS with its failed tries and the word it expects. -/
  | atomSer (rx : Rx) (f : Func) (addr : Nat)
  | atomOp (rx : Rx) (f : Func) (addr : Nat)
  | atomLoad (rx : Rx) (f : Func) (addr tries : Nat)
  | atomCas (rx : Rx) (f : Func) (addr tries old : Nat)
  /-- The read of a lock word for a new record (R132). -/
  | lockWord (rec : Nat)
  /-- The data of an access. -/
  | acc (id : Nat)
  /-- A page-table read of a walk; a memory-region entry. -/
  | walk (k id : Nat)
  | region (slot idx : Nat)
  /-- Head words (R83). -/
  | cqHead (cq : Nat)
  | eqHead (f : Func) (eq : Nat)
  /-- An endpoint's context (R90). -/
  | context (ep : Nat)
  /-- An admin command (R435), and the data a command needs. -/
  | adminFetch (f : Func) (i : Nat)
  | admin (job : AdminJob) (tag : Nat)
  /-- The source and destination of a DMA chunk (R409). -/
  | dmaRead (ch id off len : Nat)
  | dmaWrite (ch id off len : Nat)
  /-- The zero-length read of R411 and R412, and the place of a write-back. -/
  | dmaFlush (ch id : Nat)
  | dmaBack (ch id : Nat)
  /-- Unexpected data read back for a match, and its placement (R158). -/
  | unexp (mid off len : Nat)
  | unexpPlace (mid off len : Nat)
  /-- Collective steps: a range read to be sent, the local operand of a REDUCE, the write of a result to
  USER_DST. -/
  | collSend (inst : Nat) (ops : List Nat) (first count : Nat) (last : Bool)
  | collRead (inst step : Nat) (rx : Rx)
  | collWrite (inst step : Nat) (rx : Rx) (data : List Chunk)
deriving DecidableEq, Repr, Inhabited

/-- A read of host memory: its function, its request parts with the data so far (split as R375 says),
the worst status so far, and what proceeds when all have come. -/
structure HRead where
  f : Func
  parts : List (Nat × Option Chunk)
  status : RdStatus := .ok
  use : Use
deriving DecidableEq, Repr, Inhabited

/-- An outstanding non-posted request (R375): the read it is part of; `sent` is false while the port's
768 requests are outstanding. -/
structure Np where
  rd : Nat
  f : Func
  addr : Nat
  len : Nat
  sent : Bool
  atomic : Option (Nat × Nat × Nat) := none
deriving DecidableEq, Repr, Inhabited

/-- A message signalled interrupt vector (R382 to R384) (PRESUMED, log 10). -/
structure MsixEntry where
  addr : Nat := 0
  data : Nat := 0
  mask : Bool := true
  pend : Bool := false
deriving DecidableEq, Repr, Inhabited

/-- An event waiting for room in its event queue (R85). -/
structure Eqe where
  ts : Nat
  typ : Nat
  noIndex : Bool := false
  source : Nat
  detail : Nat
deriving DecidableEq, Repr, Inhabited

/-- An event queue (R85 to R87). `wr` counts the entries written, `cached` is the head word as last
read. -/
structure Eq where
  base : Nat
  n : Nat
  head : Nat
  vector : Nat
  modCount : Nat
  modTime : Nat
  cached : Nat := 0
  wr : Nat := 0
  since : Nat := 0
  error : Bool := false
  reading : Bool := false
  waiting : List Eqe := []
deriving DecidableEq, Repr, Inhabited

/-- A completion entry (R80), without its PHASE. -/
structure Cqe where
  ts : Nat
  tq : Nat
  status : Nat
  ep : Nat
  dir : Bool
  dataValid : Bool := false
  op : Nat
  ringIndex : Nat := 0
  noIndex : Bool := false
  bytes : Nat := 0
  data : Nat := 0
  srcDa : Nat := 0
deriving DecidableEq, Repr, Inhabited

/-- A completion queue (R79 to R84). -/
structure Cq where
  f : Func
  base : Nat
  n : Nat
  head : Nat
  eq : Option Nat
  armed : Bool
  whole : Bool
  cached : Nat := 0
  wr : Nat := 0
  error : Bool := false
  reading : Bool := false
  waiting : List Cqe := []
deriving DecidableEq, Repr, Inhabited

/-- The admin ring pair of a function (R435): registers, latched copies, counts, and whether it has been enabled
since reset. -/
structure AdmRing where
  cmdBase : Nat := 0
  rspBase : Nat := 0
  cfg : Nat := 4
  en : Bool := false
  lCmd : Nat := 0
  lRsp : Nat := 0
  lSize : Nat := 4
  lVec : Nat := 0
  lVecEn : Bool := false
  error : Bool := false
  cause : Nat := 0
  tail : Nat := 0
  rspHead : Nat := 0
  fetched : Nat := 0
  replied : Nat := 0
  live : Bool := false
deriving DecidableEq, Repr, Inhabited

/-- A function of a host port: the fields of configuration space that the rules use (R376 to R390), its
tables, its rings and the latches of its register reads (PRESUMED, log 10; DESIGN CHOICE, log 11). -/
structure Fn where
  d3 : Bool := false
  bme : Bool := false
  ro : Bool := true
  aop : Bool := false
  msixEn : Bool := false
  fnMask : Bool := false
  pmeEn : Bool := false
  pmeStatus : Bool := false
  bar0 : Nat := 0
  bar2 : Nat := 0
  mps : Nat := 128
  mrrs : Nat := 512
  cto : Nat := 0
  msix : List (Nat × MsixEntry) := []
  eqs : List (Nat × Eq) := []
  adm : AdmRing := {}
  nowHi : Option Nat := none
  nowAux : Option Nat := none
  chainHi : Option (Nat × Nat) := none
  rxEnd : Bool := false
  rxEmpty : Bool := false
deriving DecidableEq, Repr, Inhabited

/-- The causes of host-loss processing (R394). -/
inductive LossCause where
  | presenceLost | linkDown | powerFault | removed | perst | hotReset | contained | flr | vfDisable
deriving DecidableEq, Repr, Inhabited

/-- The scope of host-loss processing (R394); D3hot applies its first steps to one function alone
(R385). -/
inductive LossScope where
  | port | func (fn : Fin 32) | vfs
deriving DecidableEq, Repr, Inhabited

/-- Host-loss processing that is running at a host port (R395, R397). -/
structure Loss where
  scope : LossScope
  cause : LossCause
deriving DecidableEq, Repr, Inhabited

/-- The states of a host slot (R392). -/
inductive SlotState where
  | empty | off | powering | on | removing | fault
deriving DecidableEq, Repr, Inhabited

/-- A token-bucket shaper (R262): its settings, its tokens in units of 1/100,000 byte, and the time they
were last brought up to date. -/
structure Shaper where
  rate : Nat := 0
  burst : Nat := 16
  zero : Bool := false
  tokens : Int := 409600000
  t0 : Nat := 0
deriving DecidableEq, Repr, Inhabited

/-- A strand in an output, landing or injection queue: when it entered, the port it arrived on, whether
every bead is here, whether its cells are of the general pool, whether it was deflected here or is sent
again, the time it was first held in this device, and whether it is timed (R268). -/
structure QEnt where
  st : Strand
  id : Nat := 0
  t0 : Nat := 0
  arr : Option PortNo := none
  whole : Bool := true
  cells : Nat := 0
  general : Bool := true
  defl : Bool := false
  again : Bool := false
  age : Nat := 0
  timed : Bool := false
deriving DecidableEq, Repr, Inhabited

/-- Eight queues with their scheduler (R53, R259 to R262): deficits, active list, the queue being
visited and credited, depth samples and the counter of timed strands. -/
structure Sched where
  qs : List (List QEnt) := [[], [], [], [], [], [], [], []]
  deficit : List Nat := [0, 0, 0, 0, 0, 0, 0, 0]
  active : List Nat := []
  credited : Bool := false
  qshape : List Shaper := [{}, {}, {}, {}, {}, {}, {}, {}]
  pshape : Shaper := {}
  samples : List (List Nat) := [[], [], [], [], [], [], [], []]
  timer : Nat := 0
deriving DecidableEq, Repr, Inhabited

/-- A host port (R373 to R402): its slot, its link, its pins, its next-reset values, its queues, its
shaping groups, its landing thresholds and marking LFSR, its accounts (PRESUMED, log 10; DESIGN CHOICE, log 11). -/
structure HostPort where
  mode : Nat := 0
  splitNext : Option Bool := none
  totalVfs : Nat := 31
  pfVec : Nat := 1024
  vfVec : Nat := 96
  nextCfg : Option (Nat × Nat × Nat) := none
  speed : Nat := 0
  flit : Bool := false
  width : Nat := 0
  dl : Bool := false
  l1 : Bool := false
  perst : Bool := false
  wake : Bool := false
  numVfs : Nat := 0
  vfEn : Bool := false
  vfBar0 : Nat := 0
  vfBar2 : Nat := 0
  slot : SlotState := .empty
  present : Bool := false
  pwrFault : Bool := false
  button : Bool := false
  pwrEn : Bool := false
  attnInd : Nat := 0
  pwrInd : Nat := 0
  auto : Bool := true
  autoPwr : Bool := true
  notify : Nat := 0xFF
  lastCause : Nat := 0
  loss : Option Loss := none
  contained : Bool := false
  removal : Option (AdminCtx × Nat) := none
  land : Sched := {}
  inj : Sched := {}
  injNext : Option QEnt := none
  mark : List (Nat × Nat × Nat) := []
  histSel : Nat := 8
  hist : List Nat := []
  weights : List Nat := [0, 16, 16, 16, 0, 16, 16, 16]
  overhead : Nat := 64
  depth : List (Nat × Nat × Nat) := []
  lfsr : BitVec 16 := 0
  groups : List (Nat × Shaper) := []
  slotInj : Int := 0
  slotDlv : Int := 0
deriving DecidableEq, Repr, Inhabited

/-! ### Event sources -/

/-- A change of a sticky bit that Kiln has not logged yet (R522). -/
structure FltLog where
  source : Nat
  edge : Bool
  forced : Bool
  sev : Nat
deriving DecidableEq, Repr, Inhabited

/-- FLT (R510 to R522): the sticky bits that are set, the severities and routes that differ from their
reset values, the marks for the Kiln log, the Contain occurrences whose action is due, the
objects that met the condition of such a source, the source that began
the fatal path, the records dropped in all and since the last one, the start of the running
second and the records written in it (R482) (DEDUCED, log 21). -/
structure Flt where
  sticky : List Nat := []
  sev : List (Nat × Nat) := []
  route : List (Nat × Nat) := []
  marks : List FltLog := []
  contain : List Nat := []
  met : List (Nat × Nat) := []
  fatal : Option Nat := none
  dropped : Nat := 0
  dropPend : Nat := 0
  logAt : Nat := 0
  logIn : Nat := 0
deriving DecidableEq, Repr, Inhabited

/-! ### Translation -/

/-- A segment register (R96). -/
structure Segment where
  iova : Nat := 0
  size : Nat := 0
  bus : Nat := 0
  v : Bool := false
  r : Bool := false
  w : Bool := false
  a : Bool := false
deriving DecidableEq, Repr, Inhabited

/-- A job slot (R94). -/
structure JobSlot where
  job : Nat
  f : Func
  root : Nat
  mrBase : Nat
  m : Nat
  segs : List Segment := [{}, {}, {}, {}, {}, {}, {}, {}]
deriving DecidableEq, Repr, Inhabited

/-- An ATC entry: a leaf or a CONT group (R101). -/
structure AtcEntry where
  slot : Nat
  iova : Nat
  size : Nat
  bus : Nat
  page : Nat
  cont : Nat
  r : Bool
  w : Bool
  a : Bool
deriving DecidableEq, Repr, Inhabited

/-- A walk-cache entry (R102): the table it names and the rights from the root to it. -/
structure WalkEnt where
  slot : Nat
  level : Nat
  tag : Nat
  table : Nat
  r : Bool
  w : Bool
  a : Bool
deriving DecidableEq, Repr, Inhabited

/-- A walk in progress (R103): the entry of `level` in `table` is being read; `drop` if its result must
not be cached (R111). -/
structure Walk where
  slot : Nat
  page : Nat
  level : Nat
  table : Nat
  r : Bool := true
  w : Bool := true
  a : Bool := true
  drop : Bool := false
  probe : Bool := false
  fail : Nat := 0
deriving DecidableEq, Repr, Inhabited

/-- Where a translated access stands: the memory-region entry is awaited, a walk of its next page is
awaited, a walk could not start yet, or its host reads are outstanding. -/
inductive AccSt where
  | region | walk | blocked | data
deriving DecidableEq, Repr, Inhabited

/-- A translated access (R108). -/
structure Acc where
  slot : Option Nat
  f : Func
  key : Option Nat
  remote : Bool
  iova : Nat
  len : Nat
  right : Right
  region : RegionRight
  act : AccAct
  use : Use
  st : AccSt := .region
  next : Nat := 0
  pieces : List (Nat × Nat) := []
  pages : List Nat := []
  probe : Bool := false
  info : List Nat := []
deriving DecidableEq, Repr, Inhabited

/-- An XLAT instance (R101 to R103). -/
structure Xlat where
  lfsr : BitVec 16 := 0xACE1
  atc : List (Nat × AtcEntry) := []
  wc : List WalkEnt := []
  walks : List (Nat × Walk) := []
  formatFaults : Nat := 0
  notPresent : Nat := 0
deriving DecidableEq, Repr, Inhabited

/-- An invalidation that waits for accesses and walks to end (R111). -/
structure Inval where
  ctx : AdminCtx
  op : Nat
  slot : Nat
  accs : List Nat
  walks : List (Nat × Nat)
  reads : List Nat
deriving DecidableEq, Repr, Inhabited

structure XlatAll where
  slots : List (Nat × JobSlot) := []
  inst : List (Nat × Xlat) := []
  regions : List ((Nat × Nat) × Bytes) := []
  regionReads : List (Nat × Nat) := []
  accs : List (Nat × Acc) := []
  nextAcc : Nat := 0
  nextWalk : Nat := 0
  invals : List Inval := []
deriving DecidableEq, Repr, Inhabited

/-! ### Endpoints -/

/-- An endpoint block's assignment (R56, R92). -/
structure EpBlock where
  f : Func
  job : Nat
  backing : Nat
deriving DecidableEq, Repr, Inhabited

/-- The states of an endpoint (R60). -/
inductive EpState where
  | reset | ready | active | draining | error
deriving DecidableEq, Repr, Inhabited

/-- A scan of a ring (R72): the position being examined, the first position not yet requested, and the
copies that came (none: the read failed). -/
structure Scan where
  no : Nat
  i : Nat
  req : Nat
  copies : List (Nat × Option Bytes) := []
deriving DecidableEq, Repr, Inhabited

/-- A ring (R64, R65). `head` counts entries consumed since the ring entered RESET; its low `n` bits are
the index and the rest the pass. -/
structure Ring where
  base : Nat
  n : Nat
  head : Nat := 0
  scan : Option Scan := none
  scans : Nat := 0
  again : Bool := false
  unowned : Bool := false
deriving DecidableEq, Repr, Inhabited

/-- A posted receive that no message has taken (R60). -/
structure Recv where
  pos : Nat
  desc : Bytes
deriving DecidableEq, Repr, Inhabited

/-- An endpoint (R59 to R61, R92). `accepted`: the operations of its send ring not yet completed, in ring
order; `newRecv`: accepted receive entries not yet posted. -/
structure Ep where
  typ : Nat
  state : EpState := .reset
  send : Ring
  recv : Option Ring
  sCq : Nat
  rCq : Nat
  eq : Nat
  pin : Bool
  poll : Bool
  cause : Nat := 0
  latched : Option Nat := none
  resident : Bool := true
  used : Nat := 0
  fetching : Bool := false
  bellPend : Bool := false
  accepted : List Nat := []
  newRecv : List Recv := []
  recvs : List Recv := []
  group : Nat := 0
deriving DecidableEq, Repr, Inhabited

/-- The miss parking buffer's use of a strand (R90, R156, R191, R237): what it waits for. -/
inductive ParkWhy where
  | context | order | matching | rick | placement
deriving DecidableEq, Repr, Inhabited

structure Parked where
  rx : Rx
  why : ParkWhy
deriving DecidableEq, Repr, Inhabited

structure Ept where
  blocks : List (Nat × EpBlock) := []
  eps : List (Nat × Ep) := []
  cqs : List (Nat × Cq) := []
  parked : List Parked := []
  bellDrops : Nat := 0
  armDrops : Nat := 0
  refusals : Nat := 0
deriving DecidableEq, Repr, Inhabited

/-! ### Operations, Braids and streams -/

/-- Who started an operation: a send ring's entry, a DMA channel's descriptor, a collective step, a
rendezvous pull, a COLL_ARM_FIRE command (DEDUCED, log 48). -/
inductive OpOwner where
  | ring (pos : Nat)
  | dma (ch id : Nat)
  | coll (inst step tag : Nat)
  | pull (mid : Nat)
  | fire (ctx : AdminCtx)
deriving DecidableEq, Repr, Inhabited

/-- Where an operation stands: accepted and not started, waiting for its trigger, begun, its condition
met and waiting its turn (R238). -/
inductive OpState where
  | waiting | running | met
deriving DecidableEq, Repr, Inhabited

/-- One part of an operation: a strand's content or a read's part; how often it was trimmed; whether it waits
for the DMA engine's choice (R416). -/
structure Part where
  off : Nat
  len : Nat
  trims : Nat := 0
  fin : Bool := false
  sent : Bool := false
  held : Bool := false
deriving DecidableEq, Repr, Inhabited

/-- An operation at its initiator (R60, R121). `loc`: the job slot and function of its local buffer where they
are not the endpoint's (R408); `begun`: a strand of it has been sent (R219). -/
structure Op where
  owner : OpOwner
  loc : Option (Option Nat × Func) := none
  ep : Nat
  code : Nat
  desc : Bytes
  ext : Option (Nat × Nat) := none
  dst : Nat
  dstEp : Nat
  ord : Nat
  len : Nat
  msn : Nat := 0
  state : OpState := .waiting
  status : Nat := 0
  trig : Bool := false
  left : Nat := 0
  parts : List Part := []
  rndv : Bool := false
  rtag : Nat := 0
  localStatus : Nat := 0
  poison : Bool := false
  bytes : Option Nat := none
  begun : Bool := false
deriving DecidableEq, Repr, Inhabited

/-- Where a content's payload comes from. -/
inductive PaySrc where
  | none
  | bytes (c : List Chunk)
  | mem (slot : Option Nat) (f : Func) (key : Option Nat) (iova len : Nat)
  /-- Elements of a view or of a staging slot, brought to their wire form by the conversion of a DTYPE and
  MODE (R189, R197). -/
  | elems (slot : Option Nat) (f : Func) (key : Option Nat) (addr len : Nat) (bus : Bool) (dtype mode : Nat)
deriving DecidableEq, Repr, Inhabited

/-- What is sent as one strand, whichever transmission of it (R223): its operation if it has one, its
header template, the host port and endpoint that send it, its payload's source, its counts of refusals
and trims, and whether it is lost and goes as its header alone (R231, R395). -/
structure Content where
  op : Option Nat
  hdr : Hdr
  hp : Nat
  ep : Nat
  src : PaySrc
  nr : Nat := 0
  trims : Nat := 0
  sent : Bool := false
  acked : Bool := false
  refused : Bool := false
  dead : Bool := false
  refuses : Option (Nat × Nat × Bool × Bool) := none
deriving DecidableEq, Repr, Inhabited

/-- A strand that a send half has sent and that is not acknowledged (R231). -/
structure Unacked where
  bsn : Nat
  cid : Nat
  j : Nat := 0
  t0 : Nat
  once : Bool := true
  refused : Bool := false
deriving DecidableEq, Repr, Inhabited

/-- A content ready to be released by the calendar, with its payload (R256); `bsn` if it is a
retransmission. -/
structure Queued where
  cid : Nat
  data : List Chunk
  bsn : Option Nat := none
  headOnly : Bool := false
deriving DecidableEq, Repr, Inhabited

/-- The send half of a Braid with its rate state (R214, R230, R250 to R256). Times in ns; `due` in
1/1000 ns. -/
structure SendHalf where
  next : Nat := 0
  unacked : List Unacked := []
  queue : List Queued := []
  srtt : Option Nat := none
  rate : Nat := 1000
  alpha : Nat := 1024
  rBefore : Nat := 1000
  lastCut : Int := -1000000000
  lastEvent : Int := -1000000000
  floorRaised : Bool := false
  floorSince : Option Nat := none
  aiAt : Nat := 0
  due : Nat := 0
deriving DecidableEq, Repr, Inhabited

/-- The receive half of a Braid (R215, R224, R227): `bits` are the settled BSNs above BASE, `open` the
accepted ones not settled. -/
structure RecvHalf where
  synced : Bool := false
  base : Nat := 0
  bits : List Nat := []
  held : List Nat := []
  window : Bool := false
  sinceAck : Nat := 0
  ece : Nat := 0
  last : Nat := 0
deriving DecidableEq, Repr, Inhabited

/-- The states of a peer entry (R215). -/
inductive PeerState where
  | closed | opened | unreachable
deriving DecidableEq, Repr, Inhabited

/-- A peer entry of the Braid table (R214 to R217). -/
structure Peer where
  state : PeerState := .closed
  txGen : Option Nat := none
  rxGen : Nat := 0
  adopted : Option Nat := none
  req : SendHalf := {}
  rsp : SendHalf := {}
  rxReq : RecvHalf := {}
  rxRsp : RecvHalf := {}
deriving DecidableEq, Repr, Inhabited

/-- A sending stream record (R233): next MSN, ENTROPY, the operations not yet completed in MSN order, the
messages not yet acknowledged. -/
structure SendRec where
  next : Nat := 0
  entropy : Nat := 0
  order : List Nat := []
  unacked : List Nat := []
  used : Nat := 0
deriving DecidableEq, Repr, Inhabited

/-- A message in progress at the receiver (R234, R235, R240): the header of its first strand, bytes
placed, its length once known, whether it failed, what it took, for IN_ORDER the next offset, the final
strand of a DURABLE message with its flushing read, and requests that wait for their turn. -/
structure RxMsg where
  hdr : Hdr
  got : Nat := 0
  total : Option Nat := none
  failed : Bool := false
  poison : Bool := false
  recv : Option Recv := none
  tagged : Option Nat := none
  nextOff : Nat := 0
  status : Nat := 0
  last : Option Rx := none
  flushing : Bool := false
  flushed : Bool := false
  reqs : List Rx := []
deriving DecidableEq, Repr, Inhabited

/-- A receiving stream record (R234). -/
structure RecvRec where
  next : Nat
  msgs : List (Nat × RxMsg) := []
  used : Nat := 0
  unord : Bool := false
deriving DecidableEq, Repr, Inhabited

/-- A request whose result the target retains until its response is acknowledged (R131). -/
structure Retained where
  peer : Nat
  vn : Bool
  bsn : Nat
  cid : Nat
deriving DecidableEq, Repr, Inhabited

structure Xport where
  peers : List (Nat × Peer) := []
  sendRecs : List (StreamKey × SendRec) := []
  recvRecs : List (StreamKey × RecvRec) := []
  ops : List (Nat × Op) := []
  nextOp : Nat := 0
  contents : List (Nat × Content) := []
  nextCid : Nat := 0
  cal : List (Nat × Bool) := []
  backoff : List Nat := []
  trimmed : List Nat := []
  held : List Queued := []
  retained : List Retained := []
  incarnation : Nat := 0
  malformed : Nat := 0
  genDrops : Nat := 0
  discards : Nat := 0
  failedMsgs : Nat := 0
deriving DecidableEq, Repr, Inhabited

/-! ### Atomics and Clasp locks -/

/-- A word of host memory that a serialised atomic or a lock record is reading, with what waits for it in
the order of arrival (R130). -/
inductive BusyOp where
  /-- What proceeds when an access is translated: an atomic or a placement. -/
  | acc (use : Use) (res : AccRes)
  /-- A write of a lock word with the responses that follow it (R134): request header, OP, OPW. -/
  | lock (f : Func) (word : Nat) (sends : List (Hdr × Nat × Nat))
deriving DecidableEq, Repr, Inhabited

structure BusyWord where
  hp : Nat
  addr : Nat
  waiting : List BusyOp := []
deriving DecidableEq, Repr, Inhabited

/-- The states of a lock (R132). -/
inductive LockState where
  | free | held | abandoned | forced
deriving DecidableEq, Repr, Inhabited

/-- A holder or waiter of a lock: device, endpoint, priority, and the request whose response it is due
(R132, R137). -/
structure Claim where
  da : Nat
  ep : Nat
  prio : Nat
  hdr : Hdr
deriving DecidableEq, Repr, Inhabited

/-- A lock record (R132). `reading` while its word is being read. -/
structure LockRec where
  hp : Nat
  addr : Nat
  f : Func
  domain : Nat
  state : LockState := .free
  holder : Option Claim := none
  seq : Nat := 0
  reported : Nat := 0
  queue : List Claim := []
  reading : Bool := true
  pend : List Rx := []
deriving DecidableEq, Repr, Inhabited

/-- A lock domain (R135). -/
structure LockDomain where
  slot : Nat
  ranked : Bool
  members : Nat
deriving DecidableEq, Repr, Inhabited

/-- The lock table, the domains, the words being worked on, and the locks that endpoints of this device
hold elsewhere: endpoint, home device, record. -/
structure Clasp where
  recs : List (Nat × LockRec) := []
  domains : List (Nat × LockDomain) := []
  busy : List BusyWord := []
  held : List (Nat × Nat × Nat) := []
deriving DecidableEq, Repr, Inhabited

/-! ### Tag matching -/

/-- A tagged message at its receiver, from its first accepted strand to its receive's completion (R154,
R158, R160): the first header, the length, the reservation, the pieces held in it, the receive that took
it, the pieces being copied, whether its stream has released it, and its spill slot. -/
structure TagMsg where
  ep : Nat
  hdr : Hdr
  rndv : Bool
  len : Nat
  resv : Option (Nat × Nat) := none
  held : List (Nat × Nat) := []
  recv : Option Recv := none
  copies : Nat := 0
  placed : Nat := 0
  released : Bool := false
  poison : Bool := false
  status : Nat := 0
  pulled : Bool := false
  spilled : Option Nat := none
deriving DecidableEq, Repr, Inhabited

/-- A posted tagged receive (R152). -/
structure Posted where
  seq : Nat
  recv : Recv
  spilled : Option Nat := none
deriving DecidableEq, Repr, Inhabited

/-- A matching context (R150). -/
structure MCtx where
  recBase : Nat
  uBase : Nat
  b : Nat
  spBase : Nat
  s : Nat
  posted : List Posted := []
  unexp : List Nat := []
  seq : Nat := 0
  spilled : Bool := false
  full : Bool := false
deriving DecidableEq, Repr, Inhabited

structure MatchAll where
  ctxs : List (Nat × MCtx) := []
  msgs : List (Nat × TagMsg) := []
  nextMid : Nat := 0
deriving DecidableEq, Repr, Inhabited

/-! ### Collectives -/

/-- A collective group (R172 to R174): `table` is the member table as read; `counts` the INSTANCE counts
and `aborts` the last abort record (cause, step, rank, INSTANCE) of its local members by endpoint. -/
structure Group where
  key : Nat
  slot : Nat
  f : Func
  n : Nat
  scratch : Nat
  size : Nat
  table : List (Nat × Nat)
  counts : List (Nat × Nat) := []
  aborts : List (Nat × (Nat × Nat × Nat × Nat)) := []
deriving DecidableEq, Repr, Inhabited

/-- A Rick (R186): the fields of its header and its steps. -/
structure Rick where
  slots : Nat
  flags : Nat
  minM : Nat
  maxM : Nat
  build : Nat
  crc : Nat
  steps : List Nat
deriving DecidableEq, Repr, Inhabited

/-- The states of an instance (R178). -/
inductive InstState where
  | waiting | running | releasing | aborted
deriving DecidableEq, Repr, Inhabited

/-- A step that is not complete (R184): its number in the order of issue, its index in the Rick, its peer
ranks, the element ranges of its chunks, the wire bytes still to arrive and still to be placed, whether an
empty range still awaits its one strand, whether it is held, its sends under way, the strands that wait
for it and those it is to send on. -/
structure CStep where
  no : Nat
  ix : Nat
  peers : List Nat
  peer2 : Option Nat := none
  segs : List (Nat × Nat)
  left : Nat
  todo : Nat
  need : Bool := false
  held : Bool := true
  ops : List Nat := []
  wait : List Rx := []
  fwd : List Rx := []
deriving DecidableEq, Repr, Inhabited

/-- An instance of a collective (R178). `red`: REDUCE strands in the order of their arrival, the first of
them under way. -/
structure Inst where
  group : Nat
  ep : Nat
  rank : Nat
  op : Nat
  num : Nat
  rick : Nat
  state : InstState := .waiting
  pc : Nat := 0
  iters : List (Nat × Nat) := []
  steps : List CStep := []
  nextNo : Nat := 0
  v0 : Nat := 0
  progress : Nat := 0
  poison : Bool := false
  status : Nat := 0
  red : List (Nat × Rx) := []
deriving DecidableEq, Repr, Inhabited

/-- A range of completion counters (R203, R205). -/
structure CntRange where
  count : Nat
  slot : Nat
  f : Func
  mirror : Option Nat
deriving DecidableEq, Repr, Inhabited

/-- A paced release (R210, R211): its start, the instances whose delivery waits and the host ports and
PREWARN outputs whose times are still to come. -/
structure Pace where
  t0 : Nat
  insts : List Nat
  ports : List Nat
  assertLeft : List Nat
  deassertLeft : List Nat
deriving DecidableEq, Repr, Inhabited

structure CollAll where
  groups : List (Nat × Group) := []
  ricks : List (Nat × Rick) := []
  insts : List (Nat × Inst) := []
  nextInst : Nat := 0
  ranges : List (Nat × CntRange) := []
  values : List (Nat × Nat) := []
  armed : List (Nat × Nat) := []
  binds : List (Nat × Nat) := []
  pace : Option Pace := none
  prewarn : Nat := 0
  fireRefused : Nat := 0
deriving DecidableEq, Repr, Inhabited

/-- The router core's own state (R272, R275, R276, R297): the device address, route entries keyed by version
(2,048 or 64 entries each), what is loaded, the injection epoch, cells in use, the core landing queue, the
loads that run, whether Kiln enables RTR at the next DEVICE_DA_SET, and the next number of a strand in the
Hearth. -/
structure Rtr where
  da : Nat := 0
  daValid : Bool := false
  group : List (Nat × Nat) := []
  member : List (Nat × Nat) := []
  loadedA : Bool := false
  loadedB : Bool := false
  inj : Bool := false
  generalUsed : Nat := 0
  reserveUsed : Nat := 0
  peak : Nat := 0
  core : List (List QEnt) := [[], [], [], [], [], [], [], []]
  loading : List Nat := []
  autoEnable : Bool := false
  nextId : Nat := 1
deriving DecidableEq, Repr, Inhabited

/-! ### Fabric ports -/

/-- A strand that is arriving on a fabric port (R303): its number in the Hearth, payload beads seen, whether
its content is kept, whether it will be accepted for sequence, whether a bead of it was stomped. -/
structure RxCur where
  id : Nat := 0
  n : Nat := 0
  keep : Bool := false
  ok : Bool := false
  stomped : Bool := false
deriving DecidableEq, Repr, Inhabited

/-- A strand in the replay buffer (R301): its LSN, the strand as it was queued with the beads sent so far,
its header as sent, when its last bead was first sent, whether it was replayed, whether its last bead has
been sent. -/
structure RepEnt where
  lsn : Nat
  ent : QEnt
  hdr : Hdr
  tLast : Nat := 0
  replayed : Bool := false
  closed : Bool := false
deriving DecidableEq, Repr, Inhabited

/-- A negotiated change (R338 to R340): its KIND, the lane a NARROW keeps, its SEQ, whether this end proposed
it, whether it was accepted, and the LANE_RETRAIN that asked for it. -/
structure Nego where
  kind : Nat
  lane : Nat := 0
  seq : Nat
  mine : Bool
  accepted : Bool := false
  cmd : Option AdminCtx := none
deriving DecidableEq, Repr, Inhabited

/-- Training history of a port (R337): neighbour DA, port and SERIAL, baud, and per lane the far taps and
precoding that the receiver asked for. -/
structure TrainHist where
  da : Nat
  port : Nat
  serial : Nat
  half : Bool
  taps : List (List Int)
  pre : List Bool
deriving DecidableEq, Repr, Inhabited

/-- One lane's end of a port (R336, R342): transmit taps and precoding; the last request applied and its
answer; the request outstanding with its sends; the far taps as last answered and the taps a warm start
asks for; readiness; pattern checker (DESIGN CHOICE, log 56; DESIGN CHOICE, log 88). -/
structure LaneEnd where
  taps : List Int := [0, 0, 64, 0, 0, 0]
  pre : Bool := false
  lastSeq : Option Nat := none
  lastRsp : Bytes := []
  req : Option Bytes := none
  sends : Nat := 0
  reqSeq : Nat := 0
  far : List Int := []
  farPre : Bool := false
  want : Option (List Int × Bool) := none
  ready : Bool := false
  locked : Bool := false
  chkLock : Bool := false
  errors : Nat := 0
  bits : Nat := 0
deriving DecidableEq, Repr, Inhabited

/-- Why a port in DOWN does not start bring-up (R314, R335, R337). -/
inductive PortHold where
  | none | tenMs | oneS | dieLink
deriving DecidableEq, Repr, Inhabited

/-- The lane part of a port: phase (R333), lanes in use, baud, what the peer's frames say, the test modes, the
cage (R348) (DESIGN CHOICE, log 56). -/
structure Lane where
  phase : Nat := 0
  lanes : Nat := 0
  half : Bool := false
  warm : Bool := false
  clkOk : Bool := false
  svcSync : Bool := false
  ends : List LaneEnd := [{}, {}]
  svcChk : Bool := false
  svcErrors : Nat := 0
  svcBits : Nat := 0
  peerPhase : Nat := 0
  peerRxr : Nat := 0
  peerHalfOk : Bool := false
  peerTwo : Bool := true
  peerSerial : Nat := 0
  failedFull : Bool := false
  hold : PortHold := .none
  nego : Option Nego := none
  again : List Nego := []
  negSeq : Nat := 0
  onePeer : Bool := false
  coldNext : Bool := false
  loopback : Nat := 0
  loopMask : Nat := 0
  remoteAllow : Bool := false
  remoteLooped : Bool := false
  gen : Nat := 0
  chk : Nat := 0
  patMask : Nat := 0
  user : Nat := 0
  inject : List (Nat × Nat × Nat) := []
  score : List Nat := [0, 0]
  fclk : Option Int := none
  cageIn : List Nat := []
  present : Bool := false
  fault : Bool := false
  button : Bool := false
  faultLock : Bool := false
  pwrEn : Bool := false
  indA : Nat := 0
  indB : Nat := 0
  auto : Bool := true
  autoPwr : Bool := true
  isbOk : Bool := true
deriving DecidableEq, Repr, Inhabited

/-- The link layer of a port (R300 to R316). -/
structure Link where
  nextLsn : Nat := 0
  una : Nat := 0
  rep : List RepEnt := []
  expect : Nat := 0
  discard : Bool := false
  streak : Nat := 0
  rtt : Nat := 0
  rttSeen : Bool := false
  rttNow : Option Nat := none
  rttAny : Option Nat := none
  accCount : Nat := 0
  ackOn : Bool := false
  lastAcc : Option Nat := none
  cur : Option RxCur := none
  txOpen : Option Nat := none
  replaying : Bool := false
  replayDue : Bool := false
  firstBeads : Nat := 0
  replayedBeads : Nat := 0
  rate : Nat := 0
  lowRuns : Nat := 0
  highRuns : Nat := 0
  narrowed : Bool := false
  cause : Nat := 0
  slot : Int := 0
deriving DecidableEq, Repr, Inhabited

/-- A port's part of fabric time (R354 to R356): MARK_SEQ, the departures of its markers with their sequence
numbers, what the peer's frames say, the latest peer marker's arrival, a sample that awaits t3, D with its counts, theta, cable ASYM in
ps, the neighbour's TQ and its announcement with the time of its arrival. Times are in 2^-16 ns (DESIGN CHOICE, log 88). -/
structure PTime where
  seq : Nat := 0
  t1 : Option (Nat × Int) := none
  t3 : Option (Nat × Int) := none
  t4 : Option (Nat × Int) := none
  t2 : Option (Int × Int × Nat × Int) := none
  rxSeq : Nat := 0
  d : Option Int := none
  accepted : Nat := 0
  discarded : Nat := 0
  runDiscards : Nat := 0
  lastD : Int := 0
  lastTheta : Int := 0
  asym : Int := 0
  tq : Nat := 0
  offer : Option (Nat × Nat × Nat × Nat × Nat) := none
deriving DecidableEq, Repr, Inhabited

/-- A fabric port: routing state and hints (R278, R280), neighbour, when it entered service, output queues, the
strand the scheduler chose, marking LFSR (R248), link layer, lanes and time. -/
structure Port where
  role : Nat := 2
  roleNext : Nat := 2
  state : Nat := 0
  dimmed : Bool := false
  hintReq : Nat := 15
  hintRsp : Nat := 15
  neighbour : Option (Nat × Nat) := none
  inSince : Nat := 0
  out : Sched := {}
  txNext : Option QEnt := none
  lfsr : BitVec 16 := 0
  link : Link := {}
  lane : Lane := {}
  pt : PTime := {}
deriving DecidableEq, Repr, Inhabited

/-! ### Fabric time -/

/-- The states of fabric time (R353). -/
inductive TimeState where
  | freeRun | locking | locked | holdover
deriving DecidableEq, Repr, Inhabited

/-- A time mirror (R367): its function, bus address, PERIOD in µs, and the next SEQ. -/
structure Mirror where
  f : Func
  addr : Nat
  period : Nat
  seq : Nat := 1
deriving DecidableEq, Repr, Inhabited

/-- Fabric time (R351 to R370): NS and FRAC, the correction in hand (2^-16 ns to add over 65,536 ticks, the
ticks left, and what does not yet make a unit), the state, the grandmaster, the clock parents with the
frequency offset held, the pulse-per-second settings, the mirrors (DESIGN CHOICE, log 88). -/
structure TimeSt where
  ns : Nat := 0
  frac : Nat := 0
  corr : Int := 0
  corrLeft : Nat := 0
  acc : Int := 0
  state : TimeState := .freeRun
  isGm : Bool := false
  gmDa : Nat := 0
  gmClass : Nat := 2
  gmPrio : Nat := 255
  steps : Nat := 0
  list : List Nat := []
  elected : List Nat := []
  parent : Option Nat := none
  heldPpm : Int := 0
  parentTq : Nat := 0
  goods : Nat := 0
  bads : Nat := 0
  theta : Int := 0
  holdSince : Nat := 0
  stepCount : Nat := 0
  utc : Nat := 0
  outDelay : Nat := 0
  inDelay : Nat := 0
  ppsLast : Option Nat := none
  ppsIgnored : Nat := 0
  ppsSeen : Bool := false
  ppsFall : Option Nat := none
  freqPpb : Int := 0
  mirrors : List (Nat × Mirror) := []
deriving DecidableEq, Repr, Inhabited

/-- The indicator scan bus (R347): the frame last shifted out and the scans so far. -/
structure Isb where
  last : BitVec 512 := 0
  scans : Nat := 0
deriving DecidableEq, Repr, Inhabited

/-- A record kept with PERSIST (R482): its values and the time it was last written. -/
structure Record where
  vals : List Nat
  wrote : Nat
deriving DecidableEq, Repr, Inhabited

/-- What resets keep: the bytes of the Peat store and of the flash that differ from zero, the records of
IDENTITY, CONFIG and TRAINING, whose byte layout the spec does not give (R472, R475, R477, R480 to R483, R216),
page writes not yet in WEAR, the journal's entries from the newest on with their number, first page and pages,
its next page, the number of its last entry, whether this life has written one, the number of the last log
record and per source that of its newest one (DESIGN CHOICE, log 9; DESIGN CHOICE, log 12). -/
structure Nv where
  peat : List Host.Cell := []
  flash : List Host.Cell := []
  serial : Nat := 0
  keyHash : Bytes := []
  written : Bool := false
  lc : Nat := 0
  wipe : Bool := false
  preferred : Bool := false
  trial : Nat := 0
  personality : Nat := 0
  minSecurity : Nat := 0
  bootMode : Nat := 1
  incarnation : Nat := 0
  recs : List (Nat × Record) := []
  hist : List (Nat × TrainHist) := []
  wear : List (Nat × Nat) := []
  journal : List (Nat × Nat × Nat) := []
  jNext : Nat := 0
  jSeq : Nat := 0
  jLive : Bool := false
  logSeq : Nat := 0
  newest : List (Nat × Nat) := []
deriving DecidableEq, Repr, Inhabited

/-! ### The DMA engine -/

/-- A descriptor that a channel has accepted (R409 to R413): its ring position, its bytes, whether it has
begun, bytes handed to chunks, chunks under way, its status, its remote operation, the read that flushes its
destination (0 not issued, 1 awaited, 2 done), whether its data is over, whether its write-back is under way. -/
structure DmaJob where
  id : Nat
  pos : Nat
  desc : Bytes
  begun : Bool := false
  next : Nat := 0
  out : Nat := 0
  status : Nat := 0
  poison : Bool := false
  op : Option Nat := none
  flush : Nat := 0
  ended : Bool := false
  backing : Bool := false
deriving DecidableEq, Repr, Inhabited

/-- A DMA channel (R404, R405): `head` counts the descriptors begun and `tail` those accepted since its
creation or reset; `stop` is the DMA_CH_STOP that waits. -/
structure DmaCh where
  f : Func
  slotA : Nat
  slotB : Option Nat
  ring : Nat
  n : Nat
  ep : Option Nat
  ord : Nat
  tc : Nat
  prio : Nat
  vector : Option Nat
  half : Bool
  full : Bool
  err : Bool
  state : Nat := 0
  cause : Nat := 0
  head : Nat := 0
  tail : Nat := 0
  scan : Option Scan := none
  scans : Nat := 0
  again : Bool := false
  targets : List (Nat × (Nat × Nat × Nat)) := []
  jobs : List DmaJob := []
  nextId : Nat := 0
  stop : Option AdminCtx := none
deriving DecidableEq, Repr, Inhabited

/-- The DMA engine: its channels and, per priority level, the channel served last (R416). -/
structure Dma where
  chs : List (Nat × DmaCh) := []
  last : List Nat := [63, 63, 63, 63]
deriving DecidableEq, Repr, Inhabited

/-! ### Admin paths, mailbox, management FIFOs -/

/-- A fetched command that has not begun (R433): its path, its ring position, its bytes. -/
structure Fetched where
  path : Path
  index : Nat
  bytes : Bytes
deriving DecidableEq, Repr, Inhabited

/-- The admin commands of every path: fetched, in progress with a reply to come, and per path the commands
replied and of these those not SUCCESS (R440). -/
structure Adm where
  fetched : List Fetched := []
  running : List AdminJob := []
  stats : List (Path × (Nat × Nat)) := []
deriving DecidableEq, Repr, Inhabited

/-- The maintenance port and the mailbox (R437 to R439, R443): bytes of an unfinished request, latches of
register reads, MBX.CMD, MBX.RSP, BUSY, DONE, MBX.DATA, ignored GOs, the header of the remote request
that is being carried out, whether the port's stalled read came by MCTP (none: by a command of its own), and the requests that
wait behind it (DESIGN CHOICE, log 12; DESIGN CHOICE, log 88). -/
structure Mnt where
  part : Bytes := []
  nowHi : Option Nat := none
  nowAux : Option Nat := none
  chainHi : Option (Nat × Nat) := none
  rxEnd : Bool := false
  rxEmpty : Bool := false
  cmd : Bytes := List.replicate 64 0
  rsp : Bytes := List.replicate 32 0
  busy : Bool := false
  done : Bool := false
  data : List Host.Cell := []
  ignored : Nat := 0
  remote : Option Hdr := none
  stall : Option Bool := none
  waiting : List (Bool × Bytes) := []
deriving DecidableEq, Repr, Inhabited

/-- The management FIFOs (R441 to R446): received words with their END marks, whether the packet at the head
has been partly read, the flush marks with the words present at the flush, the words of an unfinished packet
to be sent and whether one was discarded, and the reads that wait. -/
structure Mgf where
  rx : List (BitVec 64 × Bool) := []
  partly : Bool := false
  flushRx : Option Nat := none
  flushTx : Bool := false
  tx : List (BitVec 64) := []
  txBad : Bool := false
  stalled : List Master := []
deriving DecidableEq, Repr, Inhabited

/-! ### Ember -/

/-- The clusters (R448 to R459): those FENCED with their causes, engine masks that differ from 0xFF, the two
versions of the stop-mapping table where they differ from the identity, INJ, SWITCHING, the fenced clusters
whose takeover waits, and whether verified firmware is loaded. -/
structure Ember where
  fenced : List (Nat × Nat) := []
  engines : List (Nat × Nat) := []
  mapA : List (Nat × Nat) := []
  mapB : List (Nat × Nat) := []
  inj : Bool := false
  switching : Bool := false
  queue : List Nat := []
  loaded : Bool := false
deriving DecidableEq, Repr, Inhabited

/-! ### Power -/

/-- A rail's regulator (R494): its PMBus address and page, its last readings, polls in a row outside the
DC range, and failed transactions in a row (DESIGN CHOICE, log 88). -/
structure Rail where
  addr : Option (Nat × Nat) := none
  mv : Nat := 0
  ma : Nat := 0
  celsius : Int := 0
  fault : Bool := false
  bads : Nat := 0
  fails : Nat := 0
deriving DecidableEq, Repr, Inhabited

/-- The power manager (R493 to R502): sensor readings, rails, the time clock stretching began and its cycles not
yet counted (1/15), ns in a throttle stage not yet counted, the present estimate of activity in mA, the grants of
the last 100 ns with their times, what is asked for and not granted, whether something was held in this 100 ns,
the activity granted to Ember, reduction units, DMA and host injection, the forced PREWARN outputs, THERMTRIP_N,
the voltage of VDD_CORE in mV as last commanded (DESIGN CHOICE, log 88). -/
structure Pwr where
  temps : List Int := List.replicate 96 0
  rails : List Rail := [{}, {}, {}, {}, {}, {}]
  droopSince : Option Nat := none
  droopAcc : Nat := 0
  throttled : Nat := 0
  estimate : Int := 0
  grants : List (Nat × Bool × Nat) := []
  held : List (SlewBlock × Bool × Nat) := []
  heldSeen : Bool := false
  active : List Nat := [0, 0, 0, 0]
  forced : Nat := 0
  trip : Bool := false
  vcore : Nat := 800
deriving DecidableEq, Repr, Inhabited

/-! ### Boot and the fatal path -/

/-- Boot, power failure and clocks (R17, R461 to R473, R484 to R488, R520): the latched straps, the
device-level reset that is due and the last one (their KIND), PFAIL# taken, POWER_GOOD, the references present, whether a verified
image runs with its versions, the slots as last verified (failure code and versions) (DESIGN CHOICE, log 8). -/
structure Boot where
  straps : BitVec 4 := 0
  due : Option Nat := none
  cause : Nat := 1
  pfail : Bool := false
  power : Bool := true
  refA : Bool := true
  refB : Bool := true
  image : Bool := false
  versions : List Nat := [0, 0, 0]
  verified : List (Nat × (Nat × List Nat)) := []
deriving DecidableEq, Repr, Inhabited

/-- TALLY (R527 to R530): its settings, the number of the next snapshot, ticks skipped since the last one
delivered, until when the last one is being written, and the TALLY_STOP that waits for that. -/
structure Tally where
  f : Func := default
  ring : Nat := 0
  m : Nat := 0
  period : Nat := 0
  groups : Nat := 0
  pmask : Nat := 0
  hmask : Nat := 0
  skipped : Nat := 0
  busyTo : Nat := 0
  stop : Option AdminCtx := none
deriving DecidableEq, Repr, Inhabited

/-! ### Work in hand -/

/-- What a command leaves to be done before it ends, taken in order: a finished access or read, a
finished walk or entry, a FAULT event to post, an endpoint to stop. -/
inductive Work where
  | accDone (use : Use) (res : AccRes)
  | readDone (rd : Nat)
  | walkDone (k id : Nat)
  | invalDone (ctx : AdminCtx) (op : Nat)
  | faultEvent (source sev : Nat) (forced : Bool)
  | fatal (source : Nat)
  | epError (ep cause : Nat)
  | opMet (op : Nat)
  | settleStrand (rx : Rx)
  | unpark (ep : Nat)
  | release (key : StreamKey) (msn : Nat) (m : RxMsg)
  | request (rx : Rx)
  | arrive (rx : Rx)
  | refusedSelf (cid cause status : Nat)
  | unreachable (da : Nat)
  | restart (da : Nat) (adopt : Bool)
  | counter (idx inc : Nat)
  | busyOp (hp addr : Nat) (o : BusyOp)
  | collGo (inst : Nat)
  | ringGo (ep : Nat)
  | reply (ctx : AdminCtx) (op status reason : Nat) (data : Bytes)
deriving DecidableEq, Repr, Inhabited

/-- The device. -/
structure Dev where
  /-- The model's own clock, in ns, against which the rules' times are measured. -/
  clk : Nat := 0
  /-- The model's own count of values it has left free. -/
  free : Nat := 0
  out : List Output := []
  work : List Work := []
  regs : List (Nat × BitVec 64) := []
  wraps : List Nat := []
  chains : List Nat := []
  np : List (Nat × Np) := []
  nextReq : Nat := 0
  reads : List (Nat × HRead) := []
  nextRead : Nat := 0
  hosts : List (Nat × HostPort) := []
  fns : List (Nat × Fn) := []
  flt : Flt := {}
  xl : XlatAll := {}
  ept : Ept := {}
  xp : Xport := {}
  clasp : Clasp := {}
  mt : MatchAll := {}
  coll : CollAll := {}
  rtr : Rtr := {}
  ports : List (Nat × Port) := []
  time : TimeSt := {}
  isb : Isb := {}
  nv : Nv := {}
  dma : Dma := {}
  adm : Adm := {}
  mnt : Mnt := {}
  mgf : Mgf := {}
  ember : Ember := {}
  pwr : Pwr := {}
  boot : Boot := {}
  tally : Tally := {}
deriving DecidableEq, Repr, Inhabited

/-- The state: the device and the commands that wait, first in first out. -/
structure State where
  dev : Dev
  pending : List Instr
deriving DecidableEq, Repr, Inhabited

/-- The host ports of the controllers, by which of them are in split mode (R373, R402), with their marking LFSRs
(R248) (DESIGN CHOICE, log 8). -/
def hostsFor (split : Nat → Bool) : List (Nat × HostPort) :=
  (List.range 8).map (fun h =>
    (h, { mode := if split (h / 2) then 1 else if h % 2 = 0 then 2 else 0, lfsr := 0xACE1#16 ^^^ BitVec.ofNat 16 (0x80 + h) }))

/-- The device after a cold reset with every HOST_SPLIT strap low (DESIGN CHOICE, log 8). -/
def Dev.reset : Dev := { hosts := hostsFor (fun _ => false) }

/-- The state right after reset: no command waits (DESIGN CHOICE, log 2; DESIGN CHOICE, log 8; DESIGN CHOICE, log 9). -/
def State.reset : State := { dev := Dev.reset, pending := [] }

end Sys2Proof.Machine
end

