-- ==== Sys2Proof/Machine/Dev.lean ====
section
/-! DEFINITION. The accessors of the device: every read and write of a register, a function, a host port
or the model's own fields goes through these. -/

namespace Sys2Proof.Machine

/-- Appends something that leaves the device (DESIGN CHOICE, log 3). -/
def emit (o : Output) (d : Dev) : Dev := { d with out := d.out ++ [o] }

/-- Appends work to be done before the command ends. -/
def push (w : Work) (d : Dev) : Dev := { d with work := d.work ++ [w] }

/-- A value that the spec leaves open, and the device with the count advanced (DESIGN CHOICE, log 5). -/
def fresh (d : Dev) : Nat × Dev := (Config.freeNat d.free, { d with free := d.free + 1 })

/-- A free choice of one element of a list (DESIGN CHOICE, log 5). -/
def pickFree {α : Type} (l : List α) (d : Dev) : Option α × Dev :=
  let (n, d) := fresh d
  (l[n % l.length]?, d)

/-- A register of the plain store (R538): its value, or its reset value. -/
def reg (d : Dev) (a : Nat) : BitVec 64 := (mget d.regs a).getD (BitVec.ofNat 64 (regReset a))

/-- Sets a register of the plain store. -/
def setReg (a : Nat) (v : BitVec 64) (d : Dev) : Dev := { d with regs := mset d.regs a v }

/-- A field of a register. -/
def fld (d : Dev) (a lo w : Nat) : Nat := bitsOf (reg d a).toNat lo w

/-- Sets a field of a register. -/
def setFld (a lo w v : Nat) (d : Dev) : Dev :=
  let old := (reg d a).toNat
  setReg a (BitVec.ofNat 64 (old - (bitsOf old lo w) <<< lo + (v % 2 ^ w) <<< lo)) d

/-- BLOCK.CTRL.EN of the page at `base` (R424). -/
def enabled (d : Dev) (base : Nat) : Bool := (reg d base).getLsbD 0

/-- Sets BLOCK.CTRL.EN. -/
def setEn (base : Nat) (on : Bool) (d : Dev) : Dev := setFld base 0 1 (b2n on) d

/-- The key of a function. -/
def fkey (f : Func) : Nat := f.hp.val * 32 + f.fn.val

/-- The PF of a host port. -/
def pf (h : HostNo) : Func := ⟨h, 0⟩

/-- A host port number from a number below 8. -/
def hostNo (n : Nat) : HostNo := ⟨n % 8, Nat.mod_lt _ (by decide)⟩

/-- A function number from a number below 32. -/
def fnNo (n : Nat) : Fin 32 := ⟨n % 32, Nat.mod_lt _ (by decide)⟩

/-- A port number from a number below 128. -/
def portNo (n : Nat) : PortNo := ⟨n % 128, Nat.mod_lt _ (by decide)⟩

/-- A function of a host port. -/
def mkFunc (h v : Nat) : Func := ⟨hostNo h, fnNo v⟩

/-- A host port. -/
def host (d : Dev) (h : Nat) : HostPort := (mget d.hosts h).getD default

/-- Changes a host port. -/
def updHost (h : Nat) (g : HostPort → HostPort) (d : Dev) : Dev :=
  { d with hosts := mset d.hosts h (g (host d h)) }

/-- A function. -/
def fn (d : Dev) (f : Func) : Fn := (mget d.fns (fkey f)).getD default

/-- Changes a function. -/
def updFn (f : Func) (g : Fn → Fn) (d : Dev) : Dev :=
  { d with fns := mset d.fns (fkey f) (g (fn d f)) }

/-- Is the host port absent (R374). -/
def absentPort (d : Dev) (h : Nat) : Bool := decide (8 ≤ h) || (host d h).mode == 0

/-- Is a function inside the scope of a loss (R394). -/
def inScope (s : LossScope) (f : Func) : Bool :=
  match s with
  | .port => true
  | .func v => decide (v = 0) || decide (v = f.fn)
  | .vfs => decide (f.fn ≠ 0)

/-- Does host-loss processing cover the function (R395). -/
def lostFn (d : Dev) (f : Func) : Bool :=
  match (host d f.hp).loss with
  | none => false
  | some l => inScope l.scope f

/-- Fabric time in ns (R351). -/
def nowNs (d : Dev) : Nat := d.time.ns

/-- Time quality (R353). -/
def timeQ (d : Dev) : Nat :=
  match d.time.state with
  | .freeRun => 0
  | .locking => 1
  | .holdover => 2
  | .locked => if d.time.isGm then 3 else min 3 d.time.parentTq

/-- Do the actions of a power failure hold (R484): PFAIL# has been taken, or the device is fenced (R520) (DEDUCED, log 22). -/
def frozen (d : Dev) : Bool := d.boot.pfail || d.flt.fatal.isSome

/-- An endpoint. -/
def ep? (d : Dev) (e : Nat) : Option Ep := mget d.ept.eps e

/-- Changes an endpoint, if it exists. -/
def updEp (e : Nat) (g : Ep → Ep) (d : Dev) : Dev :=
  { d with ept := { d.ept with eps := mupd d.ept.eps e g } }

/-- The block of an endpoint index (R31, R56). -/
def blockOf (d : Dev) (e : Nat) : Option EpBlock := mget d.ept.blocks (e / 64)

/-- The function an endpoint index is assigned to. -/
def epFunc (d : Dev) (e : Nat) : Option Func := (blockOf d e).map (·.f)

/-- A completion queue. -/
def cq? (d : Dev) (c : Nat) : Option Cq := mget d.ept.cqs c

/-- Changes a completion queue. -/
def updCq (c : Nat) (g : Cq → Cq) (d : Dev) : Dev :=
  { d with ept := { d.ept with cqs := mupd d.ept.cqs c g } }

/-- An event queue of a function. -/
def eq? (d : Dev) (f : Func) (q : Nat) : Option Eq := mget (fn d f).eqs q

/-- Changes an event queue. -/
def updEq (f : Func) (q : Nat) (g : Eq → Eq) (d : Dev) : Dev :=
  updFn f (fun x => { x with eqs := mupd x.eqs q g }) d

/-- Changes the transport state. -/
def updXp (g : Xport → Xport) (d : Dev) : Dev := { d with xp := g d.xp }

/-- Changes the translation state. -/
def updXl (g : XlatAll → XlatAll) (d : Dev) : Dev := { d with xl := g d.xl }

/-- An operation. -/
def op? (d : Dev) (i : Nat) : Option Op := mget d.xp.ops i

/-- Changes an operation. -/
def updOp (i : Nat) (g : Op → Op) (d : Dev) : Dev := updXp (fun x => { x with ops := mupd x.ops i g }) d

/-- A content. -/
def content? (d : Dev) (i : Nat) : Option Content := mget d.xp.contents i

/-- Changes a content. -/
def updContent (i : Nat) (g : Content → Content) (d : Dev) : Dev :=
  updXp (fun x => { x with contents := mupd x.contents i g }) d

/-- A peer entry. -/
def peer (d : Dev) (da : Nat) : Peer := (mget d.xp.peers da).getD {}

/-- Changes a peer entry. -/
def updPeer (da : Nat) (g : Peer → Peer) (d : Dev) : Dev :=
  updXp (fun x => { x with peers := mset x.peers da (g (peer d da)) }) d

/-- A send half. -/
def sendHalf (p : Peer) (vn : Bool) : SendHalf := if vn then p.rsp else p.req

/-- A receive half. -/
def recvHalf (p : Peer) (vn : Bool) : RecvHalf := if vn then p.rxRsp else p.rxReq

/-- Changes a send half. -/
def updSend (da : Nat) (vn : Bool) (g : SendHalf → SendHalf) (d : Dev) : Dev :=
  updPeer da (fun p => if vn then { p with rsp := g p.rsp } else { p with req := g p.req }) d

/-- Changes a receive half. -/
def updRecv (da : Nat) (vn : Bool) (g : RecvHalf → RecvHalf) (d : Dev) : Dev :=
  updPeer da (fun p => if vn then { p with rxRsp := g p.rxRsp } else { p with rxReq := g p.rxReq }) d


/-- A fabric port at reset (R248) (DEDUCED, log 71). -/
def portReset (n : Nat) : Port := { lfsr := 0xACE1#16 ^^^ BitVec.ofNat 16 n }

/-- A fabric port. -/
def port (d : Dev) (n : Nat) : Port := (mget d.ports n).getD (portReset n)

/-- Changes a fabric port. -/
def updPort (n : Nat) (g : Port → Port) (d : Dev) : Dev := { d with ports := mset d.ports n (g (port d n)) }

/-- Changes the link layer of a port. -/
def updLink (n : Nat) (g : Link → Link) (d : Dev) : Dev := updPort n (fun p => { p with link := g p.link }) d

/-- Changes the lanes of a port. -/
def updLane (n : Nat) (g : Lane → Lane) (d : Dev) : Dev := updPort n (fun p => { p with lane := g p.lane }) d

/-- Changes a port's part of fabric time. -/
def updPTime (n : Nat) (g : PTime → PTime) (d : Dev) : Dev := updPort n (fun p => { p with pt := g p.pt }) d

/-- Changes the router core's own state. -/
def updRtr (g : Rtr → Rtr) (d : Dev) : Dev := { d with rtr := g d.rtr }

end Sys2Proof.Machine
end

