-- ==== Sys2Proof/Machine/Operands.lean ====
section
/-! DEFINITION. The operand forms: header beads (R46, R47), beads and their check (R37 to R41), strands
(R44), descriptors (R67 to R71) and the packing of admin parameters (R429). -/

namespace Sys2Proof

open Sys2Proof.Machine

/-! ### Header beads -/

/-- The fields of a header with their widths, from bit 0 up (R46). -/
def Hdr.fields (h : Hdr) : List (Nat × Nat) :=
  [(20, h.lsn.toNat), (5, h.ttl.toNat), (2, h.defl.toNat), (1, b2n h.trim), (2, h.ce.toNat), (1, b2n h.vn),
   (1, b2n h.epoch), (2, h.ver.toNat), (2, h.tc.toNat), (1, b2n h.poison), (4, h.kind.toNat), (1, b2n h.det),
   (4, h.ord.toNat), (16, h.entropy.toNat), (2, h.rsv62.toNat), (17, h.dstDa.toNat), (20, h.dstEp.toNat),
   (17, h.srcDa.toNat), (20, h.srcEp.toNat), (16, h.job.toNat), (8, h.bgen.toNat), (8, h.op.toNat),
   (8, h.flags.toNat), (13, h.len.toNat), (1, b2n h.rsv191), (32, h.bsn.toNat), (24, h.msn.toNat),
   (8, h.rsv248.toNat), (32, h.offset.toNat), (32, h.key.toNat), (64, h.addr.toNat), (128, h.opw.toNat)]

/-- Packs fields from bit 0 up. -/
def packBits : List (Nat × Nat) → Nat
  | [] => 0
  | (w, v) :: rest => v % 2 ^ w + (packBits rest) <<< w

/-- The 64 content bytes of a header bead (R46). -/
def Hdr.encode (h : Hdr) : Bytes := toLe 64 (packBits h.fields)

/-- The header that 64 content bytes hold (R46). -/
def Hdr.decode (bs : Bytes) : Hdr :=
  let v := leNat (bs.take 64)
  let f (lo w : Nat) : Nat := bitsOf v lo w
  { lsn := BitVec.ofNat 20 (f 0 20), ttl := BitVec.ofNat 5 (f 20 5), defl := BitVec.ofNat 2 (f 25 2),
    trim := bitOf v 27, ce := BitVec.ofNat 2 (f 28 2), vn := bitOf v 30, epoch := bitOf v 31,
    ver := BitVec.ofNat 2 (f 32 2), tc := BitVec.ofNat 2 (f 34 2), poison := bitOf v 36,
    kind := BitVec.ofNat 4 (f 37 4), det := bitOf v 41, ord := BitVec.ofNat 4 (f 42 4),
    entropy := BitVec.ofNat 16 (f 46 16), rsv62 := BitVec.ofNat 2 (f 62 2), dstDa := BitVec.ofNat 17 (f 64 17),
    dstEp := BitVec.ofNat 20 (f 81 20), srcDa := BitVec.ofNat 17 (f 101 17), srcEp := BitVec.ofNat 20 (f 118 20),
    job := BitVec.ofNat 16 (f 138 16), bgen := BitVec.ofNat 8 (f 154 8), op := BitVec.ofNat 8 (f 162 8),
    flags := BitVec.ofNat 8 (f 170 8), len := BitVec.ofNat 13 (f 178 13), rsv191 := bitOf v 191,
    bsn := BitVec.ofNat 32 (f 192 32), msn := BitVec.ofNat 24 (f 224 24), rsv248 := BitVec.ofNat 8 (f 248 8),
    offset := BitVec.ofNat 32 (f 256 32), key := BitVec.ofNat 32 (f 288 32), addr := BitVec.ofNat 64 (f 320 64),
    opw := BitVec.ofNat 128 (f 384 128) }

/-- The mutable fields replaced by zero (R47); in a trim notice VN as well. -/
def Hdr.masked (h : Hdr) : Hdr :=
  { h with lsn := 0, ttl := 0, defl := 0, trim := false, ce := 0, vn := if h.kind = 3 then false else h.vn }

/-- T.CRC of a header bead (R39). -/
def Hdr.crc (h : Hdr) : BitVec 13 := crc13 h.masked.encode true false

/-- T.CRC of a payload or idle bead (R39). -/
def payloadCrc (content : Bytes) (last : Bool) : BitVec 13 := crc13 content false last

/-! ### Beads -/

def Bead.kind (b : Bead) : Bool := b.trailer.getLsbD 0
def Bead.last (b : Bead) : Bool := b.trailer.getLsbD 1
def Bead.poisoned (b : Bead) : Bool := b.trailer.getLsbD 2
def Bead.crc (b : Bead) : BitVec 13 := BitVec.ofNat 13 (b.trailer.toNat / 8)

/-- The trailer of a bead (R37). -/
def mkTrailer (kind last poison : Bool) (crc : BitVec 13) : BitVec 16 :=
  BitVec.ofNat 16 (b2n kind + 2 * b2n last + 4 * b2n poison + 8 * crc.toNat)

/-- The CRC a receiver computes over a bead (R39, R41). -/
def Bead.computed (b : Bead) : BitVec 13 :=
  if b.kind then (Hdr.decode b.content).crc else payloadCrc (padTo 64 b.content) b.last

/-- How a receiver classifies a bead (R41). -/
inductive BeadClass where
  | good | stomped | bad
deriving DecidableEq, Repr, Inhabited

/-- The classification of a received bead (R41). -/
def Bead.classify (b : Bead) : BeadClass :=
  if b.kind && b.poisoned then .bad
  else if b.poisoned then .good
  else if b.crc = b.computed then .good
  else if b.crc = b.computed ^^^ 0x1FFF#13 then .stomped
  else .bad

/-- The bead stomped (R37, R41): its T.CRC is the inverse of its CRC (DEDUCED, log 53). -/
def Bead.stomp (b : Bead) : Bead := { b with trailer := mkTrailer b.kind b.last b.poisoned (b.computed ^^^ 0x1FFF#13) }

/-- The idle bead (R38). -/
def idleBead : Bead := ⟨zeros 64, mkTrailer false true false (payloadCrc (zeros 64) true)⟩

/-- The end bead of a strand cut short (R292). -/
def endBead : Bead := ⟨zeros 64, mkTrailer false true false (payloadCrc (zeros 64) true ^^^ 0x1FFF#13)⟩

/-! ### Strands -/

/-- The payload beads of a strand (R44): chunks of bytes cut into beads, the last padded with zeros, a
bead poisoned if it holds a byte of a poisoned chunk (R389). `fuel` bounds the number of beads. -/
def beadsOf : Nat → List (Byte × Bool) → List Bead
  | 0, _ => []
  | fuel + 1, bs =>
    if bs = [] then [] else
      let now := bs.take 64
      let rest := bs.drop 64
      let c := padTo 64 (now.map (·.1))
      ⟨c, mkTrailer false rest.isEmpty (now.any (·.2)) (payloadCrc c rest.isEmpty)⟩ :: beadsOf fuel rest

/-- The bytes of chunks with their poison marks. -/
def markBytes (cs : List Chunk) : List (Byte × Bool) := (cs.map (fun c => c.bytes.map (·, c.poison))).flatten

/-- Payload beads of chunks (R44). -/
def mkBeads (cs : List Chunk) : List Bead := beadsOf 65 (markBytes cs)

/-- A strand as its source makes it (R40): header CRC, payload beads, POISON if a chunk is poisoned
(R389). -/
def mkStrand (h : Hdr) (cs : List Chunk) : Strand :=
  let h := { h with poison := h.poison || cs.any (·.poison) }
  ⟨h, h.crc, if h.trim then [] else mkBeads cs⟩

/-- The payload of a strand, one chunk a bead, cut to LEN (R44). -/
def Strand.chunks (s : Strand) : List Chunk :=
  let n := s.hdr.len.toNat
  (s.beads.zipIdx).filterMap (fun p =>
    let left := n - 64 * p.2
    if left = 0 then none else some ⟨(padTo 64 p.1.content).take left, p.1.poisoned⟩)

/-- The payload bytes of a strand. -/
def Strand.payload (s : Strand) : Bytes := (s.chunks.map (·.bytes)).flatten

/-- Is some bead of the strand poisoned. -/
def Strand.poisoned (s : Strand) : Bool := s.chunks.any (·.poison)

/-- The header bead of a strand as sent on a link (R36, R37). -/
def Strand.headBead (s : Strand) : Bead :=
  ⟨s.hdr.encode, mkTrailer true (s.hdr.trim || s.beads.isEmpty) false s.crc⟩

/-- Every bead of a strand. -/
def Strand.allBeads (s : Strand) : List Bead := if s.hdr.trim then [s.headBead] else s.headBead :: s.beads

/-- Cells a strand needs in the Hearth (R272). -/
def cellsOf (h : Hdr) : Nat := if h.trim then 1 else 1 + ceilDiv h.len.toNat 64

/-- The queue a strand enters (R53). A trim notice is of VN_RSP whatever its VN holds (R47). -/
def vnOf (h : Hdr) : Bool := h.vn || h.kind == 3

def queueOf (h : Hdr) : Nat := (if vnOf h then 4 else 0) + (if h.trim then 0 else h.tc.toNat)

/-- Discards the payload and sets TRIM and CE (R249, R282). -/
def Strand.trim (s : Strand) : Strand :=
  { s with beads := [], hdr := { s.hdr with trim := true, ce := if s.hdr.ce = 1 ∨ s.hdr.ce = 2 then 3 else s.hdr.ce } }

/-- The FLAGS bits of R221. -/
def Hdr.mlast (h : Hdr) : Bool := h.flags.getLsbD 0
def Hdr.dep (h : Hdr) : Nat := bitsOf h.flags.toNat 1 3
def Hdr.durable (h : Hdr) : Bool := h.flags.getLsbD 4
def Hdr.resend (h : Hdr) : Bool := h.flags.getLsbD 5
def Hdr.unord (h : Hdr) : Bool := h.flags.getLsbD 6
def Hdr.unseq (h : Hdr) : Bool := h.flags.getLsbD 7

/-- A field of OPW. -/
def Hdr.opwf (h : Hdr) (lo w : Nat) : Nat := bitsOf h.opw.toNat lo w

/-- FLAGS from its bits (R221). -/
def mkFlags (mlast : Bool) (dep : Nat) (durable resend unord unseq : Bool) : BitVec 8 :=
  BitVec.ofNat 8 (b2n mlast + 2 * (dep % 8) + 16 * b2n durable + 32 * b2n resend + 64 * b2n unord + 128 * b2n unseq)

/-- The name of the stream of a strand at its receiver (R234). -/
def Hdr.rxKey (h : Hdr) : StreamKey := ⟨h.dstEp.toNat, h.srcDa, h.srcEp.toNat, h.ord.toNat⟩

/-- The stream of a request's header at its sender (R233). -/
def Hdr.txKey (h : Hdr) : StreamKey := ⟨h.srcEp.toNat, h.dstDa, h.dstEp.toNat, h.ord.toNat⟩

/-- Is the stream IN_ORDER (R222). -/
def inOrder (ord : Nat) : Bool := decide (8 ≤ ord)

/-! ### Descriptors -/

/-- The fields of a descriptor (R67). -/
def dOp (e : Bytes) : Nat := leAt e 0 1
def dFlags (e : Bytes) : Nat := leAt e 1 1
def dSignal (e : Bytes) : Bool := bitOf (dFlags e) 0
def dFence (e : Bytes) : Bool := bitOf (dFlags e) 1
def dInline (e : Bytes) : Bool := bitOf (dFlags e) 2
def dTrig (e : Bytes) : Bool := bitOf (dFlags e) 3
def dDurable (e : Bytes) : Bool := bitOf (dFlags e) 4
def dDet (e : Bytes) : Bool := bitOf (dFlags e) 5
def dTc (e : Bytes) : Nat := bitsOf (leAt e 2 1) 0 2
def dOrd (e : Bytes) : Nat := bitsOf (leAt e 2 1) 2 4
def dInlineLen (e : Bytes) : Nat := bitsOf (leAt e 3 1) 0 6
def dExt (e : Bytes) : Bool := bitOf (leAt e 3 1) 6
def dOwn (e : Bytes) : Bool := bitOf (leAt e 3 1) 7
def dLen (e : Bytes) : Nat := leAt e 4 4
def dDstDa (e : Bytes) : Nat := bitsOf (leAt e 8 8) 0 17
def dDstEp (e : Bytes) : Nat := bitsOf (leAt e 8 8) 17 20
def dTarget (e : Bytes) : Bytes := slice e 16 16
def dLaddr (e : Bytes) : Nat := leAt e 32 8
def dLkey (e : Bytes) : Nat := leAt e 40 4
def dOperands (e : Bytes) : Bytes := slice e 44 20
def dInlineBytes (e : Bytes) : Bytes := slice e 32 (dInlineLen e)
/-- TARGET of the operations of R117. -/
def dRaddr (e : Bytes) : Nat := leAt e 16 8
def dRkey (e : Bytes) : Nat := leAt e 24 4
def dImm (e : Bytes) : Nat := leAt e 28 4

/-- Is a ring entry at absolute position `pos` of a ring of 2^n entries owned by the device (R65). -/
def owned (e : Bytes) (pos n : Nat) : Bool := dOwn e == decide (pos / 2 ^ n % 2 = 0)

/-! ### Parameters of admin commands -/

/-- Places parameters of the given sizes under the packing rules of R429, from `off`: their offsets (DESIGN CHOICE, log 27). -/
def packOffsets : Nat → List (Nat × Nat) → List (Nat × Nat)
  | _, [] => []
  | off, (size, align) :: rest =>
    let o := ceilDiv off align * align
    (o, size) :: packOffsets (o + size) rest

/-- Packs values of the given sizes (R429), each at the next multiple of its size (DESIGN CHOICE, log 27). -/
def packVals (vs : List (Nat × Nat)) : Bytes :=
  vs.foldl (fun bs p => padTo (ceilDiv bs.length p.1 * p.1) bs ++ toLe p.1 p.2) []

end Sys2Proof
end

