-- ==== Sys2Proof/Machine/Reduce.lean ====
section
/-! DEFINITION. Elements in bytes with their poison marks (R189, R200). -/

namespace Sys2Proof.Machine

/-- Cuts marked bytes into elements of `size` bytes: value and poison. `fuel` bounds their number. -/
def cutElems (size : Nat) : Nat → List (Byte × Bool) → List (Nat × Bool)
  | 0, _ => []
  | fuel + 1, bs =>
    if bs = [] ∨ size = 0 then []
    else
      let e := bs.take size
      (leNat (e.map (·.1)), e.any (·.2)) :: cutElems size fuel (bs.drop size)

/-- The elements in chunks. -/
def toElems (size : Nat) (cs : List Chunk) : List (Nat × Bool) :=
  let bs := markBytes cs
  cutElems size (bs.length + 1) bs

/-- Appends a chunk, joined to the last one if both have the same mark. -/
def joinChunk (cs : List Chunk) (c : Chunk) : List Chunk :=
  match cs.getLast? with
  | some l => if l.poison = c.poison then cs.dropLast ++ [⟨l.bytes ++ c.bytes, l.poison⟩] else cs ++ [c]
  | none => [c]

/-- The chunks of elements. -/
def ofElems (size : Nat) (es : List (Nat × Bool)) : List Chunk :=
  es.foldl (fun cs e => joinChunk cs ⟨toLe size e.1, e.2⟩) []

/-- Elements of USER_SRC or USER_DST brought to their wire form (R197, R198). -/
def wireChunks (rop t mode : Nat) (cs : List Chunk) : List Chunk :=
  if mode < 2 then cs
  else ofElems (wireElem rop t mode) ((toElems (elemSize rop t) cs).map (fun e => (toWire t mode e.1, e.2)))

/-- Wire elements brought to the form of USER_DST (R197, R198). -/
def userChunks (rop t mode : Nat) (cs : List Chunk) : List Chunk :=
  if mode < 2 then cs
  else ofElems (elemSize rop t) ((toElems (wireElem rop t mode) cs).map (fun e => (fromWire t mode e.1, e.2)))

/-- op(local, incoming) element by element (R196, R200). -/
def combineChunks (rop t mode : Nat) (a b : List Chunk) : List Chunk :=
  let w := wireElem rop t mode
  ofElems w (((toElems w a).zip (toElems w b)).map (fun p => (combineWire rop t mode p.1.1 p.2.1, p.1.2 || p.2.2)))

end Sys2Proof.Machine
end

