-- ==== Sys2Proof/Machine/Flags.lean ====
section
/-! DEFINITION. Event sources, their sticky flags and severities, and the counters with their WRAP flags
(R510 to R525). -/

namespace Sys2Proof.Machine

/-- Source i of PORT[n] (R510). -/
def srcPort (n i : Nat) : Nat := 4 * n + i

/-- Source i of HOST[h] (R400). -/
def srcHost (h i : Nat) : Nat := 512 + 16 * h + i

/-- Source i of central window w (R510). -/
def srcWin (w i : Nat) : Nat := 640 + 16 * w + i

/-- The severities of the sources of central window w from source 2 on (R512). -/
def winSev (w : Nat) : List Nat :=
  match w with
  | 0 => [2, 2, 2, 2, 4]
  | 1 => [4, 2, 1]
  | 2 => [2, 2, 2, 2, 2, 4]
  | 3 => [1, 2]
  | 5 => [2, 2, 1]
  | 6 => [2, 2, 2, 2, 2, 2, 2, 2]
  | 7 => [1, 2, 2, 2]
  | 10 => [2]
  | 11 => [1, 2, 2, 2]
  | 12 => [1]
  | 14 => [2, 1]
  | 15 => [3, 3, 3, 2, 2, 2, 4]
  | 16 => [1, 1, 2]
  | _ => []

/-- The reset severity of a source (R400, R511, R512); 0 for a reserved one. -/
def sevReset (s : Nat) : Nat :=
  if s < 512 then (if s % 4 = 2 then 1 else 2)
  else if s < 640 then
    match (s - 512) % 16 with
    | 3 => 1
    | 5 => 1
    | 9 => 1
    | 10 => 3
    | 11 => 1
    | 12 => 1
    | 13 => 1
    | 14 => 1
    | 15 => 0
    | _ => 2
  else
    let w := (s - 640) / 16
    let i := (s - 640) % 16
    if w = 17 then (if i < 8 then 3 else 0)
    else if w > 17 then 0
    else if i = 0 then 1
    else if i = 1 then (if w = 15 then 3 else 2)
    else (winSev w).getD (i - 2) 0

/-- Is a source number reserved (R510). -/
def srcReserved (s : Nat) : Bool := decide (1024 ≤ s) || sevReset s == 0

/-- The severity floor of a source (R512). -/
def sevFloor (s : Nat) : Nat := if s = srcWin 0 6 ∨ s = srcWin 1 2 ∨ s = srcWin 2 7 then 4 else 0

/-- The severity of a source. -/
def sevOf (d : Dev) (s : Nat) : Nat := (mget d.flt.sev s).getD (sevReset s)

/-- The route group of a source (R517). -/
def srcGroup (s : Nat) : Nat :=
  if s < 512 then s / 4 else if s < 640 then 128 + (s - 512) / 16 else 136 + (s - 640) / 16

/-- The reset route mask of a group. -/
def routeReset (g : Nat) : Nat := if 128 ≤ g ∧ g < 136 then 2 ^ (g - 128) else 0xFF

/-- The route mask of a group (R517). -/
def routeOf (d : Dev) (g : Nat) : Nat := (mget d.flt.route g).getD (routeReset g)

/-- Has the source a containment action (R519) (DEDUCED, log 21). -/
def hasContainment (s : Nat) : Bool :=
  decide (s < 640) || decide (s = srcWin 6 1) || (decide (srcWin 6 2 ≤ s) && decide (s < srcWin 6 10))
  || decide (s = srcWin 7 1) || decide (s = srcWin 8 1) || decide (s = srcWin 9 1) || decide (s = srcWin 10 1)
  || decide (s = srcWin 11 1) || decide (s = srcWin 12 1) || decide (s = srcWin 13 1)
  || (decide (srcWin 15 1 ≤ s) && decide (s ≤ srcWin 15 8)) || (decide (srcWin 17 0 ≤ s) && decide (s < srcWin 17 8))

/-- GLB.MODE.CUR (R18). -/
def curMode (d : Dev) : Nat := fld d (GLB + 0x010) 0 2

/-- The severity applied to an occurrence: a forced Contain or Fatal one acts only where R518 lets it,
and Contain without an action of its own is handled as Notify (R519) (DEDUCED, log 20). -/
def sevApplied (d : Dev) (s : Nat) (forced : Bool) : Nat :=
  let v := sevOf d s
  let v := if forced && decide (3 ≤ v) && !(fld d (FLT + 0x020) 0 1 == 1 && curMode d != 0) then 2 else v
  if v = 3 ∧ hasContainment s = false then 2 else v

/-- Is the sticky bit of a source set. -/
def stickyOf (d : Dev) (s : Nat) : Bool := d.flt.sticky.contains s

/-- An occurrence of a source (R514). What follows it outside FLT (the FAULT event, the containment
action, the fatal path) is put down as work or as a due action (DEDUCED, log 20). -/
def occur (s : Nat) (forced : Bool) (d : Dev) : Dev :=
  let v := sevApplied d s forced
  if v = 0 ∨ srcReserved s = true then d
  else
    let was := stickyOf d s
    let d := if was then d else
      { d with flt := { d.flt with
          sticky := d.flt.sticky ++ [s]
          marks := d.flt.marks ++ [{ source := s, edge := true, forced := forced, sev := v }] } }
    let d := if (v = 2 ∨ v = 3) ∧ was = false then push (.faultEvent s v forced) d else d
    let d := if v = 3 then { d with flt := { d.flt with contain := d.flt.contain ++ [s] } } else d
    if v = 4 then push (.fatal s) d else d

/-- An occurrence that hardware raises (DEDUCED, log 20). -/
def raise (s : Nat) (d : Dev) : Dev := occur s false d

/-- Software clears sticky bits (R515, R522). -/
def clearSticky (ss : List Nat) (d : Dev) : Dev :=
  let ss := ss.filter (stickyOf d)
  { d with flt := { d.flt with
      sticky := d.flt.sticky.filter (fun s => !ss.contains s)
      marks := d.flt.marks ++ ss.map (fun s => { source := s, edge := false, forced := false, sev := sevOf d s }) } }

/-! ### Counters -/

/-- A counter wrapped (R523): its flag, TALLY.WRAP_LOG and COUNTER_WRAP. -/
def wrapped (a : Nat) (d : Dev) : Dev :=
  let d := if d.wraps.contains a then d else { d with wraps := d.wraps ++ [a] }
  let d := if fld d (TALLY + 0x034) 0 1 = 0 then
      setFld (TALLY + 0x034) 0 1 1 (setReg (TALLY + 0x030) (BitVec.ofNat 64 a) d)
    else setFld (TALLY + 0x034) 1 1 1 d
  raise (srcWin 5 4) d

/-- Is the counter the odd one of a chained pair (R524). -/
def chainedOdd (d : Dev) (a : Nat) : Bool := decide (8 ≤ a) && d.chains.contains (a - 8)

/-- Adds to a performance counter (R523, R524) (DEDUCED, log 67). -/
def countBy (a n : Nat) (d : Dev) : Dev :=
  if chainedOdd d a then d
  else
    let v := (reg d a).toNat + n
    if v < 2 ^ 48 then setReg a (BitVec.ofNat 64 v) d
    else
      let d := setReg a (BitVec.ofNat 64 (v % 2 ^ 48)) d
      if d.chains.contains a then
        let w := (reg d (a + 8)).toNat + 1
        if w < 2 ^ 48 then setReg (a + 8) (BitVec.ofNat 64 w) d
        else wrapped a (setReg (a + 8) 0 d)
      else wrapped a d

/-- Counts one event. -/
def count (a : Nat) (d : Dev) : Dev := countBy a 1 d

/-- Counts link errors, which hold at their largest value (R523). -/
def countErr (a n : Nat) (d : Dev) : Dev :=
  setReg a (BitVec.ofNat 64 (satAdd 0xFFFFFFFF (reg d a).toNat n)) d

end Sys2Proof.Machine
end

