-- ==== Sys2Proof/Machine/Ops.lean ====
section
/-! DEFINITION. Requests to host memory, message signalled interrupts, event queues and completion
queues (R79 to R87, R375, R383, R387, R390, R540). -/

namespace Sys2Proof.Machine

/-- The BARs of the functions of a host port as programmed in configuration space: base and size
(R105, R376). Address 0 stands for a BAR that is not programmed. -/
def barsOf (d : Dev) (h : Nat) : List (Nat × Nat) :=
  let p := fn d (mkFunc h 0)
  let hp := host d h
  let vfs := if hp.vfEn then hp.numVfs else 0
  [(p.bar0, 0x4000000), (p.bar2, 0x4000000), (hp.vfBar0, 0x200000 * vfs), (hp.vfBar2, 0x4000000 * vfs)].filter
    (fun b => b.1 != 0)

/-- Does a bus range of a host port overlap one of its BARs (R106). -/
def hitsBar (d : Dev) (h addr len : Nat) : Bool := (barsOf d h).any (fun b => overlaps addr len b.1 b.2)

/-- May the function issue requests now: not lost (R395), not in D3hot (R385). -/
def mayIssue (d : Dev) (f : Func) : Bool := !lostFn d f && !(fn d f).d3 && !absentPort d f.hp

/-- The parts of a range by Max_Payload_Size or Max_Read_Request_Size and 4 KiB boundaries (R375). -/
def tlps (most addr len : Nat) : List (Nat × Nat) := splitRange 4096 most (len + 1) addr len

/-- A posted write to host memory (R375, R387, R540). Nothing new is placed once PFAIL# is taken (R484). -/
def hostWrite (f : Func) (addr : Nat) (data : Bytes) (ro poison : Bool) (d : Dev) : Dev :=
  if !mayIssue d f || frozen d then d
  else if !(fn d f).bme then raise (srcHost f.hp 8) d
  else
    let ro := ro && (fn d f).ro
    (tlps (fn d (pf f.hp)).mps addr data.length).foldl
      (fun d p => count (HOSTB f.hp + 0x200) (emit (.hostWrite f p.1 (slice data (p.1 - addr) p.2) ro poison) d)) d

/-- Writes chunks one after the other from an address, poisoned bytes in TLPs of their own (R389). -/
def hostWriteChunks (f : Func) (addr : Nat) (cs : List Chunk) (ro : Bool) (d : Dev) : Dev :=
  (cs.foldl (fun (p : Nat × Dev) c => (p.1 + c.bytes.length, hostWrite f p.1 c.bytes ro c.poison p.2)) (addr, d)).2

/-- Requests of a host port that are outstanding (R375) (DEDUCED, log 17). -/
def outstanding (d : Dev) (h : Nat) : Nat :=
  (d.np.filter (fun p => decide (p.2.f.hp.val = h) && p.2.sent)).length

/-- Sends a non-posted request, or keeps it while 768 of its port are outstanding. -/
def npSend (id : Nat) (n : Np) (d : Dev) : Dev :=
  let go := decide (outstanding d n.f.hp < 768)
  let d := { d with np := mset d.np id { n with sent := go } }
  if go then
    let d := match n.atomic with
      | none => emit (.hostRead n.f id n.addr n.len) d
      | some (o, a, b) => emit (.hostAtomic n.f id n.addr o a b) d
    count (HOSTB n.f.hp + 0x208) d
  else d

/-- Sends the kept requests of a port for which there is room. -/
def npKick (h : Nat) (d : Dev) : Dev :=
  match d.np.find? (fun p => decide (p.2.f.hp.val = h) && !p.2.sent) with
  | none => d
  | some (id, n) => npSend id n d

/-- A new request number; its low three bits name the host port. -/
def newReq (h : Nat) (d : Dev) : Nat × Dev := (d.nextReq * 8 + h, { d with nextReq := d.nextReq + 1 })

/-- Puts down a read that ends at once with a status (DEDUCED, log 17). -/
def readEnds (f : Func) (st : RdStatus) (use : Use) (d : Dev) : Dev :=
  push (.readDone d.nextRead)
    { d with reads := mset d.reads d.nextRead { f := f, parts := [], status := st, use := use },
             nextRead := d.nextRead + 1 }

/-- A read of ranges of host memory; `use` proceeds when their data has come (R375, R390, R540). A range
of no bytes is the flushing read of R122 (DEDUCED, log 17). -/
def hostReadMany (f : Func) (ranges : List (Nat × Nat)) (use : Use) (d : Dev) : Dev :=
  if !mayIssue d f then count (HOSTB f.hp + 0x210) (readEnds f .hostLost use d)
  else if !(fn d f).bme then raise (srcHost f.hp 8) (readEnds f .unsupported use d)
  else
    let rd := d.nextRead
    let d := { d with nextRead := rd + 1 }
    let ps := (ranges.map (fun p => if p.2 = 0 then [p] else tlps (fn d (pf f.hp)).mrrs p.1 p.2)).flatten
    let r := ps.foldl
      (fun (x : List (Nat × Option Chunk) × Dev) p =>
        let (id, d) := newReq f.hp x.2
        (x.1 ++ [(id, none)], npSend id { rd := rd, f := f, addr := p.1, len := p.2, sent := false } d))
      ([], d)
    { r.2 with reads := mset r.2.reads rd { f := f, parts := r.1, use := use } }

/-- A read of one range of host memory. -/
def hostRead (f : Func) (addr len : Nat) (use : Use) (d : Dev) : Dev := hostReadMany f [(addr, len)] use d

/-- A 64-bit AtomicOp request (R130): 0 FetchAdd, 1 Swap, 2 CAS. -/
def hostAtomic (f : Func) (addr o a b : Nat) (use : Use) (d : Dev) : Dev :=
  if !mayIssue d f then count (HOSTB f.hp + 0x210) (readEnds f .hostLost use d)
  else if !(fn d f).bme then raise (srcHost f.hp 8) (readEnds f .unsupported use d)
  else
    let rd := d.nextRead
    let (id, d) := newReq f.hp { d with nextRead := rd + 1 }
    let d := npSend id { rd := rd, f := f, addr := addr, len := 8, sent := false, atomic := some (o, a, b) } d
    { d with reads := mset d.reads rd { f := f, parts := [(id, none)], use := use } }

/-- The worse of two read statuses: the first that is not OK. -/
def worseRd (a b : RdStatus) : RdStatus := if a = .ok then b else a

/-- A completion of a request arrives, or its timeout does (R389, R390): errors raise the port's
source; a number that names no request is an unexpected completion, counted and discarded (DEDUCED, log 17). -/
def npComplete (id : Nat) (st : RdStatus) (data : Bytes) (d : Dev) : Dev :=
  match mget d.np id with
  | none => count (HOSTB (id % 8) + 0x228) d
  | some n =>
    let h := n.f.hp.val
    let d := { d with np := mdel d.np id }
    let d := match st with
      | .unsupported => raise (srcHost h 8) d
      | .completerAbort => raise (srcHost h 8) d
      | .timeout => raise (srcHost h 7) (count (HOSTB h + 0x220) d)
      | .poisoned => emit (.aer n.f "Poisoned TLP Received") (count (HOSTB h + 0x218) d)
      | .hostLost => count (HOSTB h + 0x210) d
      | .ok => d
    let d := npKick h d
    match mget d.reads n.rd with
    | none => d
    | some r =>
      let parts := r.parts.map (fun p => if p.1 = id then (p.1, some ⟨padTo n.len data, st == .poisoned⟩) else p)
      let r := { r with parts := parts, status := worseRd r.status st }
      let d := { d with reads := mset d.reads n.rd r }
      if parts.all (fun p => p.2.isSome) then push (.readDone n.rd) d else d

/-- The chunks of a finished read, in the order of their addresses. -/
def HRead.chunks (r : HRead) : List Chunk := r.parts.filterMap (·.2)

/-- The bytes of a finished read. -/
def HRead.bytes (r : HRead) : Bytes := (r.chunks.map (·.bytes)).flatten

/-- Ends every outstanding request of the functions that satisfy a test with HOST_LOST (R395, step 2). -/
def npLose (p : Func → Bool) (d : Dev) : Dev :=
  (d.np.filter (fun x => p x.2.f)).foldl (fun d x => npComplete x.1 .hostLost [] d) d

/-! ### Interrupts -/

/-- Sends a vector's message (R383). -/
def msixSend (f : Func) (v : Nat) (d : Dev) : Dev :=
  let e := (mget (fn d f).msix v).getD {}
  hostWrite f e.addr (toLe 4 e.data) false false
    (updFn f (fun x => { x with msix := mset x.msix v { e with pend := false } }) d)

/-- Is a vector blocked (R383). -/
def msixBlocked (d : Dev) (f : Func) (v : Nat) : Bool :=
  ((mget (fn d f).msix v).getD {}).mask || (fn d f).fnMask || !(fn d f).msixEn || !(fn d f).bme

/-- A vector is requested (R383). -/
def msixRequest (f : Func) (v : Nat) (d : Dev) : Dev :=
  if msixBlocked d f v then
    updFn f (fun x => { x with msix := mset x.msix v { (mget x.msix v).getD {} with pend := true } }) d
  else msixSend f v d

/-! ### Event queues -/

/-- The 16 bytes of an event (R85). -/
def Eqe.encode (e : Eqe) (phase : Bool) : Bytes :=
  toLe 6 e.ts ++ toLe 1 e.typ ++ toLe 1 (b2n e.noIndex) ++ toLe 4 e.source ++ toLe 3 e.detail
    ++ toLe 1 (if phase then 0x80 else 0)

/-- Does the cached head word show the queue full (R83). -/
def queueFull (wr cached n : Nat) : Bool := decide (2 ^ n ≤ (wr + 2 ^ 32 - cached) % 2 ^ 32)

/-- Writes one event at the queue's write position and moderates its interrupt (R85, R86). -/
def eqPut (f : Func) (q : Nat) (e : Eqe) (d : Dev) : Dev :=
  match eq? d f q with
  | none => d
  | some x =>
    let phase := decide (x.wr / 2 ^ x.n % 2 = 0)
    let d := hostWrite f (x.base + 16 * (x.wr % 2 ^ x.n)) (e.encode phase) false false d
    let since := x.since + 1
    let fire := decide (x.modTime = 0) || decide (x.modCount ≤ since)
    let d := updEq f q (fun y => { y with wr := (y.wr + 1) % 2 ^ 32, since := if fire then 0 else since }) d
    if fire then msixRequest f x.vector d else d

/-- Posts an event (R83, R85): a queue in error takes none; one whose cached head shows it full has its
head word read first (DEDUCED, log 19). -/
def eqPost (f : Func) (q : Nat) (e : Eqe) (d : Dev) : Dev :=
  match eq? d f q with
  | none => d
  | some x =>
    if x.error then d
    else if x.waiting ≠ [] ∨ queueFull x.wr x.cached x.n = true then
      let d := updEq f q (fun y => { y with waiting := y.waiting ++ [e], reading := true }) d
      if x.reading then d else hostRead f x.head 4 (.eqHead f q) d
    else eqPut f q e d

/-- An event with the present time. -/
def event (d : Dev) (typ source detail : Nat) : Eqe :=
  { ts := nowNs d % 2 ^ 48, typ := typ, source := source, detail := detail }

/-- Writes waiting events while there is room; what does not fit stays. -/
def eqFlush (f : Func) (q : Nat) : List Eqe → Dev → Dev
  | [], d => updEq f q (fun y => { y with waiting := [] }) d
  | e :: es, d =>
    match eq? d f q with
    | none => d
    | some x =>
      if queueFull x.wr x.cached x.n then updEq f q (fun y => { y with waiting := e :: es }) d
      else eqFlush f q es (eqPut f q e d)

/-- An event queue overflows (R87). -/
def eqOverflow (f : Func) (q : Nat) (d : Dev) : Dev :=
  let d := updEq f q (fun y => { y with error := true, waiting := [] }) d
  if q = 0 then raise (srcWin 7 4) d else eqPost f 0 (event d 4 q 0) d

/-- A head-word read of an event queue returns (R83, R87); `v` is none when it failed (DEDUCED, log 19). -/
def eqHeadDone (f : Func) (q : Nat) (v : Option Nat) (d : Dev) : Dev :=
  match eq? d f q with
  | none => d
  | some x =>
    let d := updEq f q (fun y => { y with cached := v.getD y.cached, reading := false }) d
    if x.error then d
    else if queueFull x.wr (v.getD x.cached) x.n then eqOverflow f q d
    else
      let d := eqFlush f q x.waiting d
      match eq? d f q with
      | none => d
      | some y =>
        if y.waiting = [] then d
        else hostRead f y.head 4 (.eqHead f q) (updEq f q (fun z => { z with reading := true }) d)

/-- The FAULT event of a source (R517) (DEDUCED, log 20). -/
def faultEvent (s sev : Nat) (forced : Bool) (d : Dev) : Dev :=
  (List.range 8).foldl
    (fun d m =>
      if bitOf (routeOf d (srcGroup s)) m then
        let f := pf (hostNo m)
        if (eq? d f 0).isSome && !(fn d f).d3 && (host d m).loss.isNone then
          eqPost f 0 (event d 5 s (sev + 8 * b2n forced)) (count (FLT + 0x200) d)
        else count (FLT + 0x208) d
      else d) d

/-! ### Completion queues -/

/-- Bytes 0 to 30 and byte 31 of a completion entry (R80). -/
def Cqe.encode (e : Cqe) (phase : Bool) : Bytes :=
  toLe 6 e.ts ++ toLe 1 e.tq ++ toLe 1 e.status
    ++ toLe 4 (e.ep % 2 ^ 20 + b2n e.dir * 2 ^ 20 + b2n e.dataValid * 2 ^ 21 + (e.op % 256) * 2 ^ 24)
    ++ toLe 4 ((if e.noIndex then 0 else e.ringIndex % 2 ^ 16) + b2n e.noIndex * 2 ^ 16)
    ++ toLe 4 e.bytes ++ toLe 8 e.data ++ toLe 4 (e.srcDa % 2 ^ 17 + b2n phase * 2 ^ 31)

/-- Writes one completion entry (R81) and notifies an armed queue's event queue (R84) (DEDUCED, log 19). -/
def cqPut (c : Nat) (e : Cqe) (d : Dev) : Dev :=
  match cq? d c with
  | none => d
  | some x =>
    let bs := e.encode (decide (x.wr / 2 ^ x.n % 2 = 0))
    let a := x.base + 32 * (x.wr % 2 ^ x.n)
    let d := if x.whole then hostWrite x.f a bs false false d
      else hostWrite x.f (a + 31) (bs.drop 31) false false (hostWrite x.f a (bs.take 31) false false d)
    let d := updCq c (fun y => { y with wr := (y.wr + 1) % 2 ^ 32 }) d
    match x.eq with
    | none => d
    | some q =>
      if x.armed then eqPost x.f q (event d 1 c 0) (updCq c (fun y => { y with armed := false }) d) else d

/-- Writes a completion entry, reading the head word first when the queue looks full (R83) (DEDUCED, log 19). -/
def cqPost (c : Nat) (e : Cqe) (d : Dev) : Dev :=
  match cq? d c with
  | none => d
  | some x =>
    if x.error then d
    else if x.waiting ≠ [] ∨ queueFull x.wr x.cached x.n = true then
      let d := updCq c (fun y => { y with waiting := y.waiting ++ [e], reading := true }) d
      if x.reading then d else hostRead x.f x.head 4 (.cqHead c) d
    else cqPut c e d

/-- Writes waiting entries while there is room. -/
def cqFlush (c : Nat) : List Cqe → Dev → Dev
  | [], d => updCq c (fun y => { y with waiting := [] }) d
  | e :: es, d =>
    match cq? d c with
    | none => d
    | some x =>
      if queueFull x.wr x.cached x.n then updCq c (fun y => { y with waiting := e :: es }) d
      else cqFlush c es (cqPut c e d)

/-- The endpoints bound to a completion queue. -/
def epsOfCq (d : Dev) (c : Nat) : List Nat :=
  (d.ept.eps.filter (fun p => decide (p.2.sCq = c) || decide (p.2.rCq = c))).map (·.1)

/-- A completion queue overflows (R83). -/
def cqOverflow (c : Nat) (d : Dev) : Dev :=
  match cq? d c with
  | none => d
  | some x =>
    let d := updCq c (fun y => { y with error := true, waiting := [] }) d
    let d := eqPost x.f (x.eq.getD 0) (event d 2 c 0) d
    let d := raise (srcWin 7 3) d
    (epsOfCq d c).foldl (fun d e => push (.epError e 5) d) d

/-- A head-word read of a completion queue returns (R83) (DEDUCED, log 19). -/
def cqHeadDone (c : Nat) (v : Option Nat) (d : Dev) : Dev :=
  match cq? d c with
  | none => d
  | some x =>
    let d := updCq c (fun y => { y with cached := v.getD y.cached, reading := false }) d
    if x.error then d
    else if queueFull x.wr (v.getD x.cached) x.n then cqOverflow c d
    else
      let d := cqFlush c x.waiting d
      match cq? d c with
      | none => d
      | some y =>
        if y.waiting = [] then d
        else hostRead y.f y.head 4 (.cqHead c) (updCq c (fun z => { z with reading := true }) d)

/-- The value a head-word read returned, none when it failed (R83) (DEDUCED, log 19). -/
def headValue (r : HRead) : Option Nat := if r.status = .ok then some (leNat r.bytes) else none

end Sys2Proof.Machine
end

