-- ==== Sys2Proof/Machine/Sched.lean ====
section
/-! DEFINITION. Marking, queue service and shapers: what a fabric output port and a host port's injection
and landing points share (R246 to R268, R541). -/

namespace Sys2Proof.Machine

/-! ### Shapers -/

/-- Tokens are kept in 1/100,000 of a byte: RATE × 10 Mb/s is RATE × 125 of them per ns (R262). -/
def tokenUnit : Int := 100000

/-- A shaper with its tokens grown up to the present time (R262). -/
def Shaper.grow (s : Shaper) (now : Nat) : Shaper :=
  { s with tokens := min (s.burst * 256 * tokenUnit) (s.tokens + (s.rate * 125 : Nat) * ((now - s.t0 : Nat) : Int)), t0 := now }

/-- Does a shaper permit a strand (R262). -/
def Shaper.permits (s : Shaper) (now : Nat) : Bool := decide (s.rate = 0) || decide (0 ≤ (s.grow now).tokens)

/-- Charges a strand of `l` bytes (R262). -/
def Shaper.charge (s : Shaper) (now l : Nat) : Shaper :=
  if s.rate = 0 then s else { s.grow now with tokens := (s.grow now).tokens - l * tokenUnit }

/-- A shaper set anew by a command (R263). -/
def mkShaper (rate burst : Nat) (zero : Bool) (now : Nat) : Shaper :=
  { rate := rate, burst := burst, zero := zero, tokens := if zero then 0 else burst * 256 * tokenUnit, t0 := now }

/-- The time at which a shaper next permits (R257). -/
def Shaper.nextTime (s : Shaper) (now : Nat) : Nat :=
  if s.permits now then now
  else now + ceilDiv (-(s.grow now).tokens).toNat (max 1 (s.rate * 125))

/-- The length charged for a strand (R260). -/
def chargeLen (h : Hdr) (overhead : Nat) : Nat :=
  max 1 (64 * (1 + (if h.trim then 0 else ceilDiv h.len.toNat 64)) + overhead - 64)

/-! ### Eight queues -/

/-- The depth of a queue in cells (R247). -/
def qCells (q : List QEnt) : Nat := sumOf (q.map (·.cells))

/-- The depth of a queue in beads (R267). -/
def qBeads (q : List QEnt) : Nat := sumOf (q.map (fun e => e.st.allBeads.length))

/-- A queue of eight. -/
def Sched.q (s : Sched) (i : Nat) : List QEnt := lget s.qs i []

/-- Appends an entry to queue `i`; a weighted queue that was empty joins the active list with deficit 0
(R261). -/
def Sched.enter (s : Sched) (i : Nat) (e : QEnt) : Sched :=
  let s1 := if i % 4 ≠ 0 ∧ s.q i = [] then { s with deficit := lset s.deficit i 0, active := s.active ++ [i] } else s
  { s1 with qs := lset s1.qs i (s.q i ++ [e]) }

/-- Takes the head of queue `i`. -/
def Sched.pop (s : Sched) (i : Nat) : Sched := { s with qs := lset s.qs i (s.q i).tail }

/-- A queue that has emptied leaves the active list and loses its deficit (R261). -/
def Sched.tidy (s : Sched) (i : Nat) : Sched :=
  if s.q i = [] then
    { s with deficit := lset s.deficit i 0, active := s.active.filter (· != i)
             credited := if s.active.head? = some i then false else s.credited }
  else s

/-- The configuration the scheduler of a port uses: weights of the queues and OVERHEAD. -/
structure SchedCfg where
  weight : List Nat
  overhead : Nat
deriving DecidableEq, Repr, Inhabited

/-- Moves the head of the active list to its tail. -/
def rotate (l : List Nat) : List Nat := l.tail ++ l.take 1

/-- Service of the weighted group (R261): `fuel` bounds the visits. A visited queue is credited once; if
its head fits, it is chosen and the visit goes on at the next choice. -/
def drr (cfg : SchedCfg) (now : Nat) : Nat → Sched → Option (Nat × QEnt) × Sched
  | 0, s => (none, s)
  | fuel + 1, s =>
    match s.active with
    | [] => (none, s)
    | i :: _ =>
      if !((lget s.qshape i {}).permits now) || !(s.pshape.permits now) then
        drr cfg now fuel { s with active := rotate s.active, credited := false }
      else
        let s := if s.credited then s else
          { s with deficit := lset s.deficit i (lget s.deficit i 0 + lget cfg.weight i 0 * 256), credited := true }
        match s.q i with
        | [] => drr cfg now fuel (s.tidy i)
        | e :: _ =>
          let l := chargeLen e.st.hdr cfg.overhead
          if l ≤ lget s.deficit i 0 then
            let s := { s with deficit := lset s.deficit i (lget s.deficit i 0 - l)
                              qshape := lset s.qshape i ((lget s.qshape i {}).charge now l)
                              pshape := s.pshape.charge now l }
            (some (i, e), (s.pop i).tidy i)
          else drr cfg now fuel { s with active := rotate s.active, credited := false }

/-- Is some weighted queue permitted now (R261, R262). -/
def anyPermitted (s : Sched) (now : Nat) : Bool :=
  s.pshape.permits now && s.active.any (fun i => (lget s.qshape i {}).permits now)

/-- The scheduler's choice (R259 to R262): queue 4, else queue 0, else the weighted group (DEDUCED, log 81). -/
def choose (cfg : SchedCfg) (now : Nat) (s : Sched) : Option (Nat × QEnt) × Sched :=
  let strict (i : Nat) (e : QEnt) : Option (Nat × QEnt) × Sched :=
    (some (i, e), { s.pop i with pshape := s.pshape.charge now (chargeLen e.st.hdr cfg.overhead) })
  match s.q 4 with
  | e :: _ => strict 4 e
  | [] =>
    match s.q 0 with
    | e :: _ => strict 0 e
    | [] => if anyPermitted s now then drr cfg now 200 s else (none, s)

/-! ### Marking -/

/-- The marking decision (R247): mark or not, and the LFSR after it. -/
def markDecision (lfsr : BitVec 16) (d kmin kmax pmax : Nat) : Bool × BitVec 16 :=
  let lo := 16 * kmin
  let hi := 16 * kmax
  if d < lo then (false, lfsr)
  else if hi ≤ d then (true, lfsr)
  else (decide (lfsr.toNat % 256 < pmax * (d - lo) / (hi - lo)), lfsr16 lfsr)

/-- Applies marking to a strand that enters a queue of depth `d` (R247): only CE 01 or 10 and TRIM 0. -/
def markStrand (lfsr : BitVec 16) (d kmin kmax pmax : Nat) (st : Strand) : Strand × BitVec 16 :=
  if (st.hdr.ce = 1 ∨ st.hdr.ce = 2) ∧ st.hdr.trim = false then
    let (m, l) := markDecision lfsr d kmin kmax pmax
    (if m then { st with hdr := { st.hdr with ce := 3 } } else st, l)
  else (st, lfsr)

/-! ### Measurement -/

/-- The bin of a queueing time in ns (R268). -/
def delayBin (t : Nat) : Nat := min 15 (bitLen 20 (t / 10))

/-- Whether a strand entering queue `q` is timed (R268), by a counter. -/
def Sched.timedEnter (s : Sched) (sel : Nat) (log2 : Nat) (q : Nat) (e : QEnt) : Sched :=
  if bitOf sel 3 || decide (sel % 8 = q) then
    let t := s.timer + 1
    if t % 2 ^ log2 = 0 then { s.enter q { e with timed := true } with timer := 0 }
    else { s.enter q e with timer := t }
  else s.enter q e

/-- The minimum, truncated mean and maximum of samples (R267). -/
def triple (l : List Nat) : Nat × Nat × Nat :=
  match l with
  | [] => (0, 0, 0)
  | x :: _ => (l.foldl min x, sumOf l / l.length, l.foldl max 0)

/-! ### Host ports -/

/-- The weights and OVERHEAD of a host port (R541): kept beside its shapers. -/
def hostSched (hp : HostPort) : SchedCfg := { weight := hp.weights, overhead := hp.overhead }

/-- Puts a strand into the injection queues of a host port (R53, R266) (DEDUCED, log 35). -/
def inject (h : Nat) (e : QEnt) (d : Dev) : Dev :=
  let log2 := fld d (CONG + 0x02C) 16 4
  updHost h (fun x => { x with inj := x.inj.timedEnter x.histSel log2 (queueOf e.st.hdr) { e with t0 := d.clk } }) d

/-- A shaping group of a host port (R264). -/
def groupOf (hp : HostPort) (g : Nat) : Shaper := (mget hp.groups g).getD {}

end Sys2Proof.Machine
end

