-- ==== Sys2Proof/Machine/Xlat.lean ====
section
/-! DEFINITION. Address translation: job slots, segments, the page table and its caches, walk windows,
memory regions, the order of the checks, invalidation (R94 to R116). -/

namespace Sys2Proof.Machine

/-- The completion status of the first failed check of R108, at the initiator or at the target. -/
def xlatStatus (order : Nat) (remote : Bool) : Nat :=
  match order with
  | 4 => if remote then 0x21 else 0x13
  | 5 => if remote then 0x22 else 0x12
  | 6 => if remote then 0x26 else 0x14
  | _ => if remote then 0x20 else 0x12

/-- A job slot. -/
def slot? (d : Dev) (s : Nat) : Option JobSlot := mget d.xl.slots s

/-- The job slot of a JOB tag, host port and function (R94). -/
def slotOf (d : Dev) (job : Nat) (f : Func) : Option Nat :=
  (d.xl.slots.find? (fun p => decide (p.2.job = job) && decide (p.2.f = f))).map (·.1)

/-- The job slot of an endpoint (R94). -/
def epSlot (d : Dev) (e : Nat) : Option Nat := (blockOf d e).bind (fun b => slotOf d b.job b.f)

/-- An XLAT instance. -/
def xinst (d : Dev) (k : Nat) : Xlat := (mget d.xl.inst k).getD {}

/-- Changes an XLAT instance. -/
def updInst (k : Nat) (g : Xlat → Xlat) (d : Dev) : Dev :=
  updXl (fun x => { x with inst := mset x.inst k (g (xinst d k)) }) d

/-- The instance of a host port (R94). -/
def instOf (f : Func) : Nat := f.hp.val / 2

/-- Changes an access. -/
def updAcc (id : Nat) (g : Acc → Acc) (d : Dev) : Dev := updXl (fun x => { x with accs := mupd x.accs id g }) d

/-! ### Walk windows -/

/-- May a table read be issued (R105): wholly in an enabled window of the host port, outside its BARs. -/
def walkAllowed (d : Dev) (f : Func) (addr len : Nat) : Bool :=
  let a := XLAT (instOf f) + 0x100 + (f.hp.val % 2) * 0x40
  (List.range 4).any (fun w =>
    let b := (reg d (a + w * 0x10)).toNat
    let l := (reg d (a + 8 + w * 0x10)).toNat
    bitOf b 0 && decide (bitsOf b 12 40 * 4096 ≤ addr) && decide (addr + len ≤ (bitsOf l 12 40 + 1) * 4096))
  && !hitsBar d f.hp addr len

/-! ### Segments and caches -/

/-- What a page translates to: bus address of the 4 KiB page, rights, page size, CONT, and what
answered (1 segment, 2 ATC, 3 walk). -/
structure PageRes where
  bus : Nat
  r : Bool
  w : Bool
  a : Bool
  size : Nat
  cont : Nat
  via : Nat
deriving DecidableEq, Repr, Inhabited

/-- A segment hit (R97). -/
def segHit (s : JobSlot) (page : Nat) : Option PageRes :=
  (s.segs.find? (fun g => g.v && decide (g.iova ≤ page) && decide (page < g.iova + g.size))).map
    (fun g => ⟨g.bus + (page - g.iova), g.r, g.w, g.a, 4096, 0, 1⟩)

/-- An ATC hit (R101). -/
def atcHit (x : Xlat) (slot page : Nat) : Option PageRes :=
  (x.atc.find? (fun p => decide (p.2.slot = slot) && decide (p.2.iova ≤ page) && decide (page < p.2.iova + p.2.size))).map
    (fun p => ⟨p.2.bus + (page - p.2.iova), p.2.r, p.2.w, p.2.a, p.2.page, p.2.cont, 2⟩)

/-- The lowest cached non-leaf entry that leads to a page (R102). -/
def wcHit (x : Xlat) (slot page : Nat) : Option WalkEnt :=
  [1, 2, 3].findSome? (fun l =>
    x.wc.find? (fun e => decide (e.slot = slot) && decide (e.level = l) && decide (e.tag = page >>> (12 + 9 * l))))

/-- Puts an entry into the ATC (R101): a free slot if there is one (which of several is left open), else
the slot that the LFSR names; the LFSR steps at each insertion. -/
def atcInsert (k : Nat) (e : AtcEntry) (d : Dev) : Dev :=
  let (n, d) := fresh d
  let x := xinst d k
  let free := firstFree (fun i => !mhas x.atc ((n + i) % 4096)) (if x.atc.length < 4096 then 4096 else 0) 0
  let i := match free with
    | some i => (n + i) % 4096
    | none => x.lfsr.toNat % 4096
  updInst k (fun x => { x with atc := mset x.atc i e, lfsr := lfsr16 x.lfsr }) d

/-- Puts an entry into the walk cache (R102); which entry gives way in a full cache is left open. -/
def wcInsert (k : Nat) (e : WalkEnt) (d : Dev) : Dev :=
  let (n, d) := fresh d
  updInst k (fun x =>
    { x with wc := (if x.wc.length < 1024 then x.wc else x.wc.eraseIdx (n % x.wc.length)) ++ [e] }) d

/-! ### Walks -/

/-- Issues the read of a walk's next entry, or ends the walk (R103, R105). -/
def walkIssue (k id : Nat) (d : Dev) : Dev :=
  match mget (xinst d k).walks id with
  | none => d
  | some w =>
    match slot? d w.slot with
    | none => push (.walkDone k id) (updInst k (fun x => { x with walks := mupd x.walks id (fun w => { w with fail := 4 }) }) d)
    | some s =>
      let a := w.table + 8 * bitsOf w.page (12 + 9 * w.level) 9
      if walkAllowed d s.f a 8 then hostRead s.f a 8 (.walk k id) d
      else push (.walkDone k id) (raise (srcWin 6 (2 + 2 * k))
        (updInst k (fun x => { x with walks := mupd x.walks id (fun w => { w with fail := 5 }) }) d))

/-- Starts a walk for a page (R102), or finds none can start (R103). -/
def walkStart (k slot page : Nat) (probe : Bool) (d : Dev) : Option Dev :=
  let x := xinst d k
  if x.walks.any (fun p => decide (p.2.slot = slot) && decide (p.2.page = page) && p.2.fail == 0) then some d
  else if 64 ≤ x.walks.length then none
  else
    let id := d.xl.nextWalk
    let w : Walk := match wcHit x slot page with
      | some e => { slot := slot, page := page, level := e.level - 1, table := e.table, r := e.r, w := e.w, a := e.a, probe := probe }
      | none => { slot := slot, page := page, level := 3, table := ((slot? d slot).map (·.root)).getD 0, probe := probe }
    let d := updInst k (fun x => { x with walks := mset x.walks id w }) (updXl (fun x => { x with nextWalk := id + 1 }) d)
    some (walkIssue k id d)

/-! ### Accesses -/

/-- Takes the first `n` bytes of chunks. -/
def takeChunks : Nat → List Chunk → List Chunk
  | _, [] => []
  | n, c :: cs =>
    if n = 0 then []
    else if c.bytes.length ≤ n then c :: takeChunks (n - c.bytes.length) cs
    else [{ c with bytes := c.bytes.take n }]

/-- Drops the first `n` bytes of chunks. -/
def dropChunks : Nat → List Chunk → List Chunk
  | _, [] => []
  | n, c :: cs =>
    if c.bytes.length ≤ n then dropChunks (n - c.bytes.length) cs
    else { c with bytes := c.bytes.drop n } :: cs

/-- Total length of chunks. -/
def chunksLen (cs : List Chunk) : Nat := sumOf (cs.map (·.bytes.length))

/-- The invalidations that waited for an access, a walk or a read no longer do; what is then complete is
put down for its reply, those of one slot in the order received (R111). -/
def invalRelease (g : Inval → Inval) (d : Dev) : Dev :=
  let ivs := d.xl.invals.map g
  let r := ivs.foldl
    (fun (x : List Inval × List Nat × Dev) i =>
      if i.accs = [] ∧ i.walks = [] ∧ i.reads = [] ∧ x.2.1.contains i.slot = false then (x.1, x.2.1, push (.invalDone i.ctx i.op) x.2.2)
      else (x.1 ++ [i], x.2.1 ++ [i.slot], x.2.2))
    ([], [], d)
  updXl (fun x => { x with invals := r.1 }) r.2.2

/-- An access ends: its use proceeds. -/
def accEnd (id : Nat) (res : AccRes) (d : Dev) : Dev :=
  match mget d.xl.accs id with
  | none => d
  | some a =>
    let d := updXl (fun x => { x with accs := mdel x.accs id }) d
    let d := push (.accDone a.use res) d
    if d.xl.invals = [] then d
    else invalRelease (fun i => { i with accs := i.accs.filter (· != id) }) d

/-- An access ends with a failed check (R108). -/
def accFail (id order : Nat) (d : Dev) : Dev :=
  match mget d.xl.accs id with
  | none => d
  | some a => accEnd id { status := xlatStatus order a.remote } d

/-- Every page is translated: the access is made. -/
def accPerform (id : Nat) (d : Dev) : Dev :=
  match mget d.xl.accs id with
  | none => d
  | some a =>
    match a.act with
    | .find => accEnd id { status := 0, pieces := a.pieces, info := a.info } d
    | .write data ro =>
      let r := a.pieces.foldl
        (fun (x : List Chunk × Dev) p =>
          (dropChunks p.2 x.1, hostWriteChunks a.f p.1 (takeChunks p.2 x.1) ro x.2)) (data, d)
      accEnd id { status := if lostFn d a.f then 0x70 else 0, pieces := a.pieces } r.2
    | .read =>
      if a.len = 0 then accEnd id { status := 0 } d
      else hostReadMany a.f a.pieces (.acc id) (updAcc id (fun a => { a with st := .data }) d)

/-- Adds the range of one page to an access, after checks 7 and 8 (R108). -/
def accPage (id : Nat) (p : PageRes) (d : Dev) : Dev ⊕ Dev :=
  match mget d.xl.accs id with
  | none => .inr d
  | some a =>
    let iova := a.iova + a.next
    let n := min (a.len - a.next) (4096 - iova % 4096)
    let bus := p.bus + iova % 4096
    let ok := match a.right with | .r => p.r | .w => p.w | .a => p.a
    if !ok && !a.probe then .inr (accFail id 7 d)
    else if hitsBar d a.f.hp bus n && !a.probe then .inr (accFail id 8 d)
    else
      let pieces := match a.pieces.getLast? with
        | some q => if q.1 + q.2 = bus then a.pieces.dropLast ++ [(q.1, q.2 + n)] else a.pieces ++ [(bus, n)]
        | none => [(bus, n)]
      .inl (updAcc id (fun a => { a with
        next := a.next + n, pieces := pieces
        pages := if p.via = 1 then a.pages else a.pages ++ [iova / 4096 * 4096]
        info := [bus, b2n p.r + 2 * b2n p.w + 4 * b2n p.a, p.size, p.cont, p.via] }) d)

/-- Translates the pages of an access in ascending order until one needs a walk (R97, R103, R108). -/
def accLoop : Nat → Nat → Dev → Dev
  | 0, _, d => d
  | fuel + 1, id, d =>
    match mget d.xl.accs id with
    | none => d
    | some a =>
      if a.len ≤ a.next then accPerform id d
      else
        let iova := a.iova + a.next
        let page := iova / 4096 * 4096
        match a.slot with
        | none => accFail id 4 d
        | some s =>
          match slot? d s with
          | none => accFail id 4 d
          | some js =>
            if 2 ^ 48 ≤ iova then accFail id 4 d
            else
              let k := instOf js.f
              let hit := match segHit js page with
                | some p => some p
                | none => atcHit (xinst d k) s page
              match hit with
              | some p =>
                match accPage id p d with
                | .inl d => accLoop fuel id d
                | .inr d => d
              | none =>
                match walkStart k s page a.probe d with
                | some d => updAcc id (fun a => { a with st := .walk }) d
                | none => updAcc id (fun a => { a with st := .blocked }) d

/-- Enough fuel for every page of an access. -/
def accFuel (a : Acc) : Nat := a.len / 4096 + 3

/-- Continues the translation of an access. -/
def accGo (id : Nat) (d : Dev) : Dev :=
  match mget d.xl.accs id with
  | none => d
  | some a => accLoop (accFuel a) id d

/-- Checks 1 to 3 of R108 on a memory-region entry (R112, R113): the first that fails, or 0. -/
def regionCheck (e : Bytes) (key iova len : Nat) (need : RegionRight) : Nat :=
  let f := leAt e 17 1
  if !bitOf f 0 || leAt e 16 1 != key % 256 || bitsOf f 6 2 != 0 || !allZero (slice e 18 14) then 1
  else if 0 < len ∧ ¬ (leAt e 0 8 ≤ iova ∧ iova + len ≤ leAt e 0 8 + leAt e 8 8) then 2
  else
    let ok := match need with
      | .any => true
      | .localWrite => bitOf f 1
      | .remoteRead => bitOf f 2
      | .remoteWrite => bitOf f 3
      | .remoteAtomic => bitOf f 4
      | .clasp => bitOf f 5
    if ok then 0 else 3

/-- Goes on with an access whose memory-region entry is known. -/
def accRegion (id : Nat) (e : Bytes) (d : Dev) : Dev :=
  match mget d.xl.accs id with
  | none => d
  | some a =>
    match regionCheck e (a.key.getD 0) a.iova a.len a.region with
    | 0 => accGo id d
    | n => accFail id n d

/-- Starts a translated access (R108). A local key of index 0 names no region (R112). -/
def access (a : Acc) (d : Dev) : Dev :=
  let id := d.xl.nextAcc
  let key := match a.key with
    | none => none
    | some k => if k / 256 = 0 ∧ a.remote = false then none else some k
  let a := { a with key := key }
  let d := updXl (fun x => { x with nextAcc := id + 1, accs := mset x.accs id a }) d
  match key with
  | none => accGo id d
  | some k =>
    let idx := k / 256
    if idx = 0 then accFail id 1 d
    else
      match a.slot.bind (slot? d) with
      | none => accFail id 4 d
      | some js =>
        let s := a.slot.getD 0
        if 2 ^ js.m ≤ idx then accFail id 1 d
        else
          match aget d.xl.regions (s, idx) with
          | some e => accRegion id e d
          | none =>
            let addr := js.mrBase + 32 * idx
            if d.xl.regionReads.contains (s, idx) then d
            else if walkAllowed d js.f addr 32 then
              hostRead js.f addr 32 (.region s idx) (updXl (fun x => { x with regionReads := x.regionReads ++ [(s, idx)] }) d)
            else accFail id 5 (raise (srcWin 6 (2 + 2 * instOf js.f)) d)

/-- The accesses that wait for a memory-region entry. -/
def regionWaiters (d : Dev) (s idx : Nat) : List Nat :=
  (d.xl.accs.filter (fun p => decide (p.2.st = .region) && decide (p.2.slot = some s) &&
    decide ((p.2.key.map (· / 256)) = some idx))).map (·.1)

/-- The read of a memory-region entry returns (R107, R108, R114). -/
def regionDone (s idx : Nat) (r : HRead) (d : Dev) : Dev :=
  let ids := regionWaiters d s idx
  let live := d.xl.regionReads.contains (s, idx)
  let d := updXl (fun x => { x with regionReads := x.regionReads.filter (· != (s, idx)) }) d
  if r.status ≠ .ok then
    let d := raise (srcWin 6 (3 + 2 * instOf r.f)) d
    ids.foldl (fun d id => accFail id 6 d) d
  else
    let e := r.bytes
    let d := if bitOf (leAt e 17 1) 0 && live then
        let (n, d) := fresh d
        let old := if d.xl.regions.length < 8192 then d.xl.regions else d.xl.regions.eraseIdx (n % d.xl.regions.length)
        updXl (fun x => { x with regions := aset old (s, idx) e }) d
      else d
    ids.foldl (fun d id => accRegion id e d) d

/-- The accesses that wait for a walk of a page. -/
def walkWaiters (d : Dev) (slot page : Nat) : List Nat :=
  (d.xl.accs.filter (fun p => decide (p.2.st = .walk) && decide (p.2.slot = some slot) &&
    decide ((p.2.iova + p.2.next) / 4096 * 4096 = page))).map (·.1)

/-- A walk is over: it leaves the instance, an access that could not start one may do so, and
invalidations that waited for it proceed (R103, R111). -/
def walkGone (k id : Nat) (d : Dev) : Dev :=
  let d := updInst k (fun x => { x with walks := mdel x.walks id }) d
  let d := if d.xl.invals = [] then d
    else invalRelease (fun i => { i with walks := i.walks.filter (· != (k, id)) }) d
  match d.xl.accs.find? (fun p => decide (p.2.st = .blocked) && decide (instOf p.2.f = k)) with
  | some (a, _) => accGo a d
  | none => d

/-- A walk ends with a failed check (R108). -/
def walkFail (k id order : Nat) (d : Dev) : Dev :=
  match mget (xinst d k).walks id with
  | none => d
  | some w =>
    let ids := walkWaiters d w.slot w.page
    let d := walkGone k id d
    ids.foldl (fun d id => accFail id order d) d

/-- Violates a page-table entry R98 (R99). -/
def formatFault (v level : Nat) : Bool :=
  let leaf := bitOf v 4
  let cont := bitsOf v 8 4
  bitsOf v 5 3 != 0 || (leaf && level == 3) || (!leaf && level == 0) || decide (4 < cont) || (!leaf && cont != 0)
    || (leaf && level == 1 && bitsOf v 12 9 != 0) || (leaf && level == 2 && bitsOf v 12 18 != 0)

/-- A page-table entry has come (R98 to R102, R107): the walk goes a level down, ends at a leaf, or
fails. -/
def walkRead (k id : Nat) (r : HRead) (d : Dev) : Dev :=
  match mget (xinst d k).walks id with
  | none => d
  | some w =>
    if r.status ≠ .ok then walkFail k id 6 (raise (srcWin 6 (3 + 2 * k)) d)
    else
      let v := leNat r.bytes
      if !bitOf v 0 then walkFail k id 4 (updInst k (fun x => { x with notPresent := x.notPresent + 1 }) d)
      else if formatFault v w.level then
        walkFail k id 4 (updInst k (fun x => { x with formatFaults := x.formatFaults + 1 }) d)
      else
        let rr := w.r && bitOf v 1
        let ww := w.w && bitOf v 2
        let aa := w.a && bitOf v 3
        let addr := bitsOf v 12 40 * 4096
        if !bitOf v 4 then
          let d := if w.drop || w.probe then d
            else wcInsert k { slot := w.slot, level := w.level, tag := w.page >>> (12 + 9 * w.level), table := addr, r := rr, w := ww, a := aa } d
          walkIssue k id (updInst k (fun x => { x with walks := mupd x.walks id (fun w =>
            { w with level := w.level - 1, table := addr, r := rr, w := ww, a := aa }) }) d)
        else
          let size := 4096 * 512 ^ w.level
          let cont := bitsOf v 8 4
          let group := size * 2 ^ cont
          let base := w.page / group * group
          let bus := addr + base - w.page / size * size
          let ids := walkWaiters d w.slot w.page
          let d := if w.drop || w.probe then d
            else atcInsert k { slot := w.slot, iova := base, size := group, bus := bus, page := size, cont := cont, r := rr, w := ww, a := aa } d
          let d := walkGone k id d
          ids.foldl (fun d i =>
            match accPage i ⟨bus + (w.page - base), rr, ww, aa, size, cont, 3⟩ d with
            | .inl d => accGo i d
            | .inr d => d) d

/-- The data of an access has come (R390). -/
def accData (id : Nat) (r : HRead) (d : Dev) : Dev :=
  match mget d.xl.accs id with
  | none => d
  | some a =>
    match r.status with
    | .ok => accEnd id { status := 0, data := r.chunks } d
    | .poisoned => accEnd id { status := 0, data := r.chunks } d
    | .hostLost => accEnd id { status := 0x70 } d
    | _ => accEnd id { status := if a.remote then 0x26 else 0x14 } d

/-! ### Dropping cached entries -/

/-- Drops the cached entries whose slot satisfies a test (R104). -/
def xlatDrop (p : Nat → Bool) (d : Dev) : Dev :=
  updXl (fun x => { x with
    inst := mmap x.inst (fun _ i => { i with
      atc := i.atc.filter (fun e => !p e.2.slot), wc := i.wc.filter (fun e => !p e.slot) })
    regions := x.regions.filter (fun e => !p e.1.1) }) d

/-- Drops the cached entries of a host port (R104). -/
def xlatDropHost (h : Nat) (d : Dev) : Dev :=
  let ss := (d.xl.slots.filter (fun p => decide (p.2.f.hp.val = h))).map (·.1)
  xlatDrop (fun s => ss.contains s) d

/-- Does an address range touch a range of pages. -/
def touches (a n lo len : Nat) : Bool := overlaps a n lo len

/-- What R111 makes an invalidation of a slot wait for: the accesses under way that a test selects, every
walk of the slot (whose results are no longer cached) and the atomics that have their word's address. -/
def invalStart (ctx : AdminCtx) (op slot : Nat) (used : Acc → Bool) (d : Dev) : Dev :=
  let accs := (d.xl.accs.filter (fun p => decide (p.2.slot = some slot) && used p.2)).map (·.1)
  let walks := (d.xl.inst.map (fun p => (p.2.walks.filter (fun w => decide (w.2.slot = slot))).map (fun w => (p.1, w.1)))).flatten
  let accs := accs ++ (d.xl.accs.filter (fun p => decide (p.2.slot = some slot) && (decide (p.2.st = .walk) || decide (p.2.st = .blocked))
    && !accs.contains p.1)).map (·.1)
  let reads := (d.reads.filter (fun p => match p.2.use with
    | .atomSer rx _ _ => decide (epSlot d rx.st.hdr.dstEp.toNat = some slot)
    | .atomOp rx _ _ => decide (epSlot d rx.st.hdr.dstEp.toNat = some slot)
    | .atomLoad rx _ _ _ => decide (epSlot d rx.st.hdr.dstEp.toNat = some slot)
    | .atomCas rx _ _ _ _ => decide (epSlot d rx.st.hdr.dstEp.toNat = some slot)
    | _ => false)).map (·.1)
  let d := updXl (fun x => { x with
    inst := mmap x.inst (fun _ i => { i with walks := mmap i.walks (fun _ w => if w.slot = slot then { w with drop := true } else w) })
    invals := x.invals ++ [{ ctx := ctx, op := op, slot := slot, accs := accs, walks := walks, reads := reads }] }) d
  invalRelease id d

/-- Drops the ATC entries of a slot that a range of IOVAs touches, and with `all` its walk-cache entries
too (R110). -/
def invalRange (slot iova len : Nat) (all : Bool) (d : Dev) : Dev :=
  updXl (fun x => { x with inst := mmap x.inst (fun _ i => { i with
    atc := i.atc.filter (fun e => !(decide (e.2.slot = slot) && touches e.2.iova e.2.size iova len))
    wc := if all then i.wc.filter (fun e => !(decide (e.slot = slot) &&
        touches (e.tag <<< (12 + 9 * e.level)) (2 ^ (12 + 9 * e.level)) iova len)) else i.wc }) }) d

/-- Did an access use a translation that is not a segment's, of a page in a range. -/
def usedRange (iova len : Nat) (a : Acc) : Bool :=
  decide (a.st = .data) && a.pages.any (fun p => touches p 4096 iova len)

end Sys2Proof.Machine
end

