-- ==== Sys2Proof/Machine/Xport.lean ====
section
/-! DEFINITION. Braids, generations, windows, acknowledgement, refusals, retransmission and streams
(R214 to R245), with the rate control of a Braid (R250 to R256). -/

namespace Sys2Proof.Machine

/-- The MTU (chapter 02, XPORT.WIRE). -/
def mtu (d : Dev) : Nat := 256 <<< (fld d (XPORT + 0x020) 0 3)

/-- Does a device address name this device (R214). -/
def isSelf (d : Dev) (da : Nat) : Bool := d.rtr.daValid && decide (da = d.rtr.da)

/-- The host port at which an endpoint's traffic is injected: that of its block; HOST[0] when the block is
unassigned (DEDUCED, log 35). -/
def hpOf (d : Dev) (e : Nat) : Nat := ((epFunc d e).map (fun f => f.hp.val)).getD 0

/-- Signed 32-bit difference of two BSNs (R217). -/
def bsnDiff (a b : Nat) : Int := toSigned 32 ((a + 2 ^ 32 - b % 2 ^ 32) % 2 ^ 32)

/-- Signed 24-bit difference of two MSNs. -/
def msnDiff (a b : Nat) : Int := toSigned 24 ((a + 2 ^ 24 - b % 2 ^ 24) % 2 ^ 24)

/-- Is a KIND sequenced (R220), and a strand of it. -/
def sequenced (h : Hdr) : Bool := decide (h.kind.toNat ≤ 10) && h.kind != 1 && h.kind != 9 && !h.unseq

/-! ### Rate of a Braid -/

/-- The start values of a Braid's rate (R253). -/
def rateStart (d : Dev) (s : SendHalf) : SendHalf :=
  { s with rate := fld d (CONG + 0x020) 0 12, alpha := 1024, rBefore := fld d (CONG + 0x020) 0 12,
           lastCut := (d.clk : Int) - 1000000000, lastEvent := (d.clk : Int) - 1000000000 }

/-- The cut interval in ns (R250). -/
def cutInterval (d : Dev) (s : SendHalf) : Nat := max (s.srtt.getD 0) (fld d (CONG + 0x024) 24 8 * 1000)

/-- An echo of marks acts on the rate (R251). -/
def rateEcho (d : Dev) (s : SendHalf) : SendHalf :=
  let g := fld d (CONG + 0x020) 28 4
  let s := { s with lastEvent := d.clk, aiAt := d.clk }
  if (cutInterval d s : Int) ≤ d.clk - s.lastCut then
    let a := s.alpha - (s.alpha >>> g) + (1024 >>> g)
    { s with alpha := a, rBefore := s.rate, rate := max 10 (s.rate * (2048 - a) / 2048), lastCut := d.clk }
  else s

/-- A trim notice or a retransmission timeout acts on the rate (R251). -/
def rateCut (d : Dev) (s : SendHalf) : SendHalf :=
  let s := { s with lastEvent := d.clk, aiAt := d.clk }
  if (cutInterval d s : Int) ≤ d.clk - s.lastCut then
    { s with rBefore := s.rate, rate := max 10 (s.rate / 2), lastCut := d.clk }
  else { s with rate := max 10 (min s.rate (s.rBefore / 2)) }

/-- One firing of the increase timer (R252). -/
def rateIncrease (d : Dev) (s : SendHalf) : SendHalf :=
  let g := fld d (CONG + 0x020) 28 4
  let s := { s with alpha := s.alpha - (s.alpha >>> g), aiAt := d.clk }
  let by_ := if (fld d (CONG + 0x024) 8 8 * 10000 : Nat) ≤ (d.clk : Int) - s.lastEvent then fld d (CONG + 0x020) 20 8
    else fld d (CONG + 0x020) 12 8
  { s with rate := min 4000 (s.rate + by_) }

/-- A rate that is no longer 10 lets the rate-floor source be raised again (R255). -/
def floorCheck (d : Dev) (s : SendHalf) : SendHalf :=
  if s.rate = 10 then (if s.floorSince.isNone then { s with floorSince := some d.clk } else s)
  else { s with floorSince := none, floorRaised := false }

/-- Changes the rate state of a Braid. -/
def updRate (da : Nat) (vn : Bool) (g : Dev → SendHalf → SendHalf) (d : Dev) : Dev :=
  updSend da vn (fun s => floorCheck d (g d s)) d

/-! ### Operations -/

/-- The stream of an operation. -/
def Op.key (o : Op) : StreamKey := ⟨o.ep, BitVec.ofNat 17 o.dst, o.dstEp, o.ord⟩

/-- Enters a Braid in the calendar (R257). -/
def calEnter (da : Nat) (vn : Bool) (d : Dev) : Dev :=
  if d.xp.cal.contains (da, vn) then d else updXp (fun x => { x with cal := x.cal ++ [(da, vn)] }) d

/-- A peer entry leaves CLOSED (R216, R253). -/
def openPeer (da : Nat) (d : Dev) : Dev :=
  let p := peer d da
  if p.state = .closed then
    updPeer da (fun p =>
      { p with state := .opened
               txGen := some (match p.txGen with
                 | none => d.xp.incarnation
                 | some g => (g + 1) % 256)
               req := rateStart d { p.req with next := 0 }
               rsp := rateStart d { p.rsp with next := 0 } }) d
  else d

/-- The VN on which a KIND's strands of a header travel (R220). -/
def braidVn (h : Hdr) : Bool := vnOf h

/-- Queues a strand's content on its Braid (R256). -/
def enqueue (da : Nat) (vn : Bool) (q : Queued) (d : Dev) : Dev :=
  let d := openPeer da d
  let s := sendHalf (peer d da) vn
  let d := if s.queue = [] ∧ s.unacked = [] then updSend da vn (fun s => { s with aiAt := d.clk }) d else d
  calEnter da vn (updSend da vn (fun s => { s with queue := s.queue ++ [q] }) d)

/-- A content with its payload goes to its Braid, or is handed over inside the device (R214). -/
def contentGo (cid : Nat) (h : Hdr) (data : List Chunk) (d : Dev) : Dev :=
  if isSelf d h.dstDa.toNat then
    push (.arrive { st := mkStrand h data, self := some cid }) (updContent cid (fun c => { c with sent := true }) d)
  else enqueue h.dstDa.toNat (braidVn h) { cid := cid, data := data } d

/-- Is a content one that takes its turn in its stream: a strand of VN_REQ that is not sent again (R223). -/
def takesTurn (c : Content) : Bool := !vnOf c.hdr && !c.hdr.resend

/-- Does a content that takes its turn still wait for its payload or its turn. -/
def turnOpen (d : Dev) (cid : Nat) (c : Content) : Bool :=
  takesTurn c && !c.sent && !c.refused && !c.dead
    && !(sendHalf (peer d c.hdr.dstDa.toNat) false).queue.any (fun q => decide (q.cid = cid))

/-- Does an earlier strand of a stream, of the same message or of one before, still wait for its payload or its turn
(R223) (DEDUCED, log 89). -/
def awaitsTurn (d : Dev) (k : StreamKey) (cid : Nat) : Bool :=
  d.xp.contents.any (fun p => decide (p.1 < cid) && decide (p.2.hdr.txKey = k) && turnOpen d p.1 p.2)

/-- Contents of a stream whose turn has come go. `fuel` bounds them (DEDUCED, log 89). -/
def turnGo (k : StreamKey) : Nat → Dev → Dev
  | 0, d => d
  | fuel + 1, d =>
    match d.xp.held.find? (fun q => (content? d q.cid).any (fun c => decide (c.hdr.txKey = k)) && !awaitsTurn d k q.cid) with
    | none => d
    | some q =>
      let d := updXp (fun x => { x with held := x.held.filter (fun r => r.cid != q.cid) }) d
      turnGo k fuel (match content? d q.cid with | some c => contentGo q.cid c.hdr q.data d | none => d)

/-- All contents of a stream whose turn has come go. -/
def turnCome (k : StreamKey) (d : Dev) : Dev := turnGo k d.xp.held.length d

/-- A message of a stream is acknowledged (R233). -/
def msgAcked (k : StreamKey) (msn : Nat) (d : Dev) : Dev :=
  match aget d.xp.sendRecs k with
  | none => d
  | some r =>
    let r := { r with unacked := r.unacked.filter (· != msn), used := d.clk }
    updXp (fun x => { x with sendRecs := aset x.sendRecs k r }) d

/-- The message of a header is acknowledged if nothing of it is still to be sent or acknowledged
(R233). -/
def msgCheck (h : Hdr) (d : Dev) : Dev :=
  if vnOf h then d
  else
    let k := h.txKey
    let more := d.xp.contents.any (fun p => !vnOf p.2.hdr && decide (p.2.hdr.msn = h.msn) && decide (p.2.hdr.txKey = k))
    let unsent := d.xp.ops.any (fun p => p.2.state == .running && decide (p.2.msn = h.msn.toNat) && decide (p.2.key = k)
      && p.2.parts.any (fun q => !q.sent))
    if more || unsent then d else msgAcked k h.msn.toNat d

/-- Removes a content. One that has not been sent holds up its stream no longer (DEDUCED, log 89). -/
def dropContent (cid : Nat) (d : Dev) : Dev :=
  match content? d cid with
  | none => d
  | some c =>
    let d := msgCheck c.hdr (updXp (fun x => { x with contents := mdel x.contents cid
                                                      retained := x.retained.filter (fun r => r.cid != cid) }) d)
    if !c.sent && takesTurn c then turnCome c.hdr.txKey d else d

/-- Takes contents that have not been sent out of every queue (R229). -/
def unqueue (cids : List Nat) (d : Dev) : Dev :=
  let cut (s : SendHalf) : SendHalf := { s with queue := s.queue.filter (fun q => !cids.contains q.cid) }
  updXp (fun x => { x with backoff := x.backoff.filter (fun c => !cids.contains c)
                           trimmed := x.trimmed.filter (fun c => !cids.contains c)
                           held := x.held.filter (fun q => !cids.contains q.cid)
                           peers := mmap x.peers (fun _ p => { p with req := cut p.req, rsp := cut p.rsp }) }) d

/-- An operation's condition is met with a status: after a failure its strands not yet sent are not sent
(R229), and it waits for its turn to complete (R238). -/
def opEnd (o status : Nat) (d : Dev) : Dev :=
  match op? d o with
  | none => d
  | some x =>
    if x.state = .met then d
    else
      let st := if x.localStatus ≠ 0 then x.localStatus else status
      let d := updOp o (fun x => { x with state := .met, status := st }) d
      let d := if 4 ≤ st then
          let unsent := (d.xp.contents.filter (fun p => decide (p.2.op = some o) && !p.2.sent)).map (·.1)
          let cut (c : Content) : Content := if c.op = some o then { c with op := none, dead := true } else c
          let d := updXp (fun y => { y with contents := mmap y.contents (fun _ c => cut c) }) d
          unsent.foldl (fun d c => dropContent c d) (unqueue unsent d)
        else d
      push (.opMet o) d

/-! ### Sending -/

/-- A new content. -/
def newContent (c : Content) (d : Dev) : Nat × Dev :=
  (d.xp.nextCid, updXp (fun x => { x with contents := mset x.contents x.nextCid c, nextCid := x.nextCid + 1 }) d)

/-- A poisoned payload marks its operation, which then completes with OK_POISONED (R389). -/
def opPoison (c : Content) (data : List Chunk) (d : Dev) : Dev :=
  match c.op with
  | some o => if data.any (·.poison) then updOp o (fun x => { x with poison := true }) d else d
  | none => d

/-- The payload of a content has come: the content goes where it is bound for in its turn. -/
def contentReady (cid : Nat) (data : List Chunk) (d : Dev) : Dev :=
  match content? d cid with
  | none => d
  | some c =>
    let d := opPoison c data d
    if takesTurn c then
      if awaitsTurn d c.hdr.txKey cid then updXp (fun x => { x with held := x.held ++ [{ cid := cid, data := data }] }) d
      else turnCome c.hdr.txKey (contentGo cid c.hdr data d)
    else contentGo cid c.hdr data d

/-- Reads a payload from its source in host memory (R223, R231). -/
def readPay (src : PaySrc) (use : Use) (d : Dev) : Dev :=
  match src with
  | .mem slot f key iova len =>
    access { slot := slot, f := f, key := key, remote := false, iova := iova, len := len,
             right := .r, region := .any, act := .read, use := use } d
  | .elems slot f key addr len bus _ _ =>
    if bus then hostRead f addr len use d
    else access { slot := slot, f := f, key := key, remote := false, iova := addr, len := len,
                  right := .r, region := .any, act := .read, use := use } d
  | _ => d

/-- The bytes of a source to be read: none where its payload is at hand. -/
def PaySrc.range (s : PaySrc) : Option (Func × Nat) :=
  match s with
  | .mem _ f _ _ len => if len = 0 then Option.none else some (f, len)
  | .elems _ f _ _ len _ _ _ => if len = 0 then Option.none else some (f, len)
  | _ => Option.none

/-- The payload at hand. -/
def PaySrc.chunks (s : PaySrc) : List Chunk :=
  match s with
  | .bytes cs => cs
  | _ => []

/-- The payload as it is sent: elements of a view in EXACT and BINNED mode become carriers (R197). -/
def PaySrc.wire (s : PaySrc) (cs : List Chunk) : List Chunk :=
  match s with
  | .elems _ _ _ _ _ bus t mode => if bus then cs else wireChunks 1 t mode cs
  | _ => cs

/-- A content's peer is unreachable: it is not sent, and its operation ends (R215). -/
def contentUnreachable (cid : Nat) (d : Dev) : Dev :=
  match content? d cid with
  | none => d
  | some c =>
    let d := dropContent cid d
    match c.op with
    | some o => opEnd o 0x30 d
    | none => d

/-- Gets a content's payload, then queues it. -/
def sendContent (cid : Nat) (d : Dev) : Dev :=
  match content? d cid with
  | none => d
  | some c =>
    if (peer d c.hdr.dstDa.toNat).state = .unreachable ∧ isSelf d c.hdr.dstDa.toNat = false then contentUnreachable cid d
    else
      match c.src.range with
      | none => contentReady cid c.src.chunks d
      | some _ => readPay c.src (.pay cid) d

/-- The messages of a stream before one that are not acknowledged (R221, R233). -/
def depOf (d : Dev) (h : Hdr) : Nat :=
  if h.unord || vnOf h then 0
  else
    match aget d.xp.sendRecs ⟨h.srcEp.toNat, h.dstDa, h.dstEp.toNat, h.ord.toNat⟩ with
    | none => 0
    | some r => min 7 (r.unacked.filter (fun m => decide (msnDiff m h.msn.toNat < 0))).length

/-- The header of a content as it is built at release (R216, R221, R223, R246, R288) (DEDUCED, log 34). -/
def buildHdr (d : Dev) (c : Content) (bsn : Nat) : Hdr :=
  let h := c.hdr
  let p := peer d h.dstDa.toNat
  let dep := if c.sent then h.dep else depOf d h
  { h with
    bsn := BitVec.ofNat 32 bsn
    bgen := BitVec.ofNat 8 (p.txGen.getD 0)
    flags := mkFlags h.mlast dep h.durable h.resend h.unord false
    ce := if bitOf (fld d (CONG + 0x028) 8 4) h.tc.toNat then 1 else 0
    ttl := BitVec.ofNat 5 (fld d (XPORT + 0x020) 8 5)
    defl := 0
    epoch := d.rtr.inj }

/-- The wire size of a strand (R256). -/
def wireSize (h : Hdr) : Nat := 66 * (1 + (if h.trim then 0 else ceilDiv h.len.toNat 64))

/-- The next due time of a Braid after a release (R256), in 1/1000 ns. -/
def nextDue (d : Dev) (s : SendHalf) (h : Hdr) : Nat :=
  max s.due ((d.clk - 1000) * 1000) + wireSize h * 80000 / max 1 s.rate

/-- The oldest unacknowledged BSN limits the next one (R223). -/
def bsnRoom (s : SendHalf) : Bool :=
  match s.unacked.head? with
  | none => true
  | some u => decide (bsnDiff s.next u.bsn < 2048)

/-- Releases the head of a Braid's queue (R223, R256, R258, R265): it takes its BSN, unless it keeps one,
and enters its host port's injection queue. -/
def releaseHead (da : Nat) (vn : Bool) (d : Dev) : Dev :=
  let s := sendHalf (peer d da) vn
  match s.queue with
  | [] => d
  | q :: rest =>
    match content? d q.cid with
    | none => updSend da vn (fun s => { s with queue := rest }) d
    | some c =>
      let bsn := q.bsn.getD s.next
      let h0 := buildHdr d c bsn
      let h := if q.headOnly then { h0 with trim := true } else h0
      let hp := host d c.hp
      let g := match ep? d c.ep with | some e => e.group | none => 0
      let l := chargeLen h hp.overhead
      let d := updHost c.hp (fun x => { x with groups := mset x.groups g ((groupOf x g).charge d.clk l) }) d
      let due := nextDue d s h
      let d := updSend da vn (fun s => { s with queue := rest, due := due }) d
      let d := match q.bsn with
        | some b => updSend da vn (fun s => { s with unacked := s.unacked.map (fun u =>
            if u.bsn = b then { u with j := u.j + 1, t0 := d.clk, once := false } else u) }) d
        | none => updSend da vn (fun s => { s with next := (s.next + 1) % 2 ^ 32
                                                   unacked := s.unacked ++ [{ bsn := bsn, cid := q.cid, t0 := d.clk }] }) d
      let d := updContent q.cid (fun c => { c with sent := true, hdr := { c.hdr with flags := h.flags } }) d
      let d := match c.op with
        | some o => updOp o (fun x => { x with begun := true }) d
        | none => d
      inject c.hp { st := mkStrand h (if h.trim then [] else q.data), cells := cellsOf h, again := q.bsn.isSome || h.resend } d

/-- May the head of a Braid's queue be released now: pacing, BSN room, shaping group (R223, R256, R257). -/
def mayRelease (d : Dev) (da : Nat) (vn : Bool) : Bool :=
  let s := sendHalf (peer d da) vn
  match s.queue with
  | [] => false
  | q :: _ =>
    let slotNs := max 1 (fld d (CONG + 0x028) 0 8)
    decide (s.due / 1000 / slotNs ≤ d.clk / slotNs) && (q.bsn.isSome || bsnRoom s) &&
      match content? d q.cid with
      | none => true
      | some c => (groupOf (host d c.hp) (match ep? d c.ep with | some e => e.group | none => 0)).permits d.clk

/-- A calendar slot comes due (R257): its Braids are examined in the order of their entry, each releases
one strand if it may, and those with more to send stay entered. -/
def calendarSlot (d : Dev) : Dev :=
  if frozen d then d else
  let order := d.xp.cal
  let d := updXp (fun x => { x with cal := [] }) d
  order.foldl (fun d b =>
    let d := if mayRelease d b.1 b.2 then releaseHead b.1 b.2 d else d
    if (sendHalf (peer d b.1) b.2).queue = [] then d else calEnter b.1 b.2 d) d

/-- The sending record of an operation's stream gives it an MSN (R233, R239): none when the stream has 8
messages not acknowledged, or no record is free (DEDUCED, log 49). -/
def takeMsn (o : Nat) (d : Dev) : Option Dev :=
  match op? d o with
  | none => none
  | some x =>
    match aget d.xp.sendRecs x.key with
    | some r =>
      if 8 ≤ r.unacked.length then none
      else some (updOp o (fun x => { x with msn := r.next }) (updXp (fun y => { y with
        sendRecs := aset y.sendRecs x.key { r with next := (r.next + 1) % 2 ^ 24, order := r.order ++ [o], unacked := r.unacked ++ [r.next], used := d.clk } }) d))
    | none =>
      if 65536 ≤ d.xp.sendRecs.length + d.xp.recvRecs.length then none
      else
        let (n, d) := fresh d
        some (updOp o (fun x => { x with msn := 0 }) (updXp (fun y => { y with
          sendRecs := aset y.sendRecs x.key { next := 1, entropy := n % 65536, order := [o], unacked := [0], used := d.clk } }) d))

/-- Does an operation complete when its strands are acknowledged (R121): the DATA operations that are not
rendezvous. -/
def completesOnAck (o : Op) : Bool :=
  !o.rndv && (o.code == 0x01 || o.code == 0x02 || o.code == 0x04 || o.code == 0x08 || o.code == 0x09
    || o.code == 0x0C || o.code == 0xF0 || o.code == 0xF1)

/-- A content is acknowledged for good: its operation has one strand fewer to wait for; a refusal's
acknowledgement settles what it refused (R225). -/
def contentAcked (cid : Nat) (d : Dev) : Dev :=
  match content? d cid with
  | none => d
  | some c =>
    let d := dropContent cid d
    let d := match c.refuses with
      | some (da, bsn, vn, imm) => push (.settleStrand { st := { hdr := { srcDa := BitVec.ofNat 17 da, bsn := BitVec.ofNat 32 bsn, vn := vn, dstEp := BitVec.ofNat 20 c.ep, flags := if imm then 1 else 0 } } }) d
      | none => d
    match c.op with
    | none => d
    | some o =>
      match op? d o with
      | none => d
      | some x =>
        let left := x.left - 1
        let d := updOp o (fun x => { x with left := left }) d
        if left = 0 ∧ completesOnAck x = true then opEnd o (if x.poison then 1 else 0) d else d

/-- Removes an unacknowledged strand that an ACK covers (R225): its content is acknowledged, unless the
strand was refused. -/
def strandAcked (da : Nat) (vn : Bool) (u : Unacked) (d : Dev) : Dev :=
  let d := updSend da vn (fun s => { s with unacked := s.unacked.filter (fun w => w.bsn != u.bsn)
                                            queue := s.queue.filter (fun q => q.bsn != some u.bsn) }) d
  if u.refused then
    match content? d u.cid with
    | some c => if c.dead && !c.refused then dropContent u.cid d else d
    | none => d
  else contentAcked u.cid d

/-- The RTT sample of an ACK (R230). -/
def rttSample (d : Dev) (imm : Bool) (us : List Unacked) (s : SendHalf) : SendHalf :=
  match us.find? (fun u => u.once) with
  | some u =>
    if imm then
      let x := d.clk - u.t0
      { s with srtt := some (match s.srtt with | none => x | some r => (7 * r + x) / 8) }
    else s
  | none => s

/-- The retransmission timeout in ns (R230). -/
def rto (d : Dev) (s : SendHalf) : Nat :=
  let lo := fld d (XPORT + 0x028) 0 7 * 1000
  let hi := fld d (XPORT + 0x028) 8 8 * 1000
  match s.srtt with
  | none => 4 * lo
  | some r => min hi (max lo (4 * r))

/-- Counts a strand discarded for its generation (R218) (DEDUCED, log 49). -/
def genDrop (d : Dev) : Dev := updXp (fun x => { x with genDrops := x.genDrops + 1 }) d

/-- Has the send half not yet sent a BSN (R218). -/
def notYetSent (s : SendHalf) (bsn : Nat) : Bool := decide (0 ≤ bsnDiff bsn s.next)

/-- An ACK arrives (R218, R226, R230, R231, R251). -/
def ackArrive (h : Hdr) (d : Dev) : Dev :=
  let da := h.srcDa.toNat
  let p := peer d da
  if p.txGen ≠ some h.bgen.toNat ∨ p.state ≠ .opened then genDrop d
  else
    let vn := bitOf h.opw.toNat 69
    let s := sendHalf p vn
    let cum := h.bsn.toNat
    let blk := h.opwf 64 5
    let named := (List.range 64).any (fun i => bitOf h.opw.toNat i && notYetSent s ((cum + 1 + 64 * blk + i) % 2 ^ 32))
      || (bitOf h.opw.toNat 71 && notYetSent s (h.opwf 80 32))
    if 0 < bsnDiff cum s.next ∨ named = true then push (.restart da false) d
    else
      let covered (u : Unacked) : Bool :=
        decide (bsnDiff u.bsn cum < 0) ||
          (let i := bsnDiff u.bsn cum - 1 - 64 * blk
           decide (0 ≤ i) && decide (i < 64) && bitOf h.opw.toNat i.toNat)
      let us := s.unacked.filter covered
      let d := updSend da vn (rttSample d (bitOf h.opw.toNat 70) us) d
      let d := us.foldl (fun d u => strandAcked da vn u d) d
      let d := if bitOf h.opw.toNat 71 then
          updSend da vn (fun s => { s with unacked := s.unacked.map (fun u =>
            if u.bsn = h.opwf 80 32 then { u with j := 0, t0 := d.clk, once := false } else u) }) d
        else d
      if 0 < h.opwf 72 8 then updRate da vn rateEcho d else d

/-- A content refused as not ready is sent again after a backoff, or its operation ends (R241). -/
def contentNotReady (cid : Nat) (d : Dev) : Dev :=
  match content? d cid with
  | none => d
  | some c =>
    if c.dead then d
    else if fld d (XPORT + 0x028) 24 4 < c.nr + 1 then
      let d := updContent cid (fun c => { c with nr := c.nr + 1, dead := true, refused := false }) d
      match c.op with
      | some o => opEnd o 0x24 d
      | none => d
    else
      let d := updContent cid (fun c => { c with nr := c.nr + 1, refused := true, sent := false }) d
      updXp (fun x => { x with backoff := x.backoff ++ [cid] }) d

/-- A content was trimmed and is sent again within 2 µs, or its operation ends (R243). -/
def contentTrimmed (cid : Nat) (d : Dev) : Dev :=
  match content? d cid with
  | none => d
  | some c =>
    if c.dead then d
    else if 8 ≤ c.trims + 1 then
      let d := updContent cid (fun c => { c with trims := c.trims + 1, dead := true, refused := false }) d
      match c.op with
      | some o => opEnd o 0x31 d
      | none => d
    else
      let d := updContent cid (fun c => { c with trims := c.trims + 1, refused := true, sent := false }) d
      updXp (fun x => { x with trimmed := x.trimmed ++ [cid] }) d

/-- A content is refused for good (R229). -/
def contentRefused (cid status : Nat) (d : Dev) : Dev :=
  match content? d cid with
  | none => d
  | some c =>
    let d := updContent cid (fun c => { c with dead := true, refused := false }) d
    match c.op with
    | some o => opEnd o status d
    | none => d

/-- Content sent again under a new BSN (R223): RESEND is set and its payload is read again. -/
def resend (cid : Nat) (d : Dev) : Dev :=
  match content? d cid with
  | none => d
  | some c =>
    if !c.refused || c.dead then d
    else
      let h := { c.hdr with flags := mkFlags c.hdr.mlast c.hdr.dep c.hdr.durable true c.hdr.unord false }
      sendContent cid (updContent cid (fun c => { c with hdr := h, refused := false, sent := false }) d)

/-- The unacknowledged strand that a refusal names (R228). -/
def refusedStrand (d : Dev) (da : Nat) (h : Hdr) : Option Unacked :=
  (sendHalf (peer d da) (bitOf h.opw.toNat 32)).unacked.find? (fun u => decide (u.bsn = h.opwf 0 32))

/-- Marks a strand as refused (DEDUCED, log 36). -/
def markRefused (da : Nat) (vn : Bool) (bsn : Nat) (d : Dev) : Dev :=
  updSend da vn (fun s => { s with unacked := s.unacked.map (fun u => if u.bsn = bsn then { u with refused := true } else u) }) d

/-! ### The receive half -/

/-- Advances BASE over the settled strands at the bottom of the window (R224). -/
def advanceBase : Nat → RecvHalf → RecvHalf
  | 0, h => h
  | fuel + 1, h =>
    if h.bits.contains h.base then
      advanceBase fuel { h with bits := h.bits.filter (· != h.base), base := (h.base + 1) % 2 ^ 32 }
    else h

/-- Windows taken from the pool (R224). -/
def windowsUsed (d : Dev) : Nat :=
  sumOf (d.xp.peers.map (fun p => b2n p.2.rxReq.window + b2n p.2.rxRsp.window))

/-- Is a strand of a Braid held parked (R242). -/
def parkedBsn (d : Dev) (da : Nat) (vn : Bool) (bsn : Nat) : Bool :=
  d.ept.parked.any (fun p => decide (p.rx.st.hdr.srcDa.toNat = da) && (vnOf p.rx.st.hdr == vn) &&
    decide (p.rx.st.hdr.bsn.toNat = bsn) && p.rx.self.isNone)

/-- Does a receive half still need its window (R224). -/
def windowNeeded (d : Dev) (da : Nat) (vn : Bool) (h : RecvHalf) : Bool :=
  h.bits != [] || h.held.any (fun b => b != h.base || parkedBsn d da vn b)

/-- Sends an ACK of a receive half (R226, R227) (DEDUCED, log 34). -/
def sendAck (da : Nat) (vn : Bool) (hp : Nat) (imm : Bool) (pend : Option Nat) (d : Dev) : Dev :=
  let h := recvHalf (peer d da) vn
  let blk := if 0 < bsnDiff h.last h.base then ((bsnDiff h.last h.base).toNat - 1) / 64 else 0
  let sack := (List.range 64).foldl (fun v i =>
    if h.bits.contains ((h.base + 1 + 64 * blk + i) % 2 ^ 32) then v + 2 ^ i else v) 0
  let opw := sack + blk * 2 ^ 64 + b2n vn * 2 ^ 69 + b2n imm * 2 ^ 70 + b2n pend.isSome * 2 ^ 71
    + min 255 h.ece * 2 ^ 72 + (pend.getD 0) * 2 ^ 80
  let (n, d) := fresh d
  let hdr : Hdr :=
    { kind := 1, vn := true, dstDa := BitVec.ofNat 17 da, srcDa := BitVec.ofNat 17 d.rtr.da, bsn := BitVec.ofNat 32 h.base,
      bgen := BitVec.ofNat 8 (peer d da).rxGen, flags := 0x80, opw := BitVec.ofNat 128 opw,
      ttl := BitVec.ofNat 5 (fld d (XPORT + 0x020) 8 5), epoch := d.rtr.inj, entropy := BitVec.ofNat 16 n }
  let d := updRecv da vn (fun h => { h with sinceAck := 0, ece := 0 }) d
  inject hp { st := mkStrand hdr [], cells := 1 } d

/-- Is a strand for the core landing queue (R275). -/
def coreLanding (d : Dev) (h : Hdr) : Bool :=
  [1, 2, 3, 9, 10].contains h.kind.toNat || (blockOf d h.dstEp.toNat).isNone

/-- Puts beads of a host port down to a class of its slot accounts, toward the router core or toward the host (R532). -/
def hostAcct (hp : Nat) (dlv : Bool) (k beads : Nat) (d : Dev) : Dev :=
  let t : Int := 132 * beads
  countBy (HOSTB hp + (if dlv then 0x260 else 0x240) + 8 * k) beads
    (updHost hp (fun x => if dlv then { x with slotDlv := x.slotDlv + t } else { x with slotInj := x.slotInj + t }) d)

/-- The beads of a strand that landed at a host port are placed, or discarded (R532). -/
def landAcct (k : Nat) (st : Strand) (d : Dev) : Dev :=
  if coreLanding d st.hdr then d else hostAcct (hpOf d st.hdr.dstEp.toNat) true k (1 + st.beads.length) d

/-- An accepted strand settles (R225, R227): its bit is set, BASE advances, the window goes back if
nothing needs it, and an ACK is sent when one is due. A strand of the own DA acknowledges its content. -/
def settleQuiet (rx : Rx) (d : Dev) : Dev :=
  match rx.self with
  | some cid => contentAcked cid d
  | none =>
    let h := rx.st.hdr
    let da := h.srcDa.toNat
    let vn := vnOf h
    let r := recvHalf (peer d da) vn
    let bsn := h.bsn.toNat
    if !r.synced || !r.held.contains bsn then d
    else
      let d := updRecv da vn (fun r =>
        let r := advanceBase 2049 { r with bits := bsn :: r.bits, held := r.held.filter (· != bsn), last := bsn, sinceAck := r.sinceAck + 1 }
        { r with window := r.window && windowNeeded d da vn r }) d
      if h.mlast || h.resend then sendAck da vn (hpOf d h.dstEp.toNat) true none d
      else if fld d (XPORT + 0x024) 0 6 ≤ (recvHalf (peer d da) vn).sinceAck then
        sendAck da vn (hpOf d h.dstEp.toNat) false none d
      else d

/-- A strand is settled with all it does (DEDUCED, log 36). -/
def settle (rx : Rx) (d : Dev) : Dev := settleQuiet rx (if rx.self.isNone then landAcct 0 rx.st d else d)

/-- What R217 makes of an arriving sequenced strand. -/
inductive RxClass where
  | discard | adopt | resync | duplicate | far | accept
deriving DecidableEq, Repr, Inhabited

/-- The classification of R217 (DEDUCED, log 36). -/
def classify (d : Dev) (h : Hdr) : RxClass :=
  let p := peer d h.srcDa.toNat
  let r := recvHalf p (vnOf h)
  let bsn := h.bsn.toNat
  let young := match p.adopted with | some t => decide (d.clk < t + 100000) | none => false
  if p.state = .unreachable then .discard
  else if !r.synced || p.rxGen != h.bgen.toNat then
    (if young then .discard else if bsn < 2048 then .adopt else .resync)
  else
    let x := bsnDiff bsn r.base
    if x < 0 ∨ r.bits.contains bsn = true ∨ r.held.contains bsn = true then .duplicate
    else if 2048 ≤ x then .far
    else .accept

/-- Adopts the generation of a peer (R217, order 3). -/
def adoptGen (da gen : Nat) (d : Dev) : Dev :=
  updPeer da (fun p => { p with
    rxGen := gen, adopted := some d.clk
    rxReq := { synced := true }, rxRsp := { synced := true } }) d

/-- Accepts a strand into the window (R224): none when it needs a window and the pool is empty. -/
def acceptStrand (h : Hdr) (d : Dev) : Option Dev :=
  let da := h.srcDa.toNat
  let vn := vnOf h
  let r := recvHalf (peer d da) vn
  let bsn := h.bsn.toNat
  let ahead := decide (bsn ≠ r.base)
  if ahead && !r.window && decide (16384 ≤ windowsUsed d) then none
  else
    let d := updRecv da vn (fun r => { r with
      held := r.held ++ [bsn], window := r.window || ahead
      ece := if h.ce = 3 then min 255 (r.ece + 1) else r.ece }) d
    some (if ahead then sendAck da vn (hpOf d h.dstEp.toNat) true none d else d)

/-- Sends a RESYNC NACK (R217, R228). -/
def sendResync (h : Hdr) (d : Dev) : Dev :=
  let (n, d) := fresh d
  let hdr : Hdr :=
    { kind := 2, vn := true, dstDa := h.srcDa, srcDa := BitVec.ofNat 17 d.rtr.da, dstEp := h.srcEp, srcEp := h.dstEp,
      bgen := h.bgen, flags := 0x80, entropy := BitVec.ofNat 16 n,
      opw := BitVec.ofNat 128 (h.bsn.toNat + b2n (vnOf h) * 2 ^ 32 + 2 ^ 33 + 4 * 2 ^ 40),
      ttl := BitVec.ofNat 5 (fld d (XPORT + 0x020) 8 5), epoch := d.rtr.inj }
  inject (hpOf d h.dstEp.toNat) { st := mkStrand hdr [], cells := 1 } d

/-! ### Messages in progress -/

/-- Stream records in use (R233). -/
def streamsUsed (d : Dev) : Nat := d.xp.sendRecs.length + d.xp.recvRecs.length

/-- Is a message of a record in progress. -/
def RecvRec.msg (r : RecvRec) (msn : Nat) : Option RxMsg := mget r.msgs msn

/-- The receiving record and message of a strand, created if need be (R234): none where the strand is
refused as not ready. A message already released has no entry and needs none (DEDUCED, log 38). -/
def openMsg (h : Hdr) (d : Dev) : Option Dev :=
  let k := h.rxKey
  let n := h.msn.toNat
  match aget d.xp.recvRecs k with
  | none =>
    if 65536 ≤ streamsUsed d then none
    else
      let r : RecvRec := { next := (n + 2 ^ 24 - h.dep) % 2 ^ 24, msgs := [(n, { hdr := h })], used := d.clk, unord := h.unord }
      some (updXp (fun x => { x with recvRecs := aset x.recvRecs k r }) d)
  | some r =>
    if mhas r.msgs n || (!h.unord && decide (msnDiff n r.next < 0)) then
      some (updXp (fun x => { x with recvRecs := aset x.recvRecs k { r with used := d.clk } }) d)
    else if 8 ≤ r.msgs.length then none
    else some (updXp (fun x => { x with recvRecs := aset x.recvRecs k { r with msgs := mset r.msgs n { hdr := h }, used := d.clk } }) d)

/-- Changes the message of a strand. -/
def updMsg (h : Hdr) (g : RxMsg → RxMsg) (d : Dev) : Dev :=
  match aget d.xp.recvRecs h.rxKey with
  | none => d
  | some r => updXp (fun x => { x with recvRecs := aset x.recvRecs h.rxKey { r with msgs := mupd r.msgs h.msn.toNat g, used := d.clk } }) d

/-- The message of a strand. -/
def msgOf (d : Dev) (h : Hdr) : Option RxMsg := (aget d.xp.recvRecs h.rxKey).bind (fun r => r.msg h.msn.toNat)

/-- NEXT of the stream of a strand. -/
def nextOf (d : Dev) (h : Hdr) : Option Nat := (aget d.xp.recvRecs h.rxKey).map (·.next)

/-- Is a message whole (R235): every byte placed or held, and a DURABLE one flushed (R122). -/
def RxMsg.whole (m : RxMsg) : Bool :=
  match m.total with
  | none => false
  | some t => decide (t ≤ m.got) && (!m.hdr.durable || m.flushed)

/-- Releases the messages of a stream that may be released (R235, R239, R240): each is put down for its
side effects in order; a request whose turn has come begins (R126). `fuel` bounds the messages (DEDUCED, log 38). -/
def tryRelease : Nat → StreamKey → Dev → Dev
  | 0, _, d => d
  | fuel + 1, k, d =>
    match aget d.xp.recvRecs k with
    | none => d
    | some r =>
      if r.unord then
        match r.msgs.find? (fun p => p.2.whole) with
        | none => d
        | some (n, m) =>
          tryRelease fuel k (push (.release k n m) (updXp (fun x => { x with recvRecs := aset x.recvRecs k { r with msgs := mdel r.msgs n } }) d))
      else
        match mget r.msgs r.next with
        | none => d
        | some m =>
          let d := m.reqs.foldl (fun d rx => push (.request rx) d) d
          let d := updXp (fun x => { x with recvRecs := aset x.recvRecs k { r with msgs := mupd r.msgs r.next (fun m => { m with reqs := [] }) } }) d
          if m.whole || m.failed then
            tryRelease fuel k (push (.release k r.next m) (updXp (fun x => { x with
              recvRecs := aset x.recvRecs k { r with msgs := mdel r.msgs r.next, next := (r.next + 1) % 2 ^ 24 } }) d))
          else d

/-- Counts bytes of a message as placed, notes its length from its MLAST strand, and releases what may be
(R235). The length of a COLLECTIVE message is known from its step (R190). -/
def placed (rx : Rx) (n : Nat) (d : Dev) : Dev :=
  let h := rx.st.hdr
  let d := updMsg h (fun m => { m with
    got := m.got + n
    total := if h.mlast && !(h.kind == 8 && h.op == 1) then some (h.offset.toNat + (if h.kind = 4 then h.opwf 0 13 else h.len.toNat)) else m.total
    poison := m.poison || rx.st.poisoned }) d
  tryRelease 16 h.rxKey d

/-- Frees the receiving records of a stream's source endpoint (R234). -/
def freeRecvRecs (p : StreamKey → Bool) (d : Dev) : Dev :=
  updXp (fun x => { x with recvRecs := x.recvRecs.filter (fun r => !p r.1) }) d

/-! ### Refusals -/

/-- Sends a notice that refuses a strand (R228): NACK, TRIM_NOTICE or EP_GONE, sequenced on VN_RSP; its
acknowledgement settles the strand (R225). A strand of the own DA is refused inside the device (R214) (DEDUCED, log 34). -/
def notice (rx : Rx) (kind cause status : Nat) (d : Dev) : Dev :=
  match rx.self with
  | some cid => push (.refusedSelf cid (if kind = 3 then 5 else cause) status) d
  | none =>
    let h := rx.st.hdr
    let (n, d) := fresh (landAcct 1 rx.st d)
    let hdr : Hdr :=
      { kind := BitVec.ofNat 4 kind, vn := true, dstDa := h.srcDa, srcDa := BitVec.ofNat 17 d.rtr.da,
        dstEp := h.srcEp, srcEp := h.dstEp, ord := h.ord, msn := h.msn, tc := h.tc, entropy := BitVec.ofNat 16 n,
        opw := BitVec.ofNat 128 (h.bsn.toNat + b2n (vnOf h) * 2 ^ 32 + 2 ^ 33 + cause * 2 ^ 40 + status * 2 ^ 48) }
    let (cid, d) := newContent { op := none, hdr := hdr, hp := hpOf d h.dstEp.toNat, ep := h.dstEp.toNat, src := .none,
                                 refuses := some (h.srcDa.toNat, h.bsn.toNat, vnOf h, h.mlast || h.resend) } d
    sendContent cid d

/-- Counts a refusal (R120). -/
def countRefusal (d : Dev) : Dev := { d with ept := { d.ept with refusals := d.ept.refusals + 1 } }

/-- A NOT_READY NACK (R228, R241). -/
def refuseNotReady (rx : Rx) (d : Dev) : Dev := notice rx 2 1 0 d

/-- A trim notice (R243). -/
def trimNotice (rx : Rx) (d : Dev) : Dev := notice rx 3 0 0 d

/-- The message of a refused strand fails (R240). -/
def failMsg (rx : Rx) (d : Dev) : Dev :=
  placed rx rx.st.hdr.len.toNat (updMsg rx.st.hdr (fun m => { m with failed := true }) d)

/-- A NACK with cause REFUSED (R228, R240). -/
def refuse (rx : Rx) (status : Nat) (d : Dev) : Dev := countRefusal (failMsg rx (notice rx 2 2 status d))

/-- A NACK with cause JOB_MISMATCH (R120, step 4). -/
def refuseJob (rx : Rx) (d : Dev) : Dev := countRefusal (failMsg rx (notice rx 2 3 0x25 d))

/-- An EP_GONE in answer to a strand (R62) (DEDUCED, log 34). -/
def epGone (rx : Rx) (d : Dev) : Dev := failMsg rx (notice rx 10 0 0x23 d)

/-- An unsolicited EP_GONE to a peer (R63, R228). -/
def epGoneTo (da e : Nat) (d : Dev) : Dev :=
  let (n, d) := fresh d
  let hdr : Hdr :=
    { kind := 10, vn := true, dstDa := BitVec.ofNat 17 da, srcDa := BitVec.ofNat 17 d.rtr.da, srcEp := BitVec.ofNat 20 e,
      entropy := BitVec.ofNat 16 n, opw := BitVec.ofNat 128 (0x23 * 2 ^ 48) }
  let (cid, d) := newContent { op := none, hdr := hdr, hp := hpOf d e, ep := e, src := .none } d
  sendContent cid d

/-- A response to a request (R119): on VN_RSP, with the ORD and MSN of the request (R220), its data and where
they are read again for a retransmission (DEDUCED, log 34). -/
def respondFrom (rx : Rx) (kind op : Nat) (offset : Nat) (opw : Nat) (data : List Chunk) (src : PaySrc) (d : Dev) : Dev :=
  let h := rx.st.hdr
  let (n, d) := fresh d
  let hdr : Hdr :=
    { kind := BitVec.ofNat 4 kind, op := BitVec.ofNat 8 op, vn := true, dstDa := h.srcDa, srcDa := BitVec.ofNat 17 d.rtr.da,
      dstEp := h.srcEp, srcEp := h.dstEp, ord := h.ord, msn := h.msn, tc := h.tc, job := h.job, offset := BitVec.ofNat 32 offset,
      len := BitVec.ofNat 13 (chunksLen data), opw := BitVec.ofNat 128 opw, entropy := BitVec.ofNat 16 n,
      flags := if h.resend && kind == 5 then 0x20 else 0 }
  let (cid, d) := newContent { op := none, hdr := hdr, hp := hpOf d h.dstEp.toNat, ep := h.dstEp.toNat, src := src } d
  let d := if (h.kind = 6 ∨ h.kind = 7) ∧ rx.self.isNone then
      updXp (fun x => { x with retained := x.retained ++ [{ peer := h.srcDa.toNat, vn := vnOf h, bsn := h.bsn.toNat, cid := cid }] }) d
    else d
  if (peer d h.srcDa.toNat).state = .unreachable ∧ isSelf d h.srcDa.toNat = false then contentUnreachable cid d
  else contentReady cid data d

/-- A response without data to be read again. -/
def respond (rx : Rx) (kind op : Nat) (offset : Nat) (opw : Nat) (data : List Chunk) (d : Dev) : Dev :=
  respondFrom rx kind op offset opw data (.bytes data) d

/-! ### Retransmission -/

/-- Is the payload of an unacknowledged strand being read again (R231). -/
def repaying (d : Dev) (da : Nat) (vn : Bool) (bsn : Nat) : Bool :=
  d.xl.accs.any (fun p => decide (p.2.use = .repay da vn bsn)) || d.reads.any (fun p => decide (p.2.use = .repay da vn bsn))

/-- An unacknowledged strand's timer expires (R231, R251): it is sent again, its payload read again, or
the peer is unreachable (DEDUCED, log 16; DEDUCED, log 39). -/
def retransmit (da : Nat) (vn : Bool) (bsn : Nat) (d : Dev) : Dev :=
  let s := sendHalf (peer d da) vn
  match s.unacked.find? (fun u => decide (u.bsn = bsn)) with
  | none => d
  | some u =>
    if s.queue.any (fun q => decide (q.bsn = some bsn)) || repaying d da vn bsn then d
    else
      let d := updRate da vn rateCut d
      if 7 ≤ u.j then push (.unreachable da) d
      else
        match content? d u.cid with
        | none => enqueue da vn { cid := u.cid, data := [], bsn := some bsn, headOnly := true } d
        | some c =>
          if c.dead then enqueue da vn { cid := u.cid, data := [], bsn := some bsn, headOnly := true } d
          else
            match c.src.range with
            | none => enqueue da vn { cid := u.cid, data := c.src.chunks, bsn := some bsn } d
            | some (f, _) =>
              if lostFn d f then enqueue da vn { cid := u.cid, data := [], bsn := some bsn, headOnly := true } d
              else readPay c.src (.repay da vn bsn) d

/-- The payload of a retransmission has come, or could not be read (R231); poison in it marks the operation too (R389). -/
def repayDone (da : Nat) (vn : Bool) (bsn : Nat) (res : AccRes) (d : Dev) : Dev :=
  match (sendHalf (peer d da) vn).unacked.find? (fun u => decide (u.bsn = bsn)) with
  | none => d
  | some u =>
    if res.status = 0 then
      let src := match content? d u.cid with
        | some c => c.src
        | none => .none
      let d := match content? d u.cid with
        | some c => opPoison c res.data d
        | none => d
      enqueue da vn { cid := u.cid, data := src.wire res.data, bsn := some bsn } d
    else
      let d := match content? d u.cid with
        | some c => match c.op with
          | some o => opEnd o res.status d
          | none => d
        | none => d
      let d := updContent u.cid (fun c => { c with dead := true }) d
      enqueue da vn { cid := u.cid, data := [], bsn := some bsn, headOnly := true } d

/-- The payload of a content's first transmission has come, or could not be read (R108, R390). -/
def payDone (cid : Nat) (res : AccRes) (d : Dev) : Dev :=
  match content? d cid with
  | none => d
  | some c =>
    if res.status = 0 then contentReady cid (c.src.wire res.data) d
    else
      let d := dropContent cid d
      match c.op with
      | some o => opEnd o res.status d
      | none => d

end Sys2Proof.Machine
end

