-- ==== Sys2Proof/Machine/Clasp.lean ====
section
/-! DEFINITION. Clasp locks at their home device (R132 to R143), the words that the serialised path of
atomics holds (R130), and the answers to requests (R119). -/

namespace Sys2Proof.Machine

/-- Changes the Clasp state. -/
def updClasp (g : Clasp → Clasp) (d : Dev) : Dev := { d with clasp := g d.clasp }

/-! ### Words in hand -/

/-- The word in hand that a bus range of a host port overlaps (R130). -/
def busyHit (d : Dev) (hp addr len : Nat) : Option BusyWord :=
  d.clasp.busy.find? (fun b => decide (b.hp = hp) && overlaps addr len b.addr 8)

/-- An operation waits for a word in hand (R130) (DEDUCED, log 42). -/
def waitBusy (b : BusyWord) (o : BusyOp) (d : Dev) : Dev :=
  updClasp (fun c => { c with busy := c.busy.map (fun x =>
    if x.hp = b.hp ∧ x.addr = b.addr then { x with waiting := x.waiting ++ [o] } else x) }) d

/-- Takes a word in hand (DEDUCED, log 42). -/
def takeWord (hp addr : Nat) (d : Dev) : Dev :=
  updClasp (fun c => { c with busy := c.busy ++ [{ hp := hp, addr := addr }] }) d

/-- Lets a word go: what waited for it runs in the order of its arrival (R130). -/
def freeWord (hp addr : Nat) (d : Dev) : Dev :=
  match d.clasp.busy.find? (fun b => decide (b.hp = hp) && decide (b.addr = addr)) with
  | none => d
  | some b =>
    let d := updClasp (fun c => { c with busy := c.busy.filter (fun x => !(decide (x.hp = hp) && decide (x.addr = addr))) }) d
    b.waiting.foldl (fun d o => push (.busyOp hp addr o) d) d

/-! ### Answers -/

/-- A request begins to execute: its strand settles and its message has no more to wait for (R225, R126).
A READ_REQ counts the bytes it asks for. -/
def begun (rx : Rx) (d : Dev) : Dev := placed rx (if rx.st.hdr.kind = 4 then rx.st.hdr.opwf 0 13 else 0) (settle rx d)

/-- A LOCK response (R119) to the request of a header. -/
def lockAnswer (h : Hdr) (op opw : Nat) (d : Dev) : Dev :=
  respond { st := { hdr := h, crc := 0, beads := [] } } 7 op 0 opw [] d

/-- A refusal of a request in its response (R119, R542), with its strand settled (DEDUCED, log 41). A READ_REQ is answered by
the READ_RSP of a READ, whatever its OP, but for RNDV_READ (R149). -/
def refuseRequest (rx : Rx) (status : Nat) (d : Dev) : Dev :=
  let h := rx.st.hdr
  let d := countRefusal (begun rx d)
  if h.kind = 4 then respond rx 5 (if h.op = 0x0B then 0x0B else 3) h.offset.toNat status [] d
  else if h.kind = 6 then respond rx 5 0x10 0 (status * 2 ^ 64) [] d
  else respond rx 7 (if h.op = 3 then 0x84 else 0x82) 0 status [] d

/-! ### Lock records -/

/-- The contents of a lock word (R134) (DEDUCED, log 41). -/
def LockRec.word (r : LockRec) : Nat :=
  let st := match r.state with | .free => 0 | .held => 1 | .abandoned => 2 | .forced => 3
  let own := match r.state, r.holder with
    | .held, some c => c.da % 2 ^ 17 + (c.ep % 2 ^ 20) * 2 ^ 17
    | _, _ => 0
  own + st * 2 ^ 37 + min r.queue.length 0xFFFF * 2 ^ 40 + r.seq % 256 * 2 ^ 56

/-- A lock record. -/
def lock? (d : Dev) (i : Nat) : Option LockRec := mget d.clasp.recs i

/-- Changes a lock record. -/
def updLock (i : Nat) (g : LockRec → LockRec) (d : Dev) : Dev := updClasp (fun c => { c with recs := mupd c.recs i g }) d

/-- The record of a lock (R132): host port and bus address. -/
def lockAt (d : Dev) (hp addr : Nat) : Option (Nat × LockRec) :=
  d.clasp.recs.find? (fun p => decide (p.2.hp = hp) && decide (p.2.addr = addr))

/-- Waiter entries in use (R133). -/
def waitersUsed (d : Dev) : Nat := sumOf (d.clasp.recs.map (fun p => p.2.queue.length))

/-- Writes a lock word, then sends the responses it precedes (R134). -/
def lockOut (f : Func) (addr word : Nat) (sends : List (Hdr × Nat × Nat)) (d : Dev) : Dev :=
  match busyHit d f.hp addr 8 with
  | some b => waitBusy b (.lock f word sends) d
  | none => sends.foldl (fun d s => lockAnswer s.1 s.2.1 s.2.2 d) (hostWrite f addr (toLe 8 word) false false d)

/-- Writes the word of a record (DEDUCED, log 41). -/
def lockRewrite (i : Nat) (d : Dev) : Dev :=
  match lock? d i with
  | none => d
  | some r => lockOut r.f r.addr r.word [] d

/-- Releases a record: its lock word is written as 0 (R132). -/
def lockFree (i : Nat) (d : Dev) : Dev :=
  match lock? d i with
  | none => d
  | some r => lockOut r.f r.addr 0 [] (updClasp (fun c => { c with recs := mdel c.recs i }) d)

/-- Grants a lock (R137). -/
def lockGrant (i : Nat) (w : Claim) (status : Nat) (d : Dev) : Dev :=
  let d := updLock i (fun r => { r with holder := some w, state := .held, seq := (r.seq + 1) % 2 ^ 32, reported := w.prio }) d
  match lock? d i with
  | none => d
  | some r => lockOut r.f r.addr r.word [(w.hdr, 0x81, status + i * 2 ^ 8 + r.seq * 2 ^ 32)] d

/-- Is a domain RANKED (R135). -/
def rankedDomain (d : Dev) (n : Nat) : Bool := ((mget d.clasp.domains n).map (·.ranked)).getD false

/-- The next waiter by fairness (R135). -/
def nextClaim (ranked : Bool) (q : List Claim) : Option Claim :=
  match q with
  | [] => none
  | c :: cs => if ranked then some (cs.foldl (fun a b => if a.prio < b.prio then b else a) c) else some c

/-- Takes a claim out of a queue. -/
def dropClaim (c : Claim) (q : List Claim) : List Claim := q.filter (fun x => !(decide (x.da = c.da) && decide (x.ep = c.ep)))

/-- Grants to the next waiter with a status, or does what stands for no waiter. -/
def lockNext (i status : Nat) (empty : Dev → Dev) (d : Dev) : Dev :=
  match lock? d i with
  | none => d
  | some r =>
    match nextClaim (rankedDomain d r.domain) r.queue with
    | none => empty d
    | some c => lockGrant i c status (updLock i (fun r => { r with queue := dropClaim c r.queue }) d)

/-- Priority inheritance when a waiter is queued (R139). -/
def lockInheritCheck (i prio : Nat) (d : Dev) : Dev :=
  match lock? d i with
  | none => d
  | some r =>
    match r.holder with
    | some w =>
      if rankedDomain d r.domain && decide (r.reported < prio) then
        lockAnswer w.hdr 0x83 (i * 2 ^ 8 + r.seq * 2 ^ 32 + prio * 2 ^ 64) (updLock i (fun r => { r with reported := prio }) d)
      else d
    | none => d

/-- Is a claim's endpoint the holder, or queued. -/
def LockRec.has (r : LockRec) (da ep : Nat) : Bool :=
  (r.state == .held && (r.holder.map (fun c => decide (c.da = da) && decide (c.ep = ep))).getD false)
    || r.queue.any (fun c => decide (c.da = da) && decide (c.ep = ep))

/-- The claim of a request. -/
def claimOf (h : Hdr) : Claim := { da := h.srcDa.toNat, ep := h.srcEp.toNat, prio := h.opwf 16 8, hdr := h }

/-- Processes one Clasp request on a record whose word has been read (R136, R137). -/
def lockProcess (rx : Rx) (i : Nat) (d : Dev) : Dev :=
  match lock? d i with
  | none => d
  | some r =>
    let h := rx.st.hdr
    let c := claimOf h
    let members := ((mget d.clasp.domains r.domain).map (·.members)).getD 0
    if r.domain ≠ h.opwf 0 12 then refuseRequest rx 0x26 d
    else if h.op = 3 then
      if r.state = .held ∧ (r.holder.map (fun w => (w.da, w.ep))) = some (c.da, c.ep) ∧ r.seq = h.opwf 32 32 then
        let d := respond rx 7 0x84 0 (i * 2 ^ 8 + r.seq * 2 ^ 32) [] (begun rx d)
        lockNext i 0 (lockFree i) d
      else refuseRequest rx 0x26 d
    else if r.has c.da c.ep then refuseRequest rx 0x26 d
    else
      match r.state with
      | .free => lockGrant i c 0 (begun rx d)
      | .abandoned => lockGrant i c 2 (begun rx d)
      | .forced => lockGrant i c 3 (begun rx d)
      | .held =>
        if h.op = 2 then respond rx 7 0x82 0 0x50 [] (begun rx d)
        else if members < r.queue.length + 2 then refuseRequest rx 0x26 d
        else if 65536 ≤ waitersUsed d then refuseNotReady rx d
        else
          let d := updLock i (fun r => { r with queue := r.queue ++ [c] }) (begun rx d)
          lockInheritCheck i c.prio (lockRewrite i d)

/-- A Clasp request whose word is translated (R132, R133, R137): it is processed, waits while the word of a
new record is read, or makes a record. -/
def lockRequest (rx : Rx) (f : Func) (addr : Nat) (d : Dev) : Dev :=
  match lockAt d f.hp addr with
  | some (i, r) =>
    if r.reading then updLock i (fun r => { r with pend := r.pend ++ [rx] }) d else lockProcess rx i d
  | none =>
    if rx.st.hdr.op = 3 then refuseRequest rx 0x26 d
    else if 65536 ≤ d.clasp.recs.length then refuseNotReady rx d
    else
      let (n, d) := fresh d
      match firstFree (fun i => !mhas d.clasp.recs ((n + i) % 65536)) 65536 0 with
      | none => refuseNotReady rx d
      | some k =>
        let i := (n + k) % 65536
        let r : LockRec := { hp := f.hp, addr := addr, f := f, domain := rx.st.hdr.opwf 0 12, pend := [rx] }
        hostRead f addr 8 (.lockWord i) (updClasp (fun c => { c with recs := mset c.recs i r }) d)

/-- The lock word of a new record has been read (R132), or could not be (R120, step 7) (DEDUCED, log 41). -/
def lockWordRead (i : Nat) (r : HRead) (d : Dev) : Dev :=
  match lock? d i with
  | none => d
  | some l =>
    if r.status ≠ .ok then
      let d := updClasp (fun c => { c with recs := mdel c.recs i }) d
      l.pend.foldl (fun d rx => refuseRequest rx 0x26 d) d
    else
      let st := match bitsOf (leNat r.bytes) 37 3 with
        | 1 => LockState.abandoned
        | 2 => .abandoned
        | 3 => .forced
        | _ => .free
      let d := updLock i (fun l => { l with state := st, reading := false, pend := [] }) d
      let d := l.pend.foldl (fun d rx =>
        if mhas d.clasp.recs i then lockProcess rx i d else push (.accDone (.word rx) { status := 0, pieces := [(l.addr, 8)] }) d) d
      match lock? d i with
      | some l => if l.state = .free ∧ l.queue = [] then lockFree i d else d
      | none => d

/-! ### Losses, force and removal -/

/-- The holders and waiters that satisfy a test are lost (R141). -/
def lockLose (p : Nat → Nat → Bool) (d : Dev) : Dev :=
  (d.clasp.recs.map (·.1)).foldl (fun d i =>
    match lock? d i with
    | none => d
    | some r =>
      let q := r.queue.filter (fun c => !p c.da c.ep)
      let changed := decide (q.length ≠ r.queue.length)
      let gone := r.state == .held && (r.holder.map (fun c => p c.da c.ep)).getD false
      let pend := r.pend.filter (fun rx => !p rx.st.hdr.srcDa.toNat rx.st.hdr.srcEp.toNat)
      let d := updLock i (fun r => { r with queue := q, pend := pend }) d
      if gone then lockNext i 2 (lockRewrite i) (updLock i (fun r => { r with state := .abandoned, holder := none }) d)
      else if changed then lockRewrite i d
      else d) d

/-- Answers a waiter that is removed (R143). -/
def lockRemoved (i status : Nat) (c : Claim) (d : Dev) : Dev := lockAnswer c.hdr 0x85 (status + i * 2 ^ 8) d

/-- Removes a waiter (R143); false where it is not queued. -/
def lockRemove (i da ep status : Nat) (d : Dev) : Bool × Dev :=
  match lock? d i with
  | none => (false, d)
  | some r =>
    match r.queue.find? (fun c => decide (c.da = da) && decide (c.ep = ep)) with
    | none => (false, d)
    | some c =>
      let d := updLock i (fun r => { r with queue := dropClaim c r.queue }) d
      (true, lockRemoved i status c (lockRewrite i d))

/-- Ends the holding of a HELD lock (R140); false where it is not HELD. -/
def lockForce (i : Nat) (d : Dev) : Bool × Dev :=
  match lock? d i with
  | none => (false, d)
  | some r =>
    if r.state = .held then
      (true, lockNext i 3 (fun d => lockRewrite i (updLock i (fun r => { r with state := .forced, holder := none }) d)) d)
    else (false, d)

end Sys2Proof.Machine
end

