-- ==== Sys2Proof/Machine/Counter.lean ====
section
/-! DEFINITION. Completion counters: ranges, additions, mirrors and thresholds (R203 to R207), and the
completion of an operation of a ring with its bound counter (R80, R204). -/

namespace Sys2Proof.Machine

/-- Changes the collective state. -/
def updColl (g : CollAll → CollAll) (d : Dev) : Dev := { d with coll := g d.coll }

/-- The range that holds a counter: its first index and the range. -/
def cntRange (d : Dev) (i : Nat) : Option (Nat × CntRange) :=
  d.coll.ranges.find? (fun p => decide (p.1 ≤ i) && decide (i < p.1 + p.2.count))

/-- The job slot a counter is allocated to. -/
def cntSlot (d : Dev) (i : Nat) : Option Nat := (cntRange d i).map (·.2.slot)

/-- The value of a counter. -/
def cntValue (d : Dev) (i : Nat) : Nat := (mget d.coll.values i).getD 0

/-- Is a counter allocated to the job slot of an endpoint. -/
def cntOfEp (d : Dev) (i e : Nat) : Bool :=
  match cntSlot d i, epSlot d e with
  | some a, some b => decide (a = b)
  | _, _ => false

/-- Has a counter reached a threshold (R206). -/
def reached (c h : Nat) : Bool := decide (0 ≤ toSigned 64 ((c + 2 ^ 64 - h % 2 ^ 64) % 2 ^ 64))

/-- Sets a counter and writes its mirror word (R203, R205); instances that wait on it are examined. -/
def cntSet (i v : Nat) (d : Dev) : Dev :=
  match cntRange d i with
  | none => d
  | some (first, r) =>
    let v := v % 2 ^ 64
    let d := updColl (fun c => { c with values := mset c.values i v }) d
    let d := match r.mirror with
      | some m => hostWrite r.f (m + 8 * (i - first)) (toLe 8 v) false false d
      | none => d
    (d.coll.insts.filter (fun p => p.2.state == .running &&
      ((op? d p.2.op).map (fun o => leAt o.desc 56 4 % 2 ^ 18)) == some i)).foldl (fun d p => push (.collGo p.1) d) d

/-- Adds to a counter, modulo 2^64 (R203). -/
def cntAdd (i n : Nat) (d : Dev) : Dev := if (cntRange d i).isSome then cntSet i (cntValue d i + n) d else d

/-- Writes a completion of an endpoint's ring and adds to its bound counter (R80, R204): `dir` is true on
the receive side; `write` tells whether an entry is written. -/
def complete (e : Nat) (dir write : Bool) (c : Cqe) (d : Dev) : Dev :=
  match ep? d e with
  | none => d
  | some x =>
    let d := if write then cqPost (if dir then x.rCq else x.sCq) c d else d
    match mget d.coll.binds (e * 2 + b2n dir) with
    | some i => if c.status ≤ 3 then cntAdd i 1 d else d
    | none => d

/-- A completion entry with the present time (R80) (DEDUCED, log 44). -/
def entry (d : Dev) (e : Nat) (dir : Bool) (op status : Nat) : Cqe :=
  { ts := nowNs d % 2 ^ 48, tq := timeQ d, status := status, ep := e, dir := dir, op := op }

/-- A receive of an endpoint completes (R71, R123, R151, R163): the operation of a ring entry, or without
one. A status that stops the endpoint puts it into ERROR after its completion (R76). -/
def recvComplete (e : Nat) (c : Cqe) (d : Dev) : Dev :=
  let d := complete e true true c d
  match ep? d e with
  | none => d
  | some x => if x.typ = 0 ∧ 4 ≤ c.status ∧ c.status ≠ 0x40 then push (.epError e 2) d else d

end Sys2Proof.Machine
end

