-- ==== Sys2Proof/Machine/Rdma.lean ====
section
/-! DEFINITION. Remote memory operations: how an operation starts at its initiator, what the initiator does
with responses, placement, and what the target does with WRITE, READ, ATOMIC and LOCK (R117 to R131,
R138, R157, R159, R236, R237). -/

namespace Sys2Proof.Machine

/-! ### Parking -/

/-- Cells of the miss parking buffer in use (R90). -/
def parkedCells (d : Dev) : Nat := sumOf (d.ept.parked.map (fun p => p.rx.st.allBeads.length))

/-- Is the miss parking buffer full for a strand (R90). -/
def parkFull (d : Dev) (st : Strand) : Bool :=
  decide (1024 ≤ d.ept.parked.length) || decide (32768 < parkedCells d + st.allBeads.length)

/-- A parked strand needs a window (R224): none where the pool is empty. -/
def parkWindow (rx : Rx) (d : Dev) : Option Dev :=
  let h := rx.st.hdr
  let r := recvHalf (peer d h.srcDa.toNat) (vnOf h)
  if rx.self.isSome || r.window then some d
  else if 16384 ≤ windowsUsed d then none
  else some (updRecv h.srcDa.toNat (vnOf h) (fun r => { r with window := true }) d)

/-- A strand that needs a window is discarded when the pool is empty (R224). -/
def windowExhausted (d : Dev) : Dev := raise (srcWin 11 4) (updXp (fun x => { x with discards := x.discards + 1 }) d)

/-- Parks a strand (R90, R156, R191, R237, R242): refused as not ready or trimmed where it does not fit. -/
def park (rx : Rx) (why : ParkWhy) (d : Dev) : Dev :=
  let h := rx.st.hdr
  if parkFull d rx.st then (if why = .context then refuseNotReady rx d else trimNotice rx d)
  else
    match parkWindow rx d with
    | none =>
      windowExhausted (updRecv h.srcDa.toNat (vnOf h) (fun r => { r with held := r.held.filter (· != h.bsn.toNat) }) d)
    | some d => { d with ept := { d.ept with parked := d.ept.parked ++ [{ rx := rx, why := why }] } }

/-! ### Starting an operation -/

/-- The header of an operation's strands (R119, R222, R239). -/
def opHdr (d : Dev) (o : Op) (kind opc : Nat) : Hdr :=
  let ent := ((aget d.xp.sendRecs o.key).map (·.entropy)).getD 0
  let unord := kind == 8 || ((ep? d o.ep).map (·.typ)) == some 1
  { kind := BitVec.ofNat 4 kind, op := BitVec.ofNat 8 opc, vn := false, tc := BitVec.ofNat 2 (dTc o.desc),
    ord := BitVec.ofNat 4 o.ord, entropy := BitVec.ofNat 16 ent, det := kind != 8 && dDet o.desc,
    dstDa := BitVec.ofNat 17 o.dst, dstEp := BitVec.ofNat 20 o.dstEp, srcDa := BitVec.ofNat 17 d.rtr.da,
    srcEp := BitVec.ofNat 20 o.ep, job := BitVec.ofNat 16 (((blockOf d o.ep).map (·.job)).getD 0),
    msn := BitVec.ofNat 24 o.msn, flags := mkFlags false 0 (dDurable o.desc && kind == 0) false unord false }

/-- Sets MLAST. -/
def setLast (h : Hdr) (last : Bool) : Hdr := { h with flags := mkFlags last h.dep h.durable h.resend h.unord h.unseq }

/-- The job slot and function of an operation's local buffer (R94, R408). -/
def opLoc (d : Dev) (o : Op) : Option (Option Nat × Func) :=
  match o.loc with
  | some l => some l
  | none => (epFunc d o.ep).map (fun f => (epSlot d o.ep, f))

/-- The source of a part of an operation's payload (R67). -/
def opSrc (d : Dev) (o : Op) (off len : Nat) : PaySrc :=
  if len = 0 then .none
  else if dInline o.desc then .bytes [⟨slice (dInlineBytes o.desc) off len, false⟩]
  else
    match opLoc d o with
    | none => .none
    | some (s, f) => .mem s f (some (dLkey o.desc)) (dLaddr o.desc + off) len

/-- Sends one strand of an operation. -/
def opStrand (i : Nat) (h : Hdr) (src : PaySrc) (d : Dev) : Dev :=
  let e := h.srcEp.toNat
  let (cid, d) := newContent { op := some i, hdr := h, hp := hpOf d e, ep := e, src := src } d
  sendContent cid d

/-- The parts of a message by the MTU (R223, R127). -/
def mtuParts (d : Dev) (len : Nat) : List (Nat × Nat) :=
  (List.range (max 1 (ceilDiv len (mtu d)))).map (fun k => (k * mtu d, min (mtu d) (len - k * mtu d)))

/-- Sends the DATA strands of an operation (R121, R157, R223). -/
def startData (i : Nat) (o : Op) (addr key opw : Nat) (d : Dev) : Dev :=
  let h := { opHdr d o 0 o.code with addr := BitVec.ofNat 64 addr, key := BitVec.ofNat 32 key, opw := BitVec.ofNat 128 opw }
  let ps := mtuParts d o.len
  let d := updOp i (fun x => { x with state := .running, left := ps.length }) d
  ps.foldl (fun d p =>
    let h := { h with offset := BitVec.ofNat 32 p.1, len := BitVec.ofNat 13 p.2 }
    opStrand i (setLast h (decide (p.1 + p.2 = o.len))) (opSrc d o p.1 p.2) d) d

/-- A message of one strand without payload. -/
def startSingle (i : Nat) (h : Hdr) (d : Dev) : Dev :=
  opStrand i (setLast h true) .none (updOp i (fun x => { x with state := .running, left := 1 }) d)

/-- READ_REQ strands outstanding in the device (R128). -/
def partsOut (d : Dev) : Nat := sumOf (d.xp.ops.map (fun p => (p.2.parts.filter (fun q => q.sent && !q.fin)).length))

/-- The header of a READ_REQ of an operation's part (R119, R149). -/
def partHdr (d : Dev) (o : Op) (off len : Nat) : Hdr :=
  let pull := o.code == 0x0B
  let h := { opHdr d o 4 o.code with offset := BitVec.ofNat 32 off, opw := BitVec.ofNat 128 (len + (if pull then o.rtag * 2 ^ 16 else 0)) }
  let h := if pull then h else { h with addr := BitVec.ofNat 64 (dRaddr o.desc), key := BitVec.ofNat 32 (dRkey o.desc) }
  setLast h (decide (off + len = o.len))

/-- Issues the parts of a read that the device limit lets through (R128). -/
def issueParts (i : Nat) (d : Dev) : Dev :=
  match op? d i with
  | none => d
  | some o =>
    if o.state ≠ .running then d
    else
      let room := 262144 - partsOut d
      let now := (o.parts.filter (fun q => !q.sent && !q.held)).take room
      let offs := now.map (·.off)
      let d := updOp i (fun x => { x with parts := x.parts.map (fun q => if offs.contains q.off then { q with sent := true } else q) }) d
      now.foldl (fun d q => opStrand i (partHdr d o q.off q.len) .none d) d

/-- Issues waiting parts of any read. -/
def kickParts (d : Dev) : Dev :=
  ((d.xp.ops.filter (fun p => p.2.parts.any (fun q => !q.sent && !q.held))).map (·.1)).foldl (fun d i => issueParts i d) d

/-- Starts a read of `o.len` bytes in parts (R127, R160). -/
def startParts (i : Nat) (o : Op) (d : Dev) : Dev :=
  let ps := (mtuParts d o.len).map (fun p => ({ off := p.1, len := p.2 } : Part))
  issueParts i (updOp i (fun x => { x with state := .running, left := ps.length, parts := ps }) d)

/-- Reads of an endpoint outstanding (R128). -/
def readsOut (d : Dev) (e : Nat) : Nat :=
  (d.xp.ops.filter (fun p => decide (p.2.ep = e) && decide (p.2.code = 3) && p.2.state == .running)).length

/-- Rendezvous outstanding (R159). -/
def rndvOut (d : Dev) (p : Nat → Bool) : Nat :=
  (d.xp.ops.filter (fun q => q.2.rndv && q.2.state == .running && p q.2.ep)).length

/-- OPW of a tagged message (R149). -/
def envelopeOpw (e : Bytes) : Nat := leAt e 16 8 + leAt e 24 4 * 2 ^ 64 + leAt e 28 2 * 2 ^ 96

/-- Announces a rendezvous (R159): its RTAG is free of choice among those not outstanding (DEDUCED, log 86). -/
def startRndv (i : Nat) (o : Op) (d : Dev) : Dev :=
  let (n, d) := fresh d
  let used := (d.xp.ops.filter (fun p => p.2.rndv && decide (p.2.ep = o.ep))).map (·.2.rtag)
  let k := (firstFree (fun j => !used.contains ((n + j) % 65536)) 65536 0).getD 0
  let tag := (n + k) % 65536
  let h := { opHdr d o 0 0x0A with addr := BitVec.ofNat 64 (o.len + tag * 2 ^ 32), opw := BitVec.ofNat 128 (envelopeOpw o.desc) }
  startSingle i h (updOp i (fun x => { x with rndv := true, rtag := tag }) d)

/-- Is a SEND_TAGGED eager (R157) (DEDUCED, log 86). -/
def eager (d : Dev) (o : Op) : Bool := dInline o.desc || decide (o.len ≤ fld d (MATCH + 0x020) 0 7 * 1024)

/-- Would starting the operation exceed a limit that makes it wait (R128, R159). -/
def opLimited (d : Dev) (o : Op) : Bool :=
  (o.code == 3 && decide (64 ≤ readsOut d o.ep)) ||
  (o.code == 9 && !eager d o && (decide (256 ≤ rndvOut d (fun e => decide (e = o.ep))) || decide (16384 ≤ rndvOut d (fun _ => true))))

/-- Starts an operation that has its MSN. -/
def startWithMsn (i : Nat) (o : Op) (d : Dev) : Dev :=
  let e := o.desc
  match o.code with
  | 0x01 => startData i o (dRaddr e) (dRkey e) 0 d
  | 0x02 => startData i o (dRaddr e) (dRkey e) (dImm e) d
  | 0x03 => startParts i o d
  | 0x04 => startData i o (dRaddr e) (dRkey e) (dImm e) d
  | 0x08 =>
    let imm := bitOf (leAt e 20 1) 0
    startData i o (o.len + b2n imm * 2 ^ 32) 0 (if imm then leAt e 16 4 else 0) d
  | 0x09 => if eager d o then startData i o o.len 0 (envelopeOpw e) d else startRndv i o d
  | 0x0B => startParts i o d
  | 0x0C => startSingle i { opHdr d o 0 0x0C with opw := BitVec.ofNat 128 (o.len + o.rtag * 2 ^ 32 + o.localStatus * 2 ^ 48) } (updOp i (fun x => { x with localStatus := 0 }) d)
  | 0x10 =>
    startSingle i { opHdr d o 6 (bitsOf (leAt e 28 1) 0 4) with
      addr := BitVec.ofNat 64 (dRaddr e), key := BitVec.ofNat 32 (dRkey e),
      opw := BitVec.ofNat 128 (leAt e 44 8 + leAt e 52 8 * 2 ^ 64) } d
  | 0xF1 => startSingle i { opHdr d o 8 2 with job := BitVec.ofNat 16 (leAt e 0 2), opw := BitVec.ofNat 128 (leAt e 16 16) } d
  | c =>
    let rel := c == 0x1A
    startSingle i { opHdr d o 7 (c - 0x17) with
      addr := BitVec.ofNat 64 (dRaddr e), key := BitVec.ofNat 32 (dRkey e),
      opw := BitVec.ofNat 128 (bitsOf (leAt e 28 2) 0 12 + (if rel then leAt e 44 4 * 2 ^ 32 else leAt e 30 1 * 2 ^ 16)) } d

/-- Starts an operation, if no limit makes it wait (R128, R159, R215, R233). -/
def startOp (i : Nat) (d : Dev) : Dev :=
  match op? d i with
  | none => d
  | some o =>
    if o.state ≠ .waiting then d
    else if o.code = 0x00 then opEnd i 0 d
    else if (peer d o.dst).state = .unreachable ∧ isSelf d o.dst = false then opEnd i 0x30 d
    else if opLimited d o then d
    else
      match takeMsn i d with
      | none => d
      | some d =>
        match op? d i with
        | none => d
        | some o => startWithMsn i o d

/-! ### Responses at the initiator -/

/-- The running operation that a response answers (R220). -/
def findOp (d : Dev) (h : Hdr) (p : Op → Bool) : Option (Nat × Op) :=
  d.xp.ops.find? (fun q => q.2.state == .running && decide (q.2.ep = h.dstEp.toNat) && decide (q.2.dst = h.srcDa.toNat)
    && decide (q.2.dstEp = h.srcEp.toNat) && decide (q.2.ord = h.ord.toNat) && decide (q.2.msn = h.msn.toNat) && p q.2)

/-- The access that finds where local data goes. -/
def localPlace (d : Dev) (e key iova len : Nat) (use : Use) : Option Acc :=
  (epFunc d e).map (fun f => { slot := epSlot d e, f := f, key := some key, remote := false, iova := iova, len := len,
                               right := .w, region := .localWrite, act := .find, use := use })

/-- The access that finds where an operation's data goes. -/
def opPlace (d : Dev) (o : Op) (off len : Nat) (use : Use) : Option Acc :=
  (opLoc d o).map (fun l => { slot := l.1, f := l.2, key := some (dLkey o.desc), remote := false, iova := dLaddr o.desc + off,
                              len := len, right := .w, region := .localWrite, act := .find, use := use })

/-- The pieces of a bus range from byte `n` on. -/
def dropPieces : Nat → List (Nat × Nat) → List (Nat × Nat)
  | _, [] => []
  | n, p :: ps => if p.2 ≤ n then dropPieces (n - p.2) ps else (p.1 + n, p.2 - n) :: ps

/-- The first `n` bytes of the pieces of a bus range. -/
def takePieces : Nat → List (Nat × Nat) → List (Nat × Nat)
  | _, [] => []
  | n, p :: ps => if n = 0 then [] else if p.2 ≤ n then p :: takePieces (n - p.2) ps else [(p.1, n)]

/-- Writes chunks over the pieces of a bus range. -/
def writePieces (f : Func) (ps : List (Nat × Nat)) (cs : List Chunk) (ro : Bool) (d : Dev) : Dev :=
  (ps.foldl (fun (x : List Chunk × Dev) p => (dropChunks p.2 x.1, hostWriteChunks f p.1 (takeChunks p.2 x.1) ro x.2)) (cs, d)).2

/-- As `writePieces`, with the last byte in a write of its own if `tail` (R237) (DESIGN CHOICE, log 43). -/
def writeRange (f : Func) (ps : List (Nat × Nat)) (cs : List Chunk) (ro tail : Bool) (d : Dev) : Dev :=
  let n := chunksLen cs
  if tail && decide (1 < n) then
    writePieces f (dropPieces (n - 1) ps) (dropChunks (n - 1) cs) ro
      (writePieces f (takePieces (n - 1) ps) (takeChunks (n - 1) cs) ro d)
  else writePieces f ps cs ro d

/-- The word in hand that one of the pieces overlaps (R130). -/
def piecesBusy (d : Dev) (hp : Nat) (ps : List (Nat × Nat)) : Option BusyWord := ps.findSome? (fun p => busyHit d hp p.1 p.2)

/-- A READ_RSP arrives (R127, R160): its part is placed, or the operation ends with its status. -/
def readRsp (rx : Rx) (d : Dev) : Dev :=
  let h := rx.st.hdr
  match findOp d h (fun o => decide (o.code = h.op.toNat)) with
  | none => settle rx d
  | some (i, o) =>
    match o.parts.find? (fun q => decide (q.off = h.offset.toNat) && !q.fin) with
    | none => settle rx d
    | some q =>
      if h.opwf 0 8 ≠ 0 then settle rx (kickParts (opEnd i (h.opwf 0 8) d))
      else
        match opPlace d o q.off (min q.len h.len.toNat) (.placeRsp i q.off q.len rx) with
        | none => settle rx d
        | some a => access a d

/-- The place of a read's part is known (R121, R127). -/
def placeRspDone (i off len : Nat) (rx : Rx) (res : AccRes) (d : Dev) : Dev :=
  match op? d i with
  | none => settle rx d
  | some o =>
    if o.state ≠ .running then settle rx d
    else if res.status ≠ 0 then settle rx (kickParts (opEnd i res.status d))
    else
      match opLoc d o with
      | none => settle rx d
      | some (_, f) =>
        match piecesBusy d f.hp res.pieces with
        | some b => waitBusy b (.acc (.placeRsp i off len rx) res) d
        | none =>
          let d := writeRange f res.pieces (takeChunks len rx.st.chunks) (!inOrder o.ord) false d
          let d := updOp i (fun x => { x with
            parts := x.parts.map (fun q => if q.off = off then { q with fin := true } else q)
            poison := x.poison || rx.st.poisoned }) d
          let d := settle rx d
          let d := if (op? d i).any (fun x => x.parts.all (·.fin)) then
              opEnd i (if (op? d i).any (·.poison) then 1 else 0) d
            else d
          kickParts d

/-- A trimmed READ_RSP is asked for again, or the read ends (R128) (DEDUCED, log 16). -/
def readResend (rx : Rx) (d : Dev) : Dev :=
  let h := rx.st.hdr
  let d := settle rx d
  match findOp d h (fun o => decide (o.code = h.op.toNat)) with
  | none => d
  | some (i, o) =>
    match o.parts.find? (fun q => decide (q.off = h.offset.toNat) && !q.fin) with
    | none => d
    | some q =>
      if 8 ≤ q.trims + 1 then kickParts (opEnd i 0x31 d)
      else
        let d := updOp i (fun x => { x with
          parts := x.parts.map (fun p => if p.off = q.off then { p with trims := p.trims + 1 } else p), left := x.left + 1 }) d
        let g := partHdr d o q.off q.len
        opStrand i { g with flags := mkFlags g.mlast g.dep g.durable true g.unord false } .none d

/-- Places bytes at an operation's LADDR (R121). -/
def placeResult (i : Nat) (o : Op) (len : Nat) (rx : Rx) (d : Dev) : Dev :=
  match opPlace d o 0 len (.placeRes i rx) with
  | none => settle rx d
  | some a => access a d

/-- The response of an ATOMIC arrives (R121). -/
def atomicRsp (rx : Rx) (d : Dev) : Dev :=
  let h := rx.st.hdr
  match findOp d h (fun o => decide (o.code = 0x10)) with
  | none => settle rx d
  | some (i, o) =>
    if h.opwf 64 8 ≠ 0 then settle rx (opEnd i (h.opwf 64 8) d)
    else if bitOf (leAt o.desc 28 1) 7 then settle rx (opEnd i 0 d)
    else placeResult i o 8 rx d

/-- The grant record (R138). -/
def grantRecord (h : Hdr) : Bytes :=
  toLe 4 h.srcDa.toNat ++ toLe 2 (h.opwf 8 16) ++ toLe 1 (h.opwf 0 8) ++ [0] ++ toLe 4 (h.opwf 32 32) ++ zeros 4

/-- A LOCK response arrives (R121, R138, R139, R143). -/
def lockRsp (rx : Rx) (d : Dev) : Dev :=
  let h := rx.st.hdr
  let e := h.dstEp.toNat
  let k := (e, h.srcDa.toNat, h.opwf 8 16)
  let f := findOp d h (fun o => decide (0x18 ≤ o.code) && decide (o.code ≤ 0x1A))
  match h.op.toNat with
  | 0x81 =>
    let d := updClasp (fun c => { c with held := if c.held.contains k then c.held else c.held ++ [k] }) d
    match f with
    | some (i, o) => if o.code = 0x1A then settle rx d else placeResult i o 16 rx d
    | none => settle rx d
  | 0x83 =>
    let d := match ep? d e, epFunc d e with
      | some x, some g =>
        if d.clasp.held.contains k then eqPost g x.eq (event d 6 h.srcDa.toNat (h.opwf 8 16 + h.opwf 64 8 * 2 ^ 16)) d else d
      | _, _ => d
    settle rx d
  | 0x84 =>
    let d := if h.opwf 0 8 = 0 then updClasp (fun c => { c with held := c.held.filter (· != k) }) d else d
    match f with
    | some (i, o) => settle rx (if o.code = 0x1A then opEnd i (h.opwf 0 8) d else d)
    | none => settle rx d
  | _ =>
    match f with
    | some (i, o) => settle rx (if o.code = 0x1A then d else opEnd i (h.opwf 0 8) d)
    | none => settle rx d

/-- The place of a result is known (R121, R124). -/
def placeResDone (i : Nat) (rx : Rx) (res : AccRes) (d : Dev) : Dev :=
  match op? d i with
  | none => settle rx d
  | some o =>
    if o.state ≠ .running then settle rx d
    else if res.status ≠ 0 then settle rx (opEnd i res.status d)
    else
      match epFunc d o.ep with
      | none => settle rx d
      | some f =>
        match piecesBusy d f.hp res.pieces with
        | some b => waitBusy b (.acc (.placeRes i rx) res) d
        | none =>
          let h := rx.st.hdr
          let bs := if h.kind = 7 then grantRecord h else toLe 8 (h.opwf 0 64)
          let d := writePieces f res.pieces [⟨bs, false⟩] false d
          settle rx (opEnd i (if h.kind = 7 then h.opwf 0 8 else 0) d)

/-! ### Placement at the target -/

/-- Has every message of a stream before one been placed whole, or failed (R237). -/
def earlierPlaced (r : RecvRec) (n : Nat) : Bool :=
  let k := (msnDiff n r.next).toNat
  (List.range (min k 9)).all (fun j =>
    match mget r.msgs ((r.next + j) % 2 ^ 24) with
    | none => false
    | some m => m.failed || (match m.total with | none => false | some t => decide (t ≤ m.got)))

/-- May a strand be placed now (R236, R237). -/
def mayPlace (d : Dev) (h : Hdr) : Bool :=
  !inOrder h.ord.toNat ||
    match aget d.xp.recvRecs h.rxKey with
    | none => true
    | some r =>
      match r.msg h.msn.toNat with
      | none => true
      | some m => decide (m.nextOff = h.offset.toNat) && (r.unord || earlierPlaced r h.msn.toNat)

/-- The flushing read of a DURABLE message whose bytes have all been placed (R122). Which address it reads
is left open (DESIGN CHOICE, log 43). -/
def flushCheck (h : Hdr) (d : Dev) : Dev :=
  match msgOf d h with
  | none => d
  | some m =>
    match m.total, m.last, epFunc d h.dstEp.toNat with
    | some t, some rx, some f =>
      if t ≤ m.got ∧ m.flushing = false ∧ m.failed = false then
        let (n, d) := fresh d
        hostRead f (n % 2 ^ 64) 0 (.flush rx) (updMsg h (fun m => { m with flushing := true }) d)
      else d
    | _, _, _ => d

/-- A strand's payload has been placed or held (R122, R225, R235): it settles, unless it is the final one
of a DURABLE message; what waited for it may go on. -/
def strandPlaced (rx : Rx) (d : Dev) : Dev :=
  let h := rx.st.hdr
  let d := updMsg h (fun m => { m with nextOff := h.offset.toNat + h.len.toNat, last := if h.durable && h.mlast then some rx else m.last }) d
  let d := if h.durable && h.mlast then d else settle rx d
  let d := flushCheck h (placed rx h.len.toNat d)
  push (.unpark h.dstEp.toNat) d

/-- A strand of a failed or released message settles without being placed (R240) (DEDUCED, log 36). -/
def settleOnly (rx : Rx) (d : Dev) : Dev := placed rx rx.st.hdr.len.toNat (settle rx d)

/-- A WRITE, WRITE_IMM or PUT_COUNT strand at its target, after steps 1 to 4 (R120, R122, R237). -/
def writeTarget (rx : Rx) (d : Dev) : Dev :=
  let h := rx.st.hdr
  let e := h.dstEp.toNat
  match msgOf d h with
  | none => settle rx d
  | some m =>
    if m.failed then settleOnly rx d
    else if h.op = 4 ∧ cntOfEp d (h.opwf 0 18) e = false then refuse rx 0x20 d
    else if !mayPlace d h then park rx .placement d
    else
      match epFunc d e with
      | none => refuse rx 0x26 d
      | some f =>
        access { slot := epSlot d e, f := f, key := some h.key.toNat, remote := true, iova := h.addr.toNat + h.offset.toNat,
                 len := h.len.toNat, right := .w, region := .remoteWrite, act := .find, use := .place rx } d

/-- The place of a strand's payload is known (R120, step 6; R122, R236, R237). -/
def placeDone (rx : Rx) (res : AccRes) (d : Dev) : Dev :=
  let h := rx.st.hdr
  if res.status ≠ 0 then refuse rx res.status d
  else
    match epFunc d h.dstEp.toNat with
    | none => refuse rx 0x26 d
    | some f =>
      match piecesBusy d f.hp res.pieces with
      | some b => waitBusy b (.acc (.place rx) res) d
      | none =>
        let io := inOrder h.ord.toNat
        strandPlaced rx (writeRange f res.pieces rx.st.chunks (!io) (io && h.mlast) d)

/-- The flushing read of a DURABLE message returns (R122), or fails (R120, step 7). -/
def flushDone (rx : Rx) (r : HRead) (d : Dev) : Dev :=
  let h := rx.st.hdr
  if r.status ≠ .ok then refuse rx 0x26 d
  else
    let d := settle rx (updMsg h (fun m => { m with flushed := true }) d)
    push (.unpark h.dstEp.toNat) (tryRelease 16 h.rxKey d)

/-! ### Requests at the target -/

/-- A request that passed steps 1 to 4 begins at its release, or waits for it (R126, R239). -/
def requestTarget (rx : Rx) (d : Dev) : Dev :=
  let h := rx.st.hdr
  match nextOf d h with
  | none => push (.request rx) d
  | some n =>
    if h.unord || decide (msnDiff h.msn.toNat n ≤ 0) then push (.request rx) d
    else updMsg h (fun m => { m with reqs := m.reqs ++ [rx] }) d

/-- Does the host port carry out atomics as AtomicOps (R130). -/
def aopPath (d : Dev) (h : Nat) : Bool := (fn d (mkFunc h 0)).aop && !bitOf (fld d (CLASP + 0x020) 0 8) h

/-- A request begins to execute: steps 1 and 3 again (R126), then its accesses. -/
def requestGo (rx : Rx) (d : Dev) : Dev :=
  let h := rx.st.hdr
  let e := h.dstEp.toNat
  match ep? d e, epFunc d e with
  | some x, some f =>
    if x.state = .error then refuseRequest rx 0x26 d
    else
      let find (right : Right) (region : RegionRight) (use : Use) : Acc :=
        { slot := epSlot d e, f := f, key := some h.key.toNat, remote := true, iova := h.addr.toNat, len := 8,
          right := right, region := region, act := .find, use := use }
      if h.kind = 4 then
        let d := begun rx d
        if h.op = 3 then
          access { slot := epSlot d e, f := f, key := some h.key.toNat, remote := true, iova := h.addr.toNat + h.offset.toNat,
                   len := h.opwf 0 13, right := .r, region := .remoteRead, act := .read, use := .source rx } d
        else
          match d.xp.ops.find? (fun p => p.2.rndv && p.2.state == .running && decide (p.2.ep = e) && decide (p.2.rtag = h.opwf 16 16)
              && decide (p.2.dst = h.srcDa.toNat) && decide (p.2.dstEp = h.srcEp.toNat)) with
          | none => respond rx 5 h.op.toNat h.offset.toNat 0x26 [] d
          | some (_, o) =>
            access { slot := epSlot d e, f := f, key := some (dLkey o.desc), remote := false, iova := dLaddr o.desc + h.offset.toNat,
                     len := h.opwf 0 13, right := .r, region := .any, act := .read, use := .source rx } d
      else if h.kind = 6 then access (find .a .remoteAtomic (.word rx)) d
      else
        match mget d.clasp.domains (h.opwf 0 12) with
        | none => refuseRequest rx 0x26 d
        | some dom =>
          if some dom.slot = epSlot d e then access (find .a .clasp (.word rx)) d else refuseRequest rx 0x26 d
  | _, _ => refuseRequest rx 0x23 d

/-- The rendezvous that an RNDV_READ names (R162). -/
def rndvOf (d : Dev) (h : Hdr) : Option Nat :=
  (d.xp.ops.find? (fun p => p.2.rndv && p.2.state == .running && decide (p.2.ep = h.dstEp.toNat)
    && decide (p.2.rtag = h.opwf 16 16) && decide (p.2.dst = h.srcDa.toNat) && decide (p.2.dstEp = h.srcEp.toNat))).map (·.1)

/-- The source of a READ_REQ or RNDV_READ has been read (R127, R162). -/
def sourceDone (rx : Rx) (res : AccRes) (d : Dev) : Dev :=
  let h := rx.st.hdr
  let e := h.dstEp.toNat
  if h.op = 3 then
    if res.status ≠ 0 then respond rx 5 3 h.offset.toNat (if res.status = 0x70 then 0x26 else res.status) [] (countRefusal d)
    else
      match epFunc d e with
      | none => d
      | some f => respondFrom rx 5 3 h.offset.toNat 0 res.data (.mem (epSlot d e) f none (h.addr.toNat + h.offset.toNat) (h.opwf 0 13)) d
  else
    match rndvOf d h with
    | none => respond rx 5 h.op.toNat h.offset.toNat 0x26 [] d
    | some i =>
      if res.status ≠ 0 then respond rx 5 h.op.toNat h.offset.toNat 0x26 [] (updOp i (fun o => { o with localStatus := res.status }) d)
      else
        match op? d i, epFunc d e with
        | some o, some f =>
          let d := if res.data.any (·.poison) then updOp i (fun o => { o with poison := true }) d else d
          respondFrom rx 5 h.op.toNat h.offset.toNat 0 res.data
            (.mem (epSlot d e) f (some (dLkey o.desc)) (dLaddr o.desc + h.offset.toNat) (h.opwf 0 13)) d
        | _, _ => d

/-- Answers an ATOMIC (R119) (DEDUCED, log 39). -/
def atomicAnswer (rx : Rx) (status value : Nat) (d : Dev) : Dev := respond rx 5 0x10 0 (value % 2 ^ 64 + status * 2 ^ 64) [] d

/-- The read of an atomic's word failed (R131). -/
def atomicFailed (rx : Rx) (st : RdStatus) (d : Dev) : Dev :=
  let d := if st = .hostLost then d else raise (srcWin 10 2) d
  atomicAnswer rx 0x26 0 (countRefusal d)

/-- The word of an ATOMIC or LOCK request is translated (R120, step 6; R130, R132). -/
def wordDone (rx : Rx) (res : AccRes) (d : Dev) : Dev :=
  let h := rx.st.hdr
  match res.pieces.head?, epFunc d h.dstEp.toNat with
  | some (a, _), some f =>
    if res.status ≠ 0 then refuseRequest rx res.status d
    else if h.kind = 7 then lockRequest rx f a d
    else if aopPath d f.hp then
      let d := begun rx d
      match h.op.toNat with
      | 0 => hostAtomic f a 0 (h.opwf 0 64) 0 (.atomOp rx f a) d
      | 1 => hostAtomic f a 2 (h.opwf 0 64) (h.opwf 64 64) (.atomOp rx f a) d
      | 2 => hostAtomic f a 1 (h.opwf 0 64) 0 (.atomOp rx f a) d
      | _ => hostRead f a 8 (.atomLoad rx f a 0) d
    else
      match busyHit d f.hp a 8 with
      | some b => waitBusy b (.acc (.word rx) res) d
      | none => hostRead f a 8 (.atomSer rx f a) (takeWord f.hp a (begun rx d))
  | _, _ => refuseRequest rx (if res.status = 0 then 0x26 else res.status) d

/-- The new value of an atomic's word (R129). -/
def atomicValue (h : Hdr) (word : Nat) : Option Nat := atomicNew h.op.toNat word (h.opwf 0 64) (h.opwf 64 64)

/-- The word read on the serialised path returns (R130, R131). -/
def atomSerDone (rx : Rx) (f : Func) (a : Nat) (r : HRead) (d : Dev) : Dev :=
  if r.status ≠ .ok then freeWord f.hp a (atomicFailed rx r.status d)
  else
    let v := leNat r.bytes
    let d := match atomicValue rx.st.hdr v with
      | some n => hostWrite f a (toLe 8 n) false false d
      | none => d
    freeWord f.hp a (atomicAnswer rx 0 v d)

/-- A FetchAdd, Swap or CAS AtomicOp returns the old word (R130). -/
def atomOpDone (rx : Rx) (r : HRead) (d : Dev) : Dev :=
  if r.status ≠ .ok then atomicFailed rx r.status d else atomicAnswer rx 0 (leNat r.bytes) d

/-- The read of the CAS loop returns (R130) (DEDUCED, log 42). -/
def atomLoadDone (rx : Rx) (f : Func) (a tries : Nat) (r : HRead) (d : Dev) : Dev :=
  if r.status ≠ .ok then atomicFailed rx r.status d
  else
    let v := leNat r.bytes
    hostAtomic f a 2 v ((atomicValue rx.st.hdr v).getD v) (.atomCas rx f a tries v) d

/-- The CAS of the loop returns (R130): it succeeded, is tried again, or the limit is reached (DEDUCED, log 42). -/
def atomCasDone (rx : Rx) (f : Func) (a tries old : Nat) (r : HRead) (d : Dev) : Dev :=
  if r.status ≠ .ok then atomicFailed rx r.status d
  else if leNat r.bytes = old then atomicAnswer rx 0 old d
  else if fld d (CLASP + 0x020) 16 10 ≤ tries + 1 then atomicAnswer rx 0x26 0 (countRefusal d)
  else hostRead f a 8 (.atomLoad rx f a (tries + 1)) d

end Sys2Proof.Machine
end

