-- ==== Sys2Proof/Machine/Match.lean ====
section
/-! DEFINITION. Tag matching (R146 to R168). -/

namespace Sys2Proof.Machine

/-- A matching context. -/
def mctx? (d : Dev) (e : Nat) : Option MCtx := mget d.mt.ctxs e

/-- Changes a matching context. -/
def updMctx (e : Nat) (g : MCtx → MCtx) (d : Dev) : Dev := { d with mt := { d.mt with ctxs := mupd d.mt.ctxs e g } }

/-- A tagged message. -/
def tagMsg? (d : Dev) (mid : Nat) : Option TagMsg := mget d.mt.msgs mid

/-- Changes a tagged message. -/
def updTag (mid : Nat) (g : TagMsg → TagMsg) (d : Dev) : Dev := { d with mt := { d.mt with msgs := mupd d.mt.msgs mid g } }

/-- Does a receive accept an envelope (R147): the receive descriptor, COMM, SRC_RANK, TAG. -/
def acceptsEnv (e : Bytes) (comm rank tag : Nat) : Bool :=
  let c := leAt e 30 1
  let low := c % 128
  decide (leAt e 28 2 = comm) && (bitOf c 7 || decide (leAt e 24 4 = rank)) && decide ((leAt e 16 8) >>> low = tag >>> low)

/-- The envelope of a header (R149): COMM, SRC_RANK, TAG. -/
def envOf (h : Hdr) : Nat × Nat × Nat := (h.opwf 96 16, h.opwf 64 32, h.opwf 0 64)

/-- Does a receive accept a message. -/
def acceptsMsg (e : Bytes) (h : Hdr) : Bool := acceptsEnv e (envOf h).1 (envOf h).2.1 (envOf h).2.2

/-- The length of a message as sent (R149). -/
def tagLen (h : Hdr) : Nat := bitsOf h.addr.toNat 0 32

/-! ### The store and the spill area -/

/-- Entries of the matching store in use. -/
def storeUsed (d : Dev) : Nat :=
  sumOf (d.mt.ctxs.map (fun p =>
    (p.2.posted.filter (fun q => q.spilled.isNone)).length
      + (p.2.unexp.filter (fun m => (tagMsg? d m).any (fun t => t.spilled.isNone))).length))

/-- Slots of a context's spill area in use (DESIGN CHOICE, log 43). -/
def spillSlots (d : Dev) (c : MCtx) : List Nat :=
  c.posted.filterMap (·.spilled) ++ c.unexp.filterMap (fun m => (tagMsg? d m).bind (·.spilled))

/-- Posts MATCH_SPILL (R165 to R167) (DEDUCED, log 44). -/
def spillEvent (e detail : Nat) (d : Dev) : Dev :=
  match ep? d e, epFunc d e with
  | some x, some f => eqPost f x.eq (event d 7 e detail) d
  | _, _ => d

/-- Room for a new entry of a context (R165, R167): none where there is none, else the spill slot it takes.
A spilled entry's 64 bytes and its slot are the device's own. -/
def newEntry (e : Nat) (c : MCtx) (d : Dev) : Option (Option Nat) × Dev :=
  if storeUsed d < 131072 then (some none, d)
  else
    let used := spillSlots d c
    let (n, d) := fresh d
    match firstFree (fun i => !used.contains ((n + i) % 2 ^ c.s)) (if used.length < 2 ^ c.s then 2 ^ c.s else 0) 0 with
    | none => (none, if c.full then d else spillEvent e 3 (updMctx e (fun c => { c with full := true }) d))
    | some k =>
      let slot := (n + k) % 2 ^ c.s
      let (v, d) := fresh d
      let d := match epFunc d e with
        | some f => hostWrite f (c.spBase + 64 * slot) (toLe 64 v) false false d
        | none => d
      (some (some slot), if c.spilled then d else spillEvent e 1 (updMctx e (fun c => { c with spilled := true }) d))

/-- An entry has left the context: a full spill area has room again, and the scan of the receive ring may
go on (R167). -/
def entryGone (e : Nat) (d : Dev) : Dev :=
  match mctx? d e with
  | none => d
  | some c =>
    if c.full && decide ((spillSlots d c).length < 2 ^ c.s) then push (.ringGo e) (updMctx e (fun c => { c with full := false }) d)
    else d

/-- Firmware moves spilled entries back as the store has room (R166) (DEDUCED, log 44). -/
def spillReturn (e : Nat) (d : Dev) : Dev :=
  match mctx? d e with
  | none => d
  | some c =>
    if !c.spilled then d
    else
      let room := 131072 - storeUsed d
      let back := (c.posted.filter (fun q => q.spilled.isSome)).take room
      let seqs := back.map (·.seq)
      let mids := (c.unexp.filter (fun m => (tagMsg? d m).any (fun t => t.spilled.isSome))).take (room - back.length)
      let d := updMctx e (fun c => { c with posted := c.posted.map (fun q => if seqs.contains q.seq then { q with spilled := none } else q) }) d
      let d := mids.foldl (fun d m => updTag m (fun t => { t with spilled := none }) d) d
      let d := match mctx? d e with
        | some c => if spillSlots d c = [] then spillEvent e 2 (updMctx e (fun c => { c with spilled := false }) d) else d
        | none => d
      entryGone e d

/-! ### The unexpected-data area -/

/-- Reservations of a context. -/
def reservations (d : Dev) (e : Nat) : List (Nat × Nat) := (d.mt.msgs.filter (fun p => decide (p.2.ep = e))).filterMap (fun p => p.2.resv)

/-- A place for a reservation (R158), of those right behind another or at the start; which is taken is the
device's own (DESIGN CHOICE, log 43). -/
def reserve (e : Nat) (c : MCtx) (size : Nat) (d : Dev) : Option (Nat × Nat) × Dev :=
  let rs := reservations d e
  let fits := (0 :: rs.map (fun r => r.1 + r.2)).filter (fun o => decide (o + size ≤ 2 ^ c.b) && !rs.any (fun r => overlaps o size r.1 r.2))
  let (p, d) := pickFree fits d
  (p.map (fun o => (o, size)), d)

/-! ### Completion of a receive -/

/-- The ring index of a receive. -/
def recvIndex (d : Dev) (e pos : Nat) : Nat :=
  match (ep? d e).bind (·.recv) with
  | some r => pos % 2 ^ r.n
  | none => 0

/-- Writes the envelope record (R151). -/
def envelopeRecord (e : Nat) (r : Recv) (m : TagMsg) (d : Dev) : Dev :=
  match mctx? d e, epFunc d e with
  | some c, some f =>
    let v := envOf m.hdr
    hostWrite f (c.recBase + 32 * recvIndex d e r.pos)
      (toLe 8 v.2.2 ++ toLe 4 v.2.1 ++ toLe 2 v.1 ++ toLe 1 (b2n m.rndv) ++ [0] ++ toLe 4 m.len ++ zeros 12) false false d
  | _, _ => d

/-- The completion of a tagged receive (R151, R163). -/
def tagEntry (d : Dev) (e : Nat) (r : Recv) (m : TagMsg) (status bytes : Nat) : Cqe :=
  { entry d e true 0x41 status with
    ringIndex := recvIndex d e r.pos, bytes := bytes, dataValid := true,
    data := (envOf m.hdr).2.1 + m.hdr.srcEp.toNat * 2 ^ 32, srcDa := m.hdr.srcDa.toNat }

/-- Forgets a tagged message. -/
def dropTag (mid : Nat) (d : Dev) : Dev := { d with mt := { d.mt with msgs := mdel d.mt.msgs mid } }

/-- A tagged receive completes: envelope record, then completion (R151, R161). -/
def tagFinish (mid status : Nat) (d : Dev) : Dev :=
  match tagMsg? d mid with
  | none => d
  | some m =>
    match m.recv with
    | none => d
    | some r =>
      let most := dLen r.desc
      let st := if 4 ≤ status then status else if most < m.len then 0x40 else if m.poison || status == 1 then 1 else status
      let bytes := if st = 0x40 ∨ st < 4 then min m.len most else 0
      recvComplete m.ep (tagEntry d m.ep r m st bytes) (envelopeRecord m.ep r m (dropTag mid d))

/-- Completes an eager message whose stream has released it and whose bytes are all placed and copied
(R158). -/
def tagCheck (mid : Nat) (d : Dev) : Dev :=
  match tagMsg? d mid with
  | none => d
  | some m => if !m.rndv && m.released && m.recv.isSome && m.copies == 0 then tagFinish mid 0 d else d

/-- The placement of a taken receive fails R108 (R164, step 8): it completes with the local status. -/
def tagFail (mid status : Nat) (d : Dev) : Dev :=
  match tagMsg? d mid with
  | none => d
  | some m => tagFinish mid status (updMsg m.hdr (fun x => { x with failed := true }) d)

/-! ### Rendezvous at the receiver -/

/-- A new operation. -/
def newOp (o : Op) (d : Dev) : Nat × Dev :=
  (d.xp.nextOp, updXp (fun x => { x with ops := mset x.ops x.nextOp o, nextOp := x.nextOp + 1 }) d)

/-- Sends RNDV_DONE (R161). -/
def sendDone (mid : Nat) (m : TagMsg) (bytes status : Nat) (d : Dev) : Dev :=
  let (i, d) := newOp { owner := .pull mid, ep := m.ep, code := 0x0C, desc := [0x0C, 0, BitVec.ofNat 8 m.hdr.tc.toNat],
                        dst := m.hdr.srcDa.toNat, dstEp := m.hdr.srcEp.toNat, ord := m.hdr.ord.toNat, len := bytes,
                        rtag := bitsOf m.hdr.addr.toNat 32 16, localStatus := status } d
  startOp i d

/-- A pull has ended (R161, R164): the receive completes and RNDV_DONE is sent. -/
def pullDone (mid status : Nat) (d : Dev) : Dev :=
  match tagMsg? d mid with
  | none => d
  | some m =>
    match m.recv with
    | none => d
    | some r =>
      let ok := decide (status < 4)
      let d := tagFinish mid status d
      sendDone mid m (if ok then min m.len (dLen r.desc) else 0) (if ok then status else 0x26) d

/-- Starts the pull of a delivered rendezvous (R160) (DEDUCED, log 86). -/
def pullStart (mid : Nat) (m : TagMsg) (r : Recv) (d : Dev) : Dev :=
  let t := min m.len (dLen r.desc)
  let d := updTag mid (fun m => { m with pulled := true }) d
  if t = 0 then pullDone mid 0 d
  else
    let (i, d) := newOp { owner := .pull mid, ep := m.ep, code := 0x0B,
                          desc := patch r.desc 1 [0, BitVec.ofNat 8 m.hdr.tc.toNat],
                          dst := m.hdr.srcDa.toNat, dstEp := m.hdr.srcEp.toNat, ord := m.hdr.ord.toNat, len := t,
                          rtag := bitsOf m.hdr.addr.toNat 32 16 } d
    startOp i d

/-! ### Matching -/

/-- Copies the bytes held in a reservation into the buffer that took the message (R158). -/
def copyHeld (mid : Nat) (m : TagMsg) (r : Recv) (d : Dev) : Dev :=
  match mctx? d m.ep, epFunc d m.ep, m.resv with
  | some c, some f, some v =>
    let ps := (m.held.map (fun p => (p.1, min p.2 (dLen r.desc - p.1)))).filter (fun p => decide (0 < p.2))
    let d := updTag mid (fun m => { m with copies := ps.length, resv := if ps = [] then none else m.resv }) d
    ps.foldl (fun d p => hostRead f (c.uBase + v.1 + p.1) p.2 (.unexp mid p.1 p.2) d) d
  | _, _, _ => d

/-- Delivers a message to a receive (R154). -/
def deliver (mid : Nat) (r : Recv) (d : Dev) : Dev :=
  let d := updTag mid (fun m => { m with recv := some r, spilled := none }) d
  match tagMsg? d mid with
  | none => d
  | some m => if m.rndv then pullStart mid m r d else tagCheck mid (copyHeld mid m r d)

/-- Posts a receive (R154): it takes the first unexpected message it accepts, or is appended; none where
there is no room for it (R167). -/
def postTagged (e : Nat) (r : Recv) (d : Dev) : Bool × Dev :=
  match mctx? d e with
  | none => (false, d)
  | some c =>
    match c.unexp.find? (fun m => (tagMsg? d m).any (fun t => acceptsMsg r.desc t.hdr)) with
    | some mid => (true, entryGone e (deliver mid r (updMctx e (fun c => { c with unexp := c.unexp.filter (· != mid) }) d)))
    | none =>
      match newEntry e c d with
      | (none, d) => (false, d)
      | (some sl, d) =>
        (true, updMctx e (fun c => { c with posted := c.posted ++ [{ seq := c.seq, recv := r, spilled := sl }], seq := (c.seq + 1) % 2 ^ 32 }) d)

/-- Could a receive be posted now (R167). -/
def canPost (d : Dev) (e : Nat) (desc : Bytes) : Bool :=
  match mctx? d e with
  | none => true
  | some c => c.unexp.any (fun m => (tagMsg? d m).any (fun t => acceptsMsg desc t.hdr)) || decide (storeUsed d < 131072)
      || decide ((spillSlots d c).length < 2 ^ c.s)

/-- The match of an arriving message (R154): the earliest posted receive that accepts it takes it, or it is
held as unexpected; none where there is no room (R158, R167). -/
def matchArrive (h : Hdr) (d : Dev) : Option Nat × Dev :=
  let e := h.dstEp.toNat
  match mctx? d e with
  | none => (none, d)
  | some c =>
    let mid := d.mt.nextMid
    let m : TagMsg := { ep := e, hdr := h, rndv := h.op == 0x0A, len := tagLen h }
    let add (m : TagMsg) (d : Dev) : Dev := { d with mt := { d.mt with msgs := mset d.mt.msgs mid m, nextMid := mid + 1 } }
    match c.posted.find? (fun q => acceptsMsg q.recv.desc h) with
    | some q =>
      let d := updMctx e (fun c => { c with posted := c.posted.filter (fun x => x.seq != q.seq) }) (add m d)
      (some mid, entryGone e (deliver mid q.recv d))
    | none =>
      let (rv, d) := if m.rndv then (some none, d) else
        match reserve e c (ceilDiv m.len 64 * 64) d with
        | (some v, d) => (some (some v), d)
        | (none, d) => (none, d)
      match rv with
      | none => (none, d)
      | some v =>
        match newEntry e c d with
        | (none, d) => (none, d)
        | (some sl, d) =>
          (some mid, updMctx e (fun c => { c with unexp := c.unexp ++ [mid] }) (add { m with resv := v, spilled := sl } d))

/-- May a message of a stream take its receive (R71) or be matched (R155): every earlier message of the
stream is in progress, and each of them that takes a receive, or is tagged, has done so. -/
def orderReady (tagged : Bool) (r : RecvRec) (n : Nat) : Bool :=
  let k := (msnDiff n r.next).toNat
  (List.range (min k 9)).all (fun j =>
    match mget r.msgs ((r.next + j) % 2 ^ 24) with
    | none => false
    | some m => m.failed || m.hdr.kind != 0 ||
        (if tagged then (m.hdr.op != 9 && m.hdr.op != 0x0A) || m.tagged.isSome else m.hdr.op != 8 || m.recv.isSome))

/-- As `orderReady`, for a strand's message. -/
def mayMatch (d : Dev) (tagged : Bool) (h : Hdr) : Bool :=
  match aget d.xp.recvRecs h.rxKey with
  | none => true
  | some r => r.unord || orderReady tagged r h.msn.toNat

/-- Places a strand of a matched message in its receive's buffer (R158, R163): bytes at or beyond its LEN
are discarded. -/
def placeInRecv (rx : Rx) (r : Recv) (d : Dev) : Dev :=
  let h := rx.st.hdr
  let n := min h.len.toNat (dLen r.desc - h.offset.toNat)
  if n = 0 then strandPlaced rx d
  else
    match localPlace d h.dstEp.toNat (dLkey r.desc) (dLaddr r.desc + h.offset.toNat) n (.placeRecv rx) with
    | none => refuse rx 0x26 d
    | some a => access a d

/-- Places a strand of a tagged message: in its receive's buffer, or in its reservation (R158). -/
def tagPlace (rx : Rx) (mid : Nat) (d : Dev) : Dev :=
  let h := rx.st.hdr
  match tagMsg? d mid with
  | none => settleOnly rx d
  | some m =>
    if m.rndv then strandPlaced rx d
    else if !mayPlace d h then park rx .placement d
    else
      match m.recv, m.resv, mctx? d m.ep, epFunc d m.ep with
      | some r, _, _, _ => placeInRecv rx r d
      | none, some v, some c, some f =>
        let d := hostWriteChunks f (c.uBase + v.1 + h.offset.toNat) rx.st.chunks false d
        let d := updTag mid (fun m => { m with held := m.held ++ [(h.offset.toNat, h.len.toNat)], poison := m.poison || rx.st.poisoned }) d
        strandPlaced rx d
      | _, _, _, _ => strandPlaced rx d

/-- A SEND_TAGGED or RNDV_RTS strand at its target, after steps 1 to 4 (R155 to R158, R164). -/
def tagTarget (rx : Rx) (d : Dev) : Dev :=
  let h := rx.st.hdr
  let e := h.dstEp.toNat
  if (mctx? d e).isNone then refuse rx 0x26 d
  else
    match msgOf d h with
    | none => settle rx d
    | some m =>
      if m.failed then settleOnly rx d
      else
        match m.tagged with
        | some mid => tagPlace rx mid d
        | none =>
          if !mayMatch d true h then park rx .matching d
          else
            match matchArrive h d with
            | (none, d) => refuseNotReady rx d
            | (some mid, d) => push (.unpark e) (tagPlace rx mid (updMsg h (fun m => { m with tagged := some mid }) d))

/-- The place of a strand in a taken receive's buffer is known (R71, R158, R164). -/
def placeRecvDone (rx : Rx) (res : AccRes) (fail : Nat → Dev → Dev) (d : Dev) : Dev :=
  let h := rx.st.hdr
  if res.status ≠ 0 then refuse rx 0x26 (fail res.status d)
  else
    match epFunc d h.dstEp.toNat with
    | none => refuse rx 0x26 d
    | some f =>
      match piecesBusy d f.hp res.pieces with
      | some b => waitBusy b (.acc (.placeRecv rx) res) d
      | none =>
        let n := sumOf (res.pieces.map (·.2))
        let io := inOrder h.ord.toNat
        let d := writeRange f res.pieces (takeChunks n rx.st.chunks) (!io) (io && h.mlast) d
        let d := match (msgOf d h).bind (·.tagged) with
          | some mid => updTag mid (fun m => { m with poison := m.poison || rx.st.poisoned }) d
          | none => d
        strandPlaced rx d

/-- Unexpected data has been read back for a match (R158). -/
def unexpDone (mid off len : Nat) (r : HRead) (d : Dev) : Dev :=
  match tagMsg? d mid with
  | none => d
  | some m =>
    match m.recv with
    | none => d
    | some q =>
      if r.status ≠ .ok ∧ r.status ≠ .poisoned then tagFail mid (if r.status = .hostLost then 0x70 else 0x14) d
      else
        match localPlace d m.ep (dLkey q.desc) (dLaddr q.desc + off) len (.unexpPlace mid off len) with
        | none => d
        | some a => access { a with act := .write r.chunks (!inOrder m.hdr.ord.toNat) }
            (if r.chunks.any (·.poison) then updTag mid (fun m => { m with poison := true }) d else d)

/-- Unexpected data has been copied into the buffer (R158). -/
def unexpPlaced (mid : Nat) (res : AccRes) (d : Dev) : Dev :=
  if res.status ≠ 0 then tagFail mid res.status d
  else
    tagCheck mid (updTag mid (fun m => { m with
      copies := m.copies - 1, resv := if m.copies ≤ 1 then none else m.resv, held := if m.copies ≤ 1 then [] else m.held }) d)

/-- A stream releases a tagged message (R235). -/
def tagReleased (mid : Nat) (d : Dev) : Dev := tagCheck mid (updTag mid (fun m => { m with released := true }) d)

/-- RNDV_DONE arrives at the sender (R161, R162) (DEDUCED, log 86). -/
def rndvDone (rx : Rx) (d : Dev) : Dev :=
  let h := rx.st.hdr
  let d := match d.xp.ops.find? (fun p => p.2.rndv && p.2.state == .running && decide (p.2.ep = h.dstEp.toNat)
      && decide (p.2.rtag = h.opwf 32 16) && decide (p.2.dst = h.srcDa.toNat) && decide (p.2.dstEp = h.srcEp.toNat)) with
    | some (i, o) =>
      let st := if h.opwf 48 8 = 0 ∧ o.poison = true then 1 else h.opwf 48 8
      opEnd i st (updOp i (fun o => { o with bytes := some (h.opwf 0 32) }) d)
    | none => d
  strandPlaced rx d

/-- Entering ERROR, or RESET from DRAINING (R168): unexpected messages go, rendezvous not finished are
answered. -/
def tagStop (e : Nat) (d : Dev) : Dev :=
  let ms := d.mt.msgs.filter (fun p => decide (p.2.ep = e))
  let d := ms.foldl (fun d p => if p.2.rndv then sendDone p.1 p.2 0 0x26 d else d) d
  let d := { d with mt := { d.mt with msgs := d.mt.msgs.filter (fun p => decide (p.2.ep ≠ e)) } }
  updMctx e (fun c => { c with unexp := [], posted := [], spilled := false, full := false }) d

end Sys2Proof.Machine
end

