-- ==== Sys2Proof/Machine/Coll.lean ====
section
/-! DEFINITION. Collectives: Ricks, instances, their steps, STEP_DATA and ARM_FIRE, aborts and the paced
release (R172 to R211). -/

namespace Sys2Proof.Machine

/-! ### COLL_START fields (R175) -/

def csGroup (e : Bytes) : Nat := bitsOf (leAt e 16 2) 0 12
def csRick (e : Bytes) : Nat := bitsOf (leAt e 18 2) 0 10
def csRoot (e : Bytes) : Nat := bitsOf (leAt e 20 4) 0 20
def csRop (e : Bytes) : Nat := bitsOf (leAt e 24 1) 0 4
def csDtype (e : Bytes) : Nat := bitsOf (leAt e 24 1) 4 4
def csMode (e : Bytes) : Nat := bitsOf (leAt e 25 1) 0 2
def csPaced (e : Bytes) : Bool := bitOf (leAt e 25 1) 2
def csP (e : Bytes) : Nat := bitsOf (leAt e 26 2) 0 13
def csDaddr (e : Bytes) : Nat := leAt e 44 8
def csDkey (e : Bytes) : Nat := leAt e 52 4
def csCounter (e : Bytes) : Nat := bitsOf (leAt e 56 4) 0 18
/-- s, w, E and K of an instance (R177, R189). -/
def csS (e : Bytes) : Nat := elemSize (csRop e) (csDtype e)
def csW (e : Bytes) : Nat := wireElem (csRop e) (csDtype e) (csMode e)
def csE (e : Bytes) : Nat := dLen e / max 1 (csS e)
def csK (e : Bytes) : Nat := ceilDiv (csE e) (max 1 (csP e))

/-! ### Step fields (R180) -/

def sOp (v : Nat) : Nat := bitsOf v 0 6
def sPeerMode (v : Nat) : Nat := bitsOf v 6 2
def sPeer (v : Nat) : Nat := bitsOf v 8 20
def sPeerShift (v : Nat) : Bool := bitOf v 28
def sCond (v : Nat) : Nat := bitsOf v 29 2
def sChunk (v : Nat) : Nat := bitsOf v 32 12
def sNchunk (v : Nat) : Nat := bitsOf v 44 13
def sChunkRank (v : Nat) : Bool := bitOf v 57
def sChunkIter (v : Nat) : Nat := bitsOf v 58 2
def sSrc (v : Nat) : Nat := bitsOf v 64 2
def sDst (v : Nat) : Nat := bitsOf v 66 2
def sSrcSlot (v : Nat) : Nat := bitsOf v 68 4
def sDstSlot (v : Nat) : Nat := bitsOf v 72 4
def sMtag (v : Nat) : Nat := bitsOf v 76 8
def sTarget (v : Nat) : Nat := bitsOf v 84 8
def sArg (v : Nat) : Nat := bitsOf v 96 32

/-- Does a step move data. -/
def sMoves (v : Nat) : Bool := decide (1 ≤ sOp v) && decide (sOp v ≤ 5)

/-- Does a step receive. -/
def sReceives (v : Nat) : Bool := decide (2 ≤ sOp v) && decide (sOp v ≤ 4)

/-! ### Rick images -/

/-- Violates a step check 5 of R187. -/
def stepReserved (v : Nat) : Bool :=
  let op := sOp v
  let arg := sArg v
  decide (op = 0) || decide (9 < op) || bitOf v 31 || bitsOf v 60 4 != 0 || bitsOf v 92 4 != 0 || sChunkIter v == 3
    || sDst v == 0 || (op != 8 && sTarget v != 0)
    || (if sMoves v then decide (sNchunk v = 0) || decide (4096 < sNchunk v)
        else sPeerMode v != 0 || sPeer v != 0 || sPeerShift v || sChunk v != 0 || sNchunk v != 0 || sChunkRank v
          || sChunkIter v != 0 || sSrcSlot v != 0 || sDstSlot v != 0 || sMtag v != 0)
    || ((op == 8 || op == 9) && sCond v != 0)
    || (match op with
        | 4 => bitsOf arg 23 9 != 0
        | 5 => decide (arg % 2 ^ 16 = 0) || decide (256 < arg % 2 ^ 16) || decide (arg / 2 ^ 16 = 0)
        | 6 => !bitOf arg 31 && arg != 0
        | 7 => arg == 0
        | 8 => decide (arg % 2 ^ 16 = 0) || decide (arg / 2 ^ 16 ≠ 0)
        | _ => arg != 0)

/-- Are SRC and DST permitted for the OP (R181). -/
def stepPlaces (v : Nat) : Bool :=
  let s := sSrc v
  let t := sDst v
  match sOp v with
  | 1 => decide (s < 3) && t == 3
  | 2 => s == 3 && (t == 1 || t == 2)
  | 3 => decide (s < 3) && (t == 1 || t == 2)
  | 4 => s == 3 && (t == 1 || t == 2)
  | 5 => decide (s < 3) && t == 3
  | _ => s == 3 && t == 3

/-- The loops of a Rick: index and target. -/
def rickLoops (steps : List Nat) : List (Nat × Nat) :=
  (steps.zipIdx).filterMap (fun p => if sOp p.1 = 8 then some (p.2, sTarget p.1) else none)

/-- Do the loops violate check 7 of R187. -/
def loopsBad (steps : List Nat) : Bool :=
  let ls := rickLoops steps
  ls.any (fun l => decide (l.1 ≤ l.2))
    || ls.any (fun a => ls.any (fun b => decide (a.1 < b.1) && decide (b.2 ≤ a.1) && decide (a.2 < b.2)))
    || (List.range steps.length).any (fun i => decide (4 < (ls.filter (fun l => decide (l.2 ≤ i) && decide (i < l.1))).length))

/-- The steps of an image. -/
def rickSteps : Nat → Bytes → List Nat
  | 0, _ => []
  | n + 1, bs => leNat (bs.take 16) :: rickSteps n (bs.drop 16)

/-- The load checks of R187 on an image of a length, from check 2 on: the reason of the first that fails,
or the Rick. -/
def rickLoad (img : Bytes) (length : Nat) : Nat ⊕ Rick :=
  let n := leAt img 6 2
  let body := slice img 64 (16 * n)
  let steps := rickSteps n body
  let r : Rick := { slots := leAt img 8 1, flags := leAt img 9 1, minM := leAt img 12 4, maxM := leAt img 16 4,
                    build := leAt img 20 8, crc := leAt img 28 4, steps := steps }
  if leAt img 0 4 ≠ 0x4B434952 then .inl 0x1310
  else if leAt img 4 2 ≠ 1 ∨ r.flags / 2 ≠ 0 ∨ leAt img 10 2 ≠ 0 ∨ allZero (slice img 32 32) = false then .inl 0x1311
  else if n = 0 ∨ 256 < n ∨ length ≠ 64 + 16 * n ∨ 16 < r.slots ∨ r.minM = 0 ∨ r.maxM < r.minM ∨ 1048576 < r.maxM then .inl 0x1312
  else if (crc32 body).toNat ≠ r.crc then .inl 0x1313
  else if steps.any stepReserved then .inl 0x1314
  else if steps.any (fun v => !stepPlaces v) then .inl 0x1315
  else if loopsBad steps then .inl 0x1316
  else if sOp (steps.getLast?.getD 0) ≠ 9 ∨ 1 < (steps.filter (fun v => sOp v == 9)).length then .inl 0x1317
  else if steps.any (fun v => sMoves v && ((sSrc v == 2 && decide (r.slots ≤ sSrcSlot v)) || (sDst v == 2 && decide (r.slots ≤ sDstSlot v)))) then .inl 0x1318
  else if (steps.any (fun v => sOp v == 3)) ≠ (r.flags == 1) then .inl 0x1319
  else .inr r

/-! ### Groups and instances -/

/-- The local members of a group: rank and endpoint, in rank order (R173). -/
def localMembers (d : Dev) (g : Group) : List (Nat × Nat) :=
  (g.table.zipIdx).filterMap (fun p => if p.1.1 = d.rtr.da then some (p.2, p.1.2) else none)

/-- The rank of a local member. -/
def rankOf (d : Dev) (g : Group) (e : Nat) : Option Nat := ((localMembers d g).find? (fun p => decide (p.2 = e))).map (·.1)

/-- An instance, its operation's descriptor, its group and its Rick. -/
def inst? (d : Dev) (i : Nat) : Option Inst := mget d.coll.insts i

def instDesc (d : Dev) (x : Inst) : Bytes := ((op? d x.op).map (·.desc)).getD []

/-- Changes an instance. -/
def updInst' (i : Nat) (g : Inst → Inst) (d : Dev) : Dev := updColl (fun c => { c with insts := mupd c.insts i g }) d

/-- Changes a step of an instance. -/
def updStep (i no : Nat) (g : CStep → CStep) (d : Dev) : Dev :=
  updInst' i (fun x => { x with steps := x.steps.map (fun s => if s.no = no then g s else s) }) d

/-- A step of an instance. -/
def step? (d : Dev) (i no : Nat) : Option CStep := (inst? d i).bind (fun x => x.steps.find? (fun s => decide (s.no = no)))

/-- The Rick step of an index. -/
def rickStep (d : Dev) (x : Inst) (ix : Nat) : Nat := ((mget d.coll.ricks x.rick).bind (fun r => r.steps[ix]?)).getD 0

/-- The field checks of COLL_START (R176). -/
def collStartBad (d : Dev) (e : Nat) (b : Bytes) : Bool :=
  match mget d.coll.groups (csGroup b), mget d.coll.ricks (csRick b) with
  | some g, some r =>
    let m := (localMembers d g).length
    (decide (epSlot d e ≠ some g.slot)) || (rankOf d g e).isNone || decide (g.n < r.minM) || decide (r.maxM < g.n)
      || !ropPermitted (csRop b) (csDtype b) (csMode b)
      || (match contribLimit (csDtype b) (csMode b) with | some l => decide (l < g.n) | none => false)
      || decide (dLen b % max 1 (csS b) ≠ 0) || decide (csP b = 0) || decide (4096 < csP b)
      || decide (g.size < m * r.slots * csE b * csW b)
      || (r.steps.any (fun v => (sOp v == 6 && bitOf (sArg v) 31) || sOp v == 7) && !cntOfEp d (csCounter b) e)
  | _, _ => true

/-- The element ranges of chunks (R177, R183) (DEDUCED, log 46). -/
def chunkSegs (b : Bytes) (first n : Nat) : List (Nat × Nat) :=
  let p := max 1 (csP b)
  (List.range (min n p)).foldl (fun ss j =>
    let c := (first + j) % p
    let lo := min (csE b) (c * csK b)
    let hi := min (csE b) ((c + 1) * csK b)
    if lo = hi then ss
    else
      match ss.getLast? with
      | some q => if q.1 + q.2 = lo then ss.dropLast ++ [(q.1, q.2 + (hi - lo))] else ss ++ [(lo, hi - lo)]
      | none => [(lo, hi - lo)]) []

/-- Elements in ranges (DEDUCED, log 46). -/
def segLen (ss : List (Nat × Nat)) : Nat := sumOf (ss.map (·.2))

/-- Do element ranges share an element. -/
def segsMeet (a b : List (Nat × Nat)) : Bool := a.any (fun x => b.any (fun y => overlaps x.1 x.2 y.1 y.2))

/-- A peer rank (R182): none where it is invalid. -/
def resolvePeer (mode v r root n : Nat) : Option Nat :=
  let p := match mode with
    | 0 => v
    | 1 => (r + v) % n
    | 2 => r ^^^ v
    | _ => (root + v) % n
  if p < n then some p else none

/-- The iteration of a step (R185): that of the innermost loop whose body holds it. -/
def stepIter (d : Dev) (x : Inst) (ix : Nat) : Nat :=
  match (rickLoops (((mget d.coll.ricks x.rick).map (·.steps)).getD [])).find? (fun l => decide (l.2 ≤ ix) && decide (ix < l.1)) with
  | some l => (aget x.iters l.1).getD 0
  | none => 0

/-- The peers of a step (R181, R182); none for an invalid one. -/
def stepPeers (v r root n it : Nat) : List (Option Nat) :=
  let sh (p : Nat) (b : Bool) : Nat := if b then p <<< it else p
  match sOp v with
  | 5 => (List.range (sArg v % 2 ^ 16)).map (fun j => resolvePeer (sPeerMode v) (sh (sPeer v + j * (sArg v / 2 ^ 16)) (sPeerShift v)) r root n)
  | 4 => [resolvePeer (sPeerMode v) (sh (sPeer v) (sPeerShift v)) r root n,
          resolvePeer (bitsOf (sArg v) 20 2) (sh (bitsOf (sArg v) 0 20) (bitOf (sArg v) 22)) r root n]
  | o => if 1 ≤ o ∧ o ≤ 3 then [resolvePeer (sPeerMode v) (sh (sPeer v) (sPeerShift v)) r root n] else []

/-- Is a step skipped (R182). -/
def stepSkipped (v r root : Nat) (peers : List (Option Nat)) : Bool :=
  match sCond v with
  | 1 => decide (r ≠ root)
  | 2 => decide (r = root)
  | 3 => peers.any (·.isNone)
  | _ => false

/-- What a step reads and writes: the view (0 USER_SRC, 1 USER_DST, 2 + k slot k). -/
def readView (v : Nat) : Option Nat := match sSrc v with | 2 => some (2 + sSrcSlot v) | 3 => none | s => some s
def writeView (v : Nat) : Option Nat := match sDst v with | 1 => some 1 | 2 => some (2 + sDstSlot v) | _ => none

/-- Do two accesses to views share an element. -/
def viewsMeet (a b : Option Nat) (sa sb : List (Nat × Nat)) : Bool :=
  match a, b with
  | some x, some y => decide (x = y) && segsMeet sa sb
  | _, _ => false

/-- Is a step held by an earlier incomplete one (R184). -/
def heldBy (mode : Nat) (t : Nat) (ts : List (Nat × Nat)) (v : Nat) (vs : List (Nat × Nat)) : Bool :=
  if mode = 0 ∧ sOp t = 3 ∧ sOp v = 3 ∧ viewsMeet (writeView t) (writeView v) ts vs = true then false
  else viewsMeet (writeView t) (readView v) ts vs || viewsMeet (writeView t) (writeView v) ts vs || viewsMeet (readView t) (writeView v) ts vs

/-! ### Sends of a step -/

/-- The bus address of an element of a staging slot (R183). -/
def stageAddr (d : Dev) (x : Inst) (slot first : Nat) : Nat :=
  match mget d.coll.groups x.group with
  | none => 0
  | some g =>
    let b := instDesc d x
    let slots := ((mget d.coll.ricks x.rick).map (·.slots)).getD 0
    let m := ((localMembers d g).takeWhile (fun p => decide (p.2 ≠ x.ep))).length
    g.scratch + (m * slots + slot) * csE b * csW b + first * csW b

/-- The source of elements of a view in wire form. -/
def viewSrc (d : Dev) (x : Inst) (view first count : Nat) : PaySrc :=
  let b := instDesc d x
  match epFunc d x.ep with
  | none => .none
  | some f =>
    if count = 0 then .none
    else if 2 ≤ view then .elems none f none (stageAddr d x (view - 2) first) (count * csW b) true (csDtype b) (csMode b)
    else
      let base := if view = 0 then dLaddr b else csDaddr b
      let key := if view = 0 then dLkey b else csDkey b
      .elems (epSlot d x.ep) f (some key) (base + first * csS b) (count * csS b) false (csDtype b) (csMode b)

/-- The header of STEP_DATA (R188). -/
def collHdr (d : Dev) (x : Inst) (o : Op) (tag first bytes : Nat) (last : Bool) : Hdr :=
  let key := ((mget d.coll.groups x.group).map (·.key)).getD 0
  setLast { opHdr d o 8 1 with
    offset := BitVec.ofNat 32 (first * csW (instDesc d x)), len := BitVec.ofNat 13 bytes,
    opw := BitVec.ofNat 128 (key + x.num * 2 ^ 32 + tag * 2 ^ 48 + x.rank * 2 ^ 56) } last

/-- The strands of element ranges (R189): first element and number. -/
def collParts (d : Dev) (b : Bytes) (segs : List (Nat × Nat)) : List (Nat × Nat) :=
  let per := max 1 (mtu d / max 1 (csW b))
  let ps := (segs.map (fun s => (List.range (ceilDiv s.2 per)).map (fun k => (s.1 + k * per, min per (s.2 - k * per))))).flatten
  if ps = [] then [(0, 0)] else ps

/-- Reads the elements of one strand and sends them to the peers of operations. -/
def collRead1 (i : Nat) (x : Inst) (view : Nat) (ops : List Nat) (p : Nat × Nat) (last : Bool) (d : Dev) : Dev :=
  match (viewSrc d x view p.1 p.2).range with
  | none => push (.accDone (.collSend i ops p.1 p.2 last) { status := 0 }) d
  | some _ => readPay (viewSrc d x view p.1 p.2) (.collSend i ops p.1 p.2 last) d

/-- Sends the range of a step to the peers of operations that have their MSN (R181). -/
def collSendRange (i : Nat) (x : Inst) (s : CStep) (ops : List Nat) (d : Dev) : Dev :=
  if ops = [] then d
  else
    let b := instDesc d x
    let ps := collParts d b s.segs
    let d := ops.foldl (fun d o => updOp o (fun y => { y with left := ps.length }) d) d
    let view := (readView (rickStep d x s.ix)).getD 0
    (ps.zipIdx).foldl (fun d p => collRead1 i x view ops p.1 (decide (p.2 + 1 = ps.length)) d) d

/-- Gives a send its MSN: false where it must wait, or its peer is unreachable (R215, R233). -/
def collTake (o : Nat) (d : Dev) : Bool × Dev :=
  match op? d o with
  | none => (false, d)
  | some y =>
    if y.state ≠ .waiting then (false, d)
    else if (peer d y.dst).state = .unreachable ∧ isSelf d y.dst = false then (false, opEnd o 0x30 d)
    else
      match takeMsn o d with
      | none => (false, d)
      | some d => (true, updOp o (fun y => { y with state := .running }) d)

/-- The step of a send. -/
def stepOfOp (d : Dev) (o : Nat) : Option (Nat × Inst × CStep) :=
  match op? d o with
  | none => none
  | some y =>
    match y.owner with
    | .coll i no _ =>
      match inst? d i, step? d i no with
      | some x, some s => some (i, x, s)
      | _, _ => none
    | _ => none

/-- Sends on the strands of a FWD that were placed (R181); the last carries MLAST. -/
def flushFwd (i no : Nat) (d : Dev) : Dev :=
  match inst? d i, step? d i no with
  | some x, some s =>
    match s.ops.head? with
    | none => d
    | some o =>
      match op? d o with
      | none => d
      | some y =>
        if y.state ≠ .running then d
        else
          let b := instDesc d x
          let w := max 1 (csW b)
          let fin := decide (s.todo = 0) && !s.need
          let n := s.fwd.length
          let d := updStep i no (fun s => { s with fwd := [] }) d
          let tag := sMtag (rickStep d x s.ix)
          let d := (s.fwd.zipIdx).foldl (fun d p =>
            let h := p.1.st.hdr
            let first := h.offset.toNat / w
            let view := (writeView (rickStep d x s.ix)).getD 1
            let g := collHdr d x y tag first h.len.toNat (fin && decide (p.2 + 1 = n))
            let (cid, d) := newContent { op := some o, hdr := g, hp := hpOf d x.ep, ep := x.ep, src := viewSrc d x view first (h.len.toNat / w) } d
            contentReady cid p.1.st.chunks (updOp o (fun y => { y with left := y.left + 1 }) d)) d
          if fin && decide (n ≠ 0) then
            let left : Nat := ((op? d o).map (·.left)).getD 1
            let d := updOp o (fun y => { y with left := y.left - 1 }) d
            if left = 1 then opEnd o 0 d else d
          else d
  | _, _ => d

/-- Starts a send that waited for its MSN. -/
def collOpStart (o : Nat) (d : Dev) : Dev :=
  match stepOfOp d o with
  | none => d
  | some (i, x, s) =>
    match collTake o d with
    | (false, d) => d
    | (true, d) =>
      if sOp (rickStep d x s.ix) = 4 then flushFwd i s.no (updOp o (fun y => { y with left := 1 }) d)
      else collSendRange i x s [o] d

/-- The elements of a strand have been read (R181): a content goes to each peer. -/
def collSendDone (i : Nat) (ops : List Nat) (first count : Nat) (last : Bool) (res : AccRes) (abort : Nat → Nat → Nat → Dev → Dev) (d : Dev) : Dev :=
  match inst? d i with
  | none => d
  | some x =>
    let live := ops.filterMap (fun o => (stepOfOp d o).map (fun s => (o, s.2.2)))
    match live.head? with
    | none => d
    | some (_, s) =>
      if res.status ≠ 0 then abort 6 s.ix x.rank d
      else
        let v := rickStep d x s.ix
        let src := viewSrc d x ((readView v).getD 0) first count
        let data := src.wire res.data
        live.foldl (fun d o =>
          match op? d o.1 with
          | none => d
          | some y =>
            if y.state ≠ .running then d
            else
              let h := collHdr d x y (sMtag v) first (chunksLen data) last
              let (cid, d) := newContent { op := some o.1, hdr := h, hp := hpOf d x.ep, ep := x.ep, src := src } d
              contentReady cid data d) d

/-! ### Receiving steps -/

/-- A step of an instance is complete: what it held may go on (R184). -/
def stepDone (i no : Nat) (d : Dev) : Dev :=
  push (.collGo i) (updInst' i (fun x => { x with steps := x.steps.filter (fun s => s.no != no), progress := d.clk }) d)

/-- Completes a step if nothing of it is left. -/
def stepCheck (i no : Nat) (d : Dev) : Dev :=
  match inst? d i, step? d i no with
  | some x, some s =>
    let recv := sReceives (rickStep d x s.ix)
    if !s.held && s.ops == [] && s.fwd == [] && (!recv || (decide (s.left = 0) && decide (s.todo = 0) && !s.need)) then stepDone i no d else d
  | _, _ => d

/-- Bytes of a strand have been placed by its step (R181). -/
def stepPlaced (i no : Nat) (rx : Rx) (d : Dev) : Dev :=
  match inst? d i, step? d i no with
  | some x, some s =>
    let v := rickStep d x s.ix
    let d := settle rx d
    let d := if rx.st.poisoned && sDst v == 1 then updInst' i (fun x => { x with poison := true }) d else d
    let d := updStep i no (fun s => { s with todo := s.todo - rx.st.hdr.len.toNat, need := false
                                             fwd := if sOp v = 4 then s.fwd ++ [rx] else s.fwd }) d
    stepCheck i no (if sOp v = 4 then flushFwd i no d else d)
  | _, _ => settle rx d

/-- Writes wire elements to the DST of a step (R181, R197). -/
def collWriteDst (i : Nat) (x : Inst) (s : CStep) (rx : Rx) (data : List Chunk) (d : Dev) : Dev :=
  let b := instDesc d x
  let w := max 1 (csW b)
  let first := rx.st.hdr.offset.toNat / w
  match epFunc d x.ep, writeView (rickStep d x s.ix) with
  | some f, some view =>
    if 2 ≤ view then
      push (.accDone (.collWrite i s.no rx data) { status := 0, pieces := [(stageAddr d x (view - 2) first, chunksLen data)] }) d
    else
      let data := userChunks (csRop b) (csDtype b) (csMode b) data
      access { slot := epSlot d x.ep, f := f, key := some (csDkey b), remote := false, iova := csDaddr b + first * csS b,
               len := chunksLen data, right := .w, region := .localWrite, act := .find, use := .collWrite i s.no rx data } d
  | _, _ => d

/-- Starts the combination of the first strand of an instance's REDUCE queue (R196). -/
def redGo (i : Nat) (d : Dev) : Dev :=
  match inst? d i with
  | none => d
  | some x =>
    match x.red.head? with
    | none => d
    | some (no, rx) =>
      match step? d i no with
      | none => d
      | some s =>
        let b := instDesc d x
        let w := max 1 (csW b)
        let src := viewSrc d x ((readView (rickStep d x s.ix)).getD 0) (rx.st.hdr.offset.toNat / w) (rx.st.hdr.len.toNat / w)
        match src.range with
        | none => push (.accDone (.collRead i no rx) { status := 0 }) d
        | some _ => readPay src (.collRead i no rx) d

/-- Places or combines a strand that its step has matched (R181, R196) (DEDUCED, log 38). -/
def collPlace (i no : Nat) (rx : Rx) (d : Dev) : Dev :=
  match inst? d i, step? d i no with
  | some x, some s =>
    if rx.st.hdr.len = 0 then stepPlaced i no rx d
    else if sOp (rickStep d x s.ix) = 3 then
      let d := updInst' i (fun x => { x with red := x.red ++ [(no, rx)] }) d
      if x.red = [] then redGo i d else d
    else collWriteDst i x s rx rx.st.chunks d
  | _, _ => settle rx d

/-! ### Issue of steps -/

/-- Starts the steps that nothing holds any more (R184). -/
def unhold (i : Nat) (d : Dev) : Dev :=
  match inst? d i with
  | none => d
  | some x =>
    let mode := csMode (instDesc d x)
    (x.steps.filter (·.held)).foldl (fun d s =>
      match inst? d i with
      | none => d
      | some y =>
        let v := rickStep d y s.ix
        let earlier := y.steps.filter (fun t => decide (t.no < s.no))
        if earlier.any (fun t => heldBy mode (rickStep d y t.ix) t.segs v s.segs) then d
        else
          let d := updStep i s.no (fun s => { s with held := false, wait := [] }) d
          let r := s.ops.foldl (fun (p : List Nat × Dev) o => let q := collTake o p.2; (if q.1 then p.1 ++ [o] else p.1, q.2)) ([], d)
          let d := r.2
          let d := if sOp v = 4 then r.1.foldl (fun d o => updOp o (fun y => { y with left := 1 }) d) d else collSendRange i y s r.1 d
          let d := s.wait.foldl (fun d rx => collPlace i s.no rx d) d
          stepCheck i s.no d) d

/-- Issues a step that moves data (R184): its sends become operations (DEDUCED, log 46). -/
def issueMove (i : Nat) (x : Inst) (b : Bytes) (v it : Nat) (peers : List Nat) (d : Dev) : Dev :=
  let base := sChunk v + (if sChunkRank v then x.rank else 0)
  let p := max 1 (csP b)
  let first := if sChunkIter v = 1 then base + it else if sChunkIter v = 2 then base + p * (it + 1) - it else base
  let segs := chunkSegs b (first % p) (sNchunk v)
  let no := x.nextNo
  let bytes := if sReceives v then segLen segs * csW b else 0
  let dsts := if sOp v = 4 then peers.drop 1 else if sReceives v then [] else peers
  let table := ((mget d.coll.groups x.group).map (·.table)).getD []
  let r := dsts.foldl (fun (q : List Nat × Dev) k =>
    let m := table.getD k (0, 0)
    let (o, d) := newOp { owner := .coll i no k, ep := x.ep, code := 0xF0, desc := patch b 1 [0, BitVec.ofNat 8 (dTc b)],
                          dst := m.1, dstEp := m.2, ord := 0, len := 0 } q.2
    (q.1 ++ [o], d)) ([], d)
  let s : CStep := { no := no, ix := x.pc, peers := peers.take (if sOp v = 4 then 1 else peers.length), segs := segs,
                     peer2 := (peers.drop 1).head?, left := bytes, todo := bytes, need := sReceives v && decide (bytes = 0), ops := r.1 }
  push (.unpark x.ep) (updInst' i (fun x => { x with steps := x.steps ++ [s], nextNo := no + 1, pc := x.pc + 1 }) r.2)

/-- Issues steps until one blocks (R182 to R185). `fuel` bounds them; `fin` is what END does, `abort` what
an invalid peer does. -/
def issue (fin : Dev → Dev) (abort : Nat → Nat → Nat → Dev → Dev) : Nat → Nat → Dev → Dev
  | 0, i, d => push (.collGo i) d
  | fuel + 1, i, d =>
    match inst? d i with
    | none => d
    | some x =>
      if x.state ≠ .running then d
      else
        let b := instDesc d x
        let n := ((mget d.coll.groups x.group).map (·.n)).getD 1
        let v := rickStep d x x.pc
        let it := stepIter d x x.pc
        let peers := stepPeers v x.rank (csRoot b) n it
        let next := updInst' i (fun x => { x with pc := x.pc + 1 })
        if sOp v = 9 then (if x.steps = [] then fin d else d)
        else if stepSkipped v x.rank (csRoot b) peers then issue fin abort fuel i (next d)
        else
          match sOp v with
          | 6 =>
            let go := if bitOf (sArg v) 31 then reached (cntValue d (csCounter b)) ((x.v0 + sArg v % 2 ^ 31) % 2 ^ 64) else decide (x.steps = [])
            if go then issue fin abort fuel i (next { d with coll := { d.coll with insts := mupd d.coll.insts i (fun x => { x with progress := d.clk }) } }) else d
          | 7 => if x.steps = [] then issue fin abort fuel i (cntAdd (csCounter b) (sArg v) (next d)) else d
          | 8 =>
            let k := (aget x.iters x.pc).getD 0 + 1
            if k < sArg v % 2 ^ 16 then issue fin abort fuel i (updInst' i (fun x => { x with iters := aset x.iters x.pc k, pc := sTarget v }) d)
            else issue fin abort fuel i (updInst' i (fun x => { x with iters := adel x.iters x.pc, pc := x.pc + 1 }) d)
          | _ =>
            if peers.any (·.isNone) then abort 5 x.pc x.rank d
            else if 64 ≤ x.steps.length then d
            else issue fin abort fuel i (unhold i (issueMove i x b v it (peers.filterMap id) d))

/-! ### Ends -/

/-- Takes an operation back whose result no longer matters (R202, R77). -/
def cancelOp (o : Nat) (d : Dev) : Dev :=
  let unsent := (d.xp.contents.filter (fun p => decide (p.2.op = some o) && !p.2.sent)).map (·.1)
  let d := updXp (fun y => { y with
    ops := mdel y.ops o
    contents := mmap y.contents (fun _ c => if c.op = some o then { c with op := none, dead := true } else c)
    sendRecs := y.sendRecs.map (fun p => (p.1, { p.2 with order := p.2.order.filter (· != o) })) }) d
  unsent.foldl (fun d c => dropContent c d) (unqueue unsent d)

/-- Ends an instance: its sends are cancelled and it is freed. -/
def instFree (i : Nat) (d : Dev) : Dev :=
  let os := (d.xp.ops.filter (fun p => match p.2.owner with | .coll j _ _ => decide (j = i) | _ => false)).map (·.1)
  let d := os.foldl (fun d o => cancelOp o d) d
  updColl (fun c => { c with
    insts := mdel c.insts i
    pace := c.pace.map (fun p => { p with insts := p.insts.filter (· != i) }) }) d

/-- An instance aborts (R201, R202): cause, step index, rank concerned (DEDUCED, log 47). -/
def collAbort (i cause ix rank : Nat) (d : Dev) : Dev :=
  match inst? d i with
  | none => d
  | some x =>
    let d := updColl (fun c => { c with groups := mupd c.groups x.group (fun g => { g with aborts := mset g.aborts x.ep (cause, ix, rank, x.num) }) }) d
    push (.unpark x.ep) (opEnd x.op 0x60 (instFree i d))

/-- The abort cause of a failed send (R201) (DEDUCED, log 47). -/
def abortCause (status : Nat) : Nat :=
  match status with
  | 0x60 => 2
  | 0x30 => 3
  | 0x23 => 4
  | 0x31 => 8
  | 0x24 => 8
  | 0x12 => 6
  | 0x13 => 6
  | 0x14 => 6
  | 0x70 => 6
  | _ => 7

/-- A send of a step has ended (R181, R201). -/
def collOpDone (i no k o status : Nat) (d : Dev) : Dev :=
  if 4 ≤ status then
    let ix := ((step? d i no).map (·.ix)).getD 0
    collAbort i (abortCause status) ix k d
  else stepCheck i no (updStep i no (fun s => { s with ops := s.ops.filter (· != o) }) d)

/-- Delivers the release of an instance (R210): its operation completes. -/
def instDeliver (i : Nat) (d : Dev) : Dev :=
  match inst? d i with
  | none => d
  | some x => opEnd x.op (if x.poison then 1 else 0) (instFree i d)

/-- Host ports that are paced, in ascending number (R210). -/
def pacedPorts (d : Dev) : List Nat := (List.range 8).filter (fun h => bitOf (fld d (COLL + 0x028) 16 8) h)

/-- The PREWARN output of a host port. -/
def prewarnOf (d : Dev) (h : Nat) : Nat := fld d (COLL + 0x028) (2 * h) 2

/-- An instance reaches the end of RUNNING (R210, R211). -/
def instRelease (i : Nat) (d : Dev) : Dev :=
  match inst? d i with
  | none => d
  | some x =>
    let hp := hpOf d x.ep
    if !csPaced (instDesc d x) || !(pacedPorts d).contains hp then instDeliver i d
    else
      let d := updInst' i (fun x => { x with state := .releasing }) d
      let outs := (List.range 4).filter (fun j => (pacedPorts d).any (fun h => decide (prewarnOf d h = j)))
      match d.coll.pace with
      | some p =>
        if p.ports = [] then
          updColl (fun c => { c with pace := some { t0 := d.clk, insts := [i], ports := pacedPorts d, assertLeft := outs, deassertLeft := outs } }) d
        else if p.ports.contains hp then updColl (fun c => { c with pace := some { p with insts := p.insts ++ [i] } }) d
        else instDeliver i d
      | none =>
        updColl (fun c => { c with pace := some { t0 := d.clk, insts := [i], ports := pacedPorts d, assertLeft := outs, deassertLeft := outs } }) d

/-- Goes on with a running instance: issues steps and starts those no longer held. -/
def collGo (i : Nat) (d : Dev) : Dev :=
  issue (instRelease i) (collAbort i) 1024 i (unhold i d)

/-- A paced release is delivered to a host port (R210). -/
def releaseDelivery (h : Nat) (d : Dev) : Dev :=
  match d.coll.pace with
  | none => d
  | some p =>
    if !p.ports.contains h then d
    else
      let now := p.insts.filter (fun i => (inst? d i).any (fun x => decide (hpOf d x.ep = h)))
      let p := { p with ports := p.ports.filter (· != h) }
      now.foldl (fun d i => instDeliver i d)
        (updColl (fun c => { c with pace := if p.ports = [] ∧ p.deassertLeft = [] then none else some p }) d)

/-- Is PREWARN driven (COLL.PACE). -/
def prewarnOn (d : Dev) : Bool := fld d (COLL + 0x024) 24 1 == 1

/-- Sets the COLL schedule's part of the PREWARN outputs and the forced part: a pin follows the two ORed (R500). -/
def prewarnPut (sched forced : Nat) (d : Dev) : Dev :=
  let old := d.coll.prewarn ||| d.pwr.forced
  let d := { updColl (fun c => { c with prewarn := sched }) d with pwr := { d.pwr with forced := forced } }
  (List.range 4).foldl (fun d j =>
    let b := bitOf (sched ||| forced) j
    if bitOf old j = b then d else emit (.pin "PREWARN" j (b2n b)) d) d

/-- A PREWARN output is asserted (R210), but not after PFAIL# has been taken (R500). -/
def prewarnSet (j : Nat) (d : Dev) : Dev :=
  match d.coll.pace with
  | none => d
  | some p =>
    if p.assertLeft.contains j && prewarnOn d && !d.boot.pfail then
      prewarnPut (d.coll.prewarn ||| 2 ^ j) d.pwr.forced
        (updColl (fun c => { c with pace := some { p with assertLeft := p.assertLeft.filter (· != j) } }) d)
    else d

/-- A PREWARN output is deasserted, once no delivery to its ports is left (R210, R211). -/
def prewarnClear (j : Nat) (d : Dev) : Dev :=
  let left := match d.coll.pace with
    | none => false
    | some p => p.ports.any (fun h => decide (prewarnOf d h = j))
  if bitOf d.coll.prewarn j && !left then
    let pace := match d.coll.pace with
      | none => none
      | some p =>
        let p := { p with deassertLeft := p.deassertLeft.filter (· != j) }
        if p.ports = [] ∧ p.deassertLeft = [] then none else some p
    prewarnPut (d.coll.prewarn - 2 ^ j) d.pwr.forced (updColl (fun c => { c with pace := pace }) d)
  else d

/-! ### Start -/

/-- A COLL_START creates an instance that waits (R178). -/
def collCreate (o : Nat) (x : Op) (d : Dev) : Dev :=
  let gi := csGroup x.desc
  match mget d.coll.groups gi with
  | none => d
  | some g =>
    let num := (mget g.counts x.ep).getD 0
    let i := d.coll.nextInst
    let n : Inst := { group := gi, ep := x.ep, rank := (rankOf d g x.ep).getD 0, op := o, num := num, rick := csRick x.desc }
    let d := updColl (fun c => { c with
      insts := mset c.insts i n, nextInst := i + 1
      groups := mupd c.groups gi (fun g => { g with counts := mset g.counts x.ep ((num + 1) % 65536) }) }) d
    updOp o (fun x => { x with state := .running }) d

/-- May an instance enter RUNNING (R178): no other of its member and group runs, fewer than 8,192 run. -/
def instMayRun (d : Dev) (x : Inst) : Bool :=
  let act := d.coll.insts.filter (fun p => p.2.state != .waiting)
  decide (act.length < 8192) && !act.any (fun p => decide (p.2.group = x.group) && decide (p.2.ep = x.ep))
    && !d.coll.insts.any (fun p => p.2.state == .waiting && decide (p.2.group = x.group) && decide (p.2.ep = x.ep)
      && decide (toSigned 16 ((p.2.num + 65536 - x.num) % 65536) < 0))

/-- An instance enters RUNNING and its steps are issued (R178). -/
def instRun (i : Nat) (d : Dev) : Dev :=
  match inst? d i with
  | none => d
  | some x =>
    if x.state = .waiting ∧ instMayRun d x = true then
      let v := cntValue d (csCounter (instDesc d x))
      push (.unpark x.ep) (collGo i (updInst' i (fun x => { x with state := .running, v0 := v, progress := d.clk }) d))
    else d

/-! ### Collective strands at the receiver -/

/-- Does a strand's range lie in element ranges (R190, step 8). -/
def inSegs (segs : List (Nat × Nat)) (w off len : Nat) : Bool :=
  if len = 0 then true else segs.any (fun s => decide (s.1 * w ≤ off) && decide (off + len ≤ (s.1 + s.2) * w))

/-- The step that a strand matches (R184): the earliest with its MTAG and peer that still awaits bytes. -/
def matchStep (d : Dev) (x : Inst) (tag rank : Nat) (empty : Bool) : Option CStep :=
  x.steps.find? (fun s =>
    let v := rickStep d x s.ix
    sReceives v && decide (sMtag v = tag) && decide (s.peers.head? = some rank)
      && (if s.segs = [] then s.need else decide (0 < s.left) || empty))

/-- A STEP_DATA strand at its target, after steps 1 to 4 (R190). -/
def stepDataTarget (rx : Rx) (d : Dev) : Dev :=
  let h := rx.st.hdr
  let e := h.dstEp.toNat
  match d.coll.groups.find? (fun p => decide (p.2.key = h.opwf 0 32)) with
  | none => refuse rx 0x26 d
  | some (gi, g) =>
    if (rankOf d g e).isNone then refuse rx 0x26 d
    else
      let act := d.coll.insts.find? (fun p => decide (p.2.group = gi) && decide (p.2.ep = e) && p.2.state != .waiting)
      let cur := match act with
        | some p => p.2.num
        | none =>
          let ws := (d.coll.insts.filter (fun p => decide (p.2.group = gi) && decide (p.2.ep = e))).length
          ((mget g.counts e).getD 0 + 65536 - ws) % 65536
      let diff := toSigned 16 ((h.opwf 32 16 + 65536 - cur) % 65536)
      if diff < 0 then refuse rx 0x60 d
      else
        match act with
        | none => park rx .rick d
        | some (i, x) =>
          if 0 < diff ∨ x.state ≠ .running then park rx .rick d
          else
            match matchStep d x (h.opwf 48 8) (h.opwf 56 20) (h.len == 0) with
            | none => park rx .rick d
            | some s =>
              let w := max 1 (csW (instDesc d x))
              if h.len.toNat % w ≠ 0 ∨ inSegs s.segs w h.offset.toNat h.len.toNat = false then
                collAbort i 0xA s.ix (h.opwf 56 20) (refuse rx 0x26 d)
              else
                let left := s.left - h.len.toNat
                let d := updStep i s.no (fun s => { s with left := left }) d
                let d := placed rx h.len.toNat d
                let d := if left = 0 then tryRelease 16 h.rxKey (updMsg h (fun m => { m with total := some m.got }) d) else d
                if s.held then settle rx (updStep i s.no (fun s => { s with wait := s.wait ++ [rx] }) d)
                else collPlace i s.no rx d

/-- The local operand of a REDUCE has been read (R196). -/
def collReadDone (i no : Nat) (rx : Rx) (res : AccRes) (d : Dev) : Dev :=
  match inst? d i, step? d i no with
  | some x, some s =>
    if res.status ≠ 0 then collAbort i 6 s.ix x.rank (refuse rx 0x26 d)
    else
      let b := instDesc d x
      let w := max 1 (csW b)
      let src := viewSrc d x ((readView (rickStep d x s.ix)).getD 0) (rx.st.hdr.offset.toNat / w) (rx.st.hdr.len.toNat / w)
      collWriteDst i x s rx (combineChunks (csRop b) (csDtype b) (csMode b) (src.wire res.data) rx.st.chunks) d
  | _, _ => settle rx d

/-- The place of a result is known (R190, step 9): it is written, and the next combination begins. -/
def collWriteDone (i no : Nat) (rx : Rx) (data : List Chunk) (res : AccRes) (d : Dev) : Dev :=
  match inst? d i, step? d i no with
  | some x, some s =>
    if res.status ≠ 0 then collAbort i 6 s.ix x.rank (refuse rx 0x26 d)
    else
      match epFunc d x.ep with
      | none => d
      | some f =>
        match piecesBusy d f.hp res.pieces with
        | some b => waitBusy b (.acc (.collWrite i no rx data) res) d
        | none =>
          let d := writePieces f res.pieces data true d
          let d := if data.any (·.poison) && sDst (rickStep d x s.ix) == 1 then updInst' i (fun x => { x with poison := true }) d else d
          let isRed := sOp (rickStep d x s.ix) == 3
          let d := if isRed then updInst' i (fun x => { x with red := x.red.tail }) d else d
          let d := stepPlaced i no rx d
          if isRed then redGo i d else d
  | _, _ => settle rx d

/-- An ARM_FIRE strand at its target, after steps 1 to 4 (R208) (DEDUCED, log 48). -/
def armFireTarget (rx : Rx) (d : Dev) : Dev :=
  let h := rx.st.hdr
  let i := h.opwf 0 18
  if curMode d ≠ 0 ∧ mget d.coll.armed i = some (h.opwf 32 32) then
    cntAdd i (h.opwf 64 32) (placed rx 0 (settle rx d))
  else refuse rx 0x20 (updColl (fun c => { c with fireRefused := c.fireRefused + 1 }) d)

/-! ### Losses -/

/-- Instances of an endpoint stop at once (R179). -/
def collStop (e : Nat) (d : Dev) : Dev :=
  ((d.coll.insts.filter (fun p => decide (p.2.ep = e))).map (·.1)).foldl (fun d i => instFree i d) d

/-- A peer is unreachable or restarted: instances that have it as a member abort (R201, R219). -/
def collPeerLost (da : Nat) (d : Dev) : Dev :=
  (d.coll.insts.filter (fun p => (p.2.state == .waiting || p.2.state == .running) &&
    ((mget d.coll.groups p.2.group).map (fun g => g.table.any (fun m => decide (m.1 = da)))).getD false)).foldl
    (fun d p =>
      let k := (((mget d.coll.groups p.2.group).map (·.table)).getD []).findIdx (fun m => decide (m.1 = da))
      collAbort p.1 3 p.2.pc k d) d

end Sys2Proof.Machine
end

