-- ==== Sys2Proof/Machine/Ept.lean ====
section
/-! DEFINITION. Endpoints: rings and their scan, the checks of entries, the start and the completion of
operations, endpoint states and errors, context residency (R56 to R78, R88 to R90, R238). -/

namespace Sys2Proof.Machine

/-- Changes the endpoint block. -/
def updEpt (g : Ept → Ept) (d : Dev) : Dev := { d with ept := g d.ept }

/-- A ring of an endpoint. -/
def ringOf (x : Ep) (recv : Bool) : Option Ring := if recv then x.recv else some x.send

/-- Changes a ring. -/
def updRing (e : Nat) (recv : Bool) (g : Ring → Ring) (d : Dev) : Dev :=
  updEp e (fun x => if recv then { x with recv := x.recv.map g } else { x with send := g x.send }) d

/-! ### The checks of an entry (R74) -/

/-- The fields of an operation's TARGET and OPERANDS: byte, low bit, width (R71, R117, R146, R147,
R175). -/
def opFields (op : Nat) : List (Nat × Nat × Nat) :=
  let rm := [(16, 0, 64), (24, 0, 32)]
  let tag := [(16, 0, 64), (24, 0, 32), (28, 0, 16)]
  match op with
  | 0x01 => rm
  | 0x02 => rm ++ [(28, 0, 32)]
  | 0x03 => rm
  | 0x04 => rm ++ [(28, 0, 32)]
  | 0x08 => [(16, 0, 32), (20, 0, 1)]
  | 0x09 => tag
  | 0x10 => rm ++ [(28, 0, 4), (28, 7, 1), (44, 0, 64), (52, 0, 64)]
  | 0x18 => rm ++ [(28, 0, 12), (30, 0, 8)]
  | 0x19 => rm ++ [(28, 0, 12), (30, 0, 8)]
  | 0x1A => rm ++ [(28, 0, 12), (44, 0, 32)]
  | 0x28 => [(16, 0, 12), (18, 0, 10), (20, 0, 20), (24, 0, 8), (25, 0, 3), (26, 0, 13), (44, 0, 64), (52, 0, 32), (56, 0, 18)]
  | 0x41 => tag ++ [(30, 0, 8)]
  | _ => []

/-- The fields of the frame (R67); a receive descriptor has fewer (R70). -/
def frameFields (recv : Bool) : List (Nat × Nat × Nat) :=
  let both := [(0, 0, 8), (2, 0, 6), (3, 7, 1), (4, 0, 32), (32, 0, 64), (40, 0, 32)]
  if recv then both ++ [(1, 0, 1)] else both ++ [(1, 0, 6), (3, 0, 7), (8, 0, 37)]

/-- The bits of fields as a mask over an entry. -/
def fieldMask (fs : List (Nat × Nat × Nat)) : Nat := fs.foldl (fun m f => m ||| (2 ^ f.2.2 - 1) <<< (8 * f.1 + f.2.1)) 0

/-- Has an entry a reserved bit set (R6, R74, step 2). -/
def reservedSet (recv : Bool) (e : Bytes) : Bool :=
  let m := fieldMask (frameFields recv ++ opFields (dOp e))
  let m := if !recv && dInline e then m ||| (2 ^ 256 - 1) <<< 256 else m
  leNat e &&& (2 ^ 512 - 1 - (m &&& (2 ^ 512 - 1))) != 0

/-- Has an extension entry a reserved bit set (R70). -/
def extReserved (e : Bytes) : Bool :=
  leNat e &&& (2 ^ 512 - 1 - fieldMask [(3, 7, 1), (4, 0, 18), (8, 0, 64)]) != 0

/-- The operations of the two rings (R68). -/
def sendOps : List Nat := [0x00, 0x01, 0x02, 0x03, 0x04, 0x08, 0x09, 0x10, 0x18, 0x19, 0x1A, 0x28]

/-- May an operation carry its payload inline (R68). -/
def inlineOk (op : Nat) : Bool := op == 0x01 || op == 0x02 || op == 0x04 || op == 0x08 || op == 0x09

/-- The field checks of the owning chapters (R118, R148, R176). -/
def fieldBad (d : Dev) (ep typ : Nat) (e : Bytes) : Bool :=
  match dOp e with
  | 0x03 => dLen e == 0
  | 0x04 => dImm e / 2 ^ 18 == 0
  | 0x10 => dLen e != 8 || decide (6 < bitsOf (leAt e 28 1) 0 4) || dRaddr e % 8 != 0 || (!bitOf (leAt e 28 1) 7 && dLaddr e % 8 != 0)
  | 0x18 => dLen e != 0 || dRaddr e % 8 != 0 || dLaddr e % 16 != 0
  | 0x19 => dLen e != 0 || dRaddr e % 8 != 0 || dLaddr e % 16 != 0 || typ == 0
  | 0x1A => dLen e != 0 || dRaddr e % 8 != 0 || dLaddr e != 0 || dLkey e != 0
  | 0x28 => collStartBad d ep e
  | 0x41 => decide (64 < leAt e 30 1 % 128) || (mctx? d ep).isNone
  | _ => false

/-- Is an entry malformed (R74). -/
def malformedEntry (d : Dev) (ep typ : Nat) (recv : Bool) (e : Bytes) (x : Option Bytes) : Bool :=
  let op := dOp e
  (if recv then op != 0x40 && op != 0x41 else !sendOps.contains op)
    || reservedSet recv e || (match x with | some b => extReserved b | none => false)
    || (if dInline e then !inlineOk op || decide (32 < dInlineLen e) || dInlineLen e != dLen e else dInlineLen e != 0)
    || dTrig e != dExt e || (dDurable e && op != 1 && op != 2 && op != 4)
    || fieldBad d ep typ e
    || (match x with | some b => dTrig e && !cntOfEp d (bitsOf (leAt b 4 4) 0 18) ep | none => false)

/-! ### Scans (R72) -/

/-- Groups positions into requests of whole consecutive entries, up to 512 bytes, that do not wrap
(R65) (DESIGN CHOICE, log 18). -/
def ringRequests (n : Nat) : List Nat → List (Nat × Nat)
  | [] => []
  | p :: ps =>
    match ringRequests n ps with
    | (q, k) :: rest => if q = p + 1 ∧ k < 8 ∧ q % 2 ^ n ≠ 0 then (p, k + 1) :: rest else (p, 1) :: (q, k) :: rest
    | [] => [(p, 1)]

/-- Requests entries of a ring (R65, R72) (DESIGN CHOICE, log 18). -/
def requestEntries (e : Nat) (recv : Bool) (r : Ring) (no : Nat) (ps : List Nat) (d : Dev) : Dev :=
  match epFunc d e with
  | none => d
  | some f =>
    (ringRequests r.n ps).foldl (fun d q =>
      access { slot := epSlot d e, f := f, key := none, remote := false, iova := r.base + 64 * (q.1 % 2 ^ r.n), len := 64 * q.2,
               right := .r, region := .any, act := .read, use := .ring e recv no q.1 q.2 } d) d

/-- The ring index of a position. -/
def ringIndex (r : Ring) (pos : Nat) : Nat := pos % 2 ^ r.n

/-- A copy of an entry: not come yet, failed, or its bytes. -/
def Scan.copy (s : Scan) (pos : Nat) : Option (Option Bytes) := mget s.copies pos

/-- Accepts an entry of a send ring: it becomes an operation (R60). -/
def acceptSend (e pos : Nat) (b : Bytes) (x : Option Bytes) (d : Dev) : Dev :=
  let ext := x.map (fun y => (bitsOf (leAt y 4 4) 0 18, leAt y 8 8))
  let (i, d) := newOp { owner := .ring pos, ep := e, code := dOp b, desc := b, ext := ext, dst := dDstDa b, dstEp := dDstEp b,
                        ord := dOrd b, len := dLen b, trig := ext.isSome } d
  updEp e (fun y => { y with accepted := y.accepted ++ [i] }) d

/-- A malformed entry (R75). -/
def malformed (e pos : Nat) (recv : Bool) (r : Ring) (b : Bytes) (d : Dev) : Dev :=
  match ep? d e with
  | none => d
  | some x =>
    if x.typ = 0 then
      push (.epError e 1) (updEp e (fun y => { y with latched := some (ringIndex r pos + b2n recv * 2 ^ 16 + dOp b * 2 ^ 17) }) d)
    else complete e recv true { entry d e recv (dOp b) 0x11 with ringIndex := ringIndex r pos } d

/-- Stops a scan; a marked ring is scanned once more (R72). -/
def scanStop (e : Nat) (recv unowned : Bool) (d : Dev) : Dev :=
  match (ep? d e).bind (ringOf · recv) with
  | none => d
  | some r =>
    let d := updRing e recv (fun r => { r with scan := none, again := false, unowned := unowned }) d
    if r.again then push (.ringGo e) (updRing e recv (fun r => { r with again := true }) d) else d

/-- Goes on with a scan (R72). `fuel` bounds the entries handled at one time. -/
def scanLoop : Nat → Nat → Bool → Dev → Dev
  | 0, _, _, d => d
  | fuel + 1, e, recv, d =>
    match ep? d e with
    | none => d
    | some x =>
      match ringOf x recv with
      | none => d
      | some r =>
        match r.scan with
        | none => d
        | some s =>
          let depth := min 8 (fld d (EPT + 0x020) 0 4)
          let top := s.i + depth + 1
          let ps := (List.range (top - max s.req s.i)).map (fun k => max s.req s.i + k)
          let d := requestEntries e recv r s.no ps d
          let d := updRing e recv (fun r => { r with scan := some { s with req := max s.req top } }) d
          match s.copy s.i with
          | none => d
          | some none => push (.epError e 3) (scanStop e recv false d)
          | some (some b) =>
            if !owned b s.i r.n then scanStop e recv true d
            else
              let two := !recv && dExt b
              let next (k : Nat) (d : Dev) : Dev :=
                updRing e recv (fun r => { r with head := s.i + k, scan := some { s with i := s.i + k, req := max s.req (max top (s.i + k)), copies := s.copies.filter (fun p => decide (s.i + k ≤ p.1)) } }) d
              if two ∧ depth = 0 ∧ s.req ≤ s.i + 1 then
                updRing e recv (fun r => { r with scan := some { s with req := s.i + 2 } }) (requestEntries e recv r s.no [s.i + 1] d)
              else
                let y := if two then s.copy (s.i + 1) else some (some [])
                match y with
                | none => d
                | some none => push (.epError e 3) (scanStop e recv false d)
                | some (some y) =>
                  if two && !owned y (s.i + 1) r.n then scanStop e recv true d
                  else
                    let k := if two then 2 else 1
                    let ext := if two then some y else none
                    if malformedEntry d e x.typ recv b ext then
                      if x.typ = 0 then scanStop e recv false (malformed e s.i recv r b (updRing e recv (fun r => { r with again := false }) d))
                      else scanLoop fuel e recv (next k (malformed e s.i recv r b d))
                    else if recv then
                      if dOp b = 0x41 ∧ canPost d e b = false then scanStop e recv true d
                      else scanLoop fuel e recv (next 1 (updEp e (fun z => { z with newRecv := z.newRecv ++ [{ pos := s.i, desc := b }] }) d))
                    else scanLoop fuel e recv (next k (acceptSend e s.i b ext d))

/-- Is an endpoint scanned in its state (R60). -/
def Ep.scans (x : Ep) : Bool := x.state == .ready || x.state == .active

/-- Starts a scan of a ring, or marks the ring for one more (R72). -/
def scanStart (e : Nat) (recv : Bool) (d : Dev) : Dev :=
  match ep? d e with
  | none => d
  | some x =>
    match ringOf x recv with
    | none => d
    | some r =>
      if !x.scans || frozen d then d
      else if r.scan.isSome then updRing e recv (fun r => { r with again := true }) d
      else
        scanLoop 32 e recv (updRing e recv (fun r => { r with scan := some { no := r.scans, i := r.head, req := r.head }, scans := r.scans + 1, again := false, unowned := false }) d)

/-- Further scans that are due: of rings marked for one, and of a receive ring that waited for room. -/
def ringGo (e : Nat) (d : Dev) : Dev :=
  match ep? d e with
  | none => d
  | some x =>
    let d := if x.send.again && x.send.scan.isNone then scanStart e false d else d
    match x.recv with
    | some r => if r.scan.isNone && (r.again || r.unowned) then scanStart e true d else d
    | none => d

/-- Ring entries have been read, or could not be (R72). -/
def ringDone (e : Nat) (recv : Bool) (no pos n : Nat) (res : AccRes) (d : Dev) : Dev :=
  match (ep? d e).bind (ringOf · recv) with
  | none => d
  | some r =>
    match r.scan with
    | none => d
    | some s =>
      if s.no ≠ no then d
      else
        let bad := res.status != 0 || res.data.any (·.poison)
        let bs := (res.data.map (·.bytes)).flatten
        let copies := (List.range n).foldl (fun m k => mset m (pos + k) (if bad then none else some (slice bs (64 * k) 64))) s.copies
        scanLoop 32 e recv (updRing e recv (fun r => { r with scan := some { s with copies := copies } }) d)

/-! ### Context residency (R88 to R90) -/

/-- Contexts resident: endpoints, CQs and EQs (EPT.RESIDENT). -/
def residentCount (d : Dev) : Nat :=
  (d.ept.eps.filter (fun p => p.2.resident)).length + d.ept.cqs.length + sumOf (d.fns.map (fun p => p.2.eqs.length))

/-- Contexts pinned (R88). -/
def pinnedCount (d : Dev) : Nat :=
  (d.ept.eps.filter (fun p => p.2.pin)).length + d.ept.cqs.length + sumOf (d.fns.map (fun p => p.2.eqs.length))

/-- Is something in progress that keeps a context resident (R89) (DEDUCED, log 85). -/
def contextBusy (d : Dev) (e : Nat) (x : Ep) : Bool :=
  x.send.scan.isSome || ((x.recv.map (fun r => r.scan.isSome)).getD false)
    || d.ept.parked.any (fun p => decide (p.rx.st.hdr.dstEp.toNat = e))
    || d.xp.recvRecs.any (fun p => decide (p.1.ep = e) && p.2.msgs != [])

/-- Makes room for one more context, if there is a victim (R89): the least recently used one is written to
its backing area. Its 256 bytes are the device's own (DEDUCED, log 85). -/
def makeRoom (d : Dev) : Dev :=
  if residentCount d < 65536 then d
  else
    let cs := d.ept.eps.filter (fun p => p.2.resident && !p.2.pin && !contextBusy d p.1 p.2)
    match cs.head? with
    | none => d
    | some c =>
      let v := cs.foldl (fun a b => if b.2.used < a.2.used then b else a) c
      let (n, d) := fresh d
      let d := match blockOf d v.1 with
        | some b => hostWrite b.f (b.backing + 256 * (v.1 % 64)) (toLe 256 n) false false d
        | none => d
      updEp v.1 (fun x => { x with resident := false }) d

/-- Starts the fetch of a context (R90) (DEDUCED, log 85). -/
def contextFetch (e : Nat) (d : Dev) : Dev :=
  match ep? d e, blockOf d e with
  | some x, some b =>
    if x.fetching then d
    else hostRead b.f (b.backing + 256 * (e % 64)) 256 (.context e) (updEp e (fun x => { x with fetching := true }) d)
  | _, _ => d

/-- A doorbell that passed the checks of R58 (R57, R72, R90). -/
def doorbell (e : Nat) (d : Dev) : Dev :=
  match ep? d e with
  | none => d
  | some x =>
    let d := updEp e (fun x => { x with used := d.clk }) d
    if !x.resident then contextFetch e (updEp e (fun x => { x with bellPend := true }) d)
    else scanStart e true (scanStart e false d)

/-- A context fetch ends (R90). -/
def contextDone (e : Nat) (r : HRead) (d : Dev) : Dev :=
  match ep? d e with
  | none => d
  | some x =>
    let d := updEp e (fun x => { x with fetching := false, resident := true, bellPend := false, used := d.clk }) (makeRoom d)
    let d := if r.status ≠ .ok then push (.epError e 4) d else if x.bellPend then doorbell e d else d
    push (.unpark e) d

/-! ### Starting operations -/

/-- The operations of an endpoint's send ring, in ring order. -/
def ringOps (d : Dev) (x : Ep) : List (Nat × Op) := x.accepted.filterMap (fun i => (op? d i).map (fun o => (i, o)))

/-- The oldest operation of an endpoint's ring that has not begun, and whether every earlier one has met its
condition (R69, R138) (DEDUCED, log 15). -/
def oldestWaiting (d : Dev) (x : Ep) : Option (Nat × Op × Bool) :=
  let ops := ringOps d x
  match ops.find? (fun p => p.2.state == .waiting) with
  | none => none
  | some (i, o) => some (i, o, (ops.takeWhile (fun p => p.1 != i)).all (fun p => p.2.state == .met))

/-- Is an operation already an instance (DEDUCED, log 15). -/
def collStarted (d : Dev) (i : Nat) : Bool := d.coll.insts.any (fun p => decide (p.2.op = i))

/-- Starts the oldest operation of a ring that has not begun, if it is of the kind that is asked for and
nothing makes it wait (R69, R128, R138, R178, R207) (DEDUCED, log 15). -/
def startNext (e : Nat) (ok : Op → Bool) (d : Dev) : Dev :=
  match ep? d e with
  | none => d
  | some x =>
    match oldestWaiting d x with
    | none => d
    | some (i, o, free) =>
      let fence := dFence o.desc || o.code == 0x1A
      let ready := match o.ext with
        | some (c, h) => !o.trig || reached (cntValue d c) h
        | none => true
      if !ok o || !ready || (fence && !free) || !x.scans && x.state != .draining then d
      else if o.code = 0x28 then collCreate i o d
      else startOp i d

/-- Posts the oldest accepted receive of a ring (R70, R154, R167) (DEDUCED, log 15). -/
def postNext (e : Nat) (tagged : Bool) (d : Dev) : Dev :=
  match ep? d e with
  | none => d
  | some x =>
    match x.newRecv with
    | [] => d
    | r :: rest =>
      if (dOp r.desc == 0x41) != tagged then d
      else if tagged then
        match postTagged e r d with
        | (true, d) => updEp e (fun x => { x with newRecv := rest }) d
        | (false, d) => d
      else push (.unpark e) (updEp e (fun x => { x with newRecv := rest, recvs := x.recvs ++ [r] }) d)

/-! ### Completion of operations (R76, R80, R121, R238) -/

/-- Must an operation of a ring wait for an earlier one of its stream (R238). -/
def mustWait (d : Dev) (i : Nat) (o : Op) : Bool :=
  ((ep? d o.ep).map (·.typ)) == some 0 &&
    match aget d.xp.sendRecs o.key with
    | none => false
    | some r =>
      r.order.contains i && (r.order.takeWhile (· != i)).any (fun j =>
        match op? d j with
        | some y => match y.owner with | .ring _ => true | _ => false
        | none => false)

/-- BYTES of a completion (R121, R124, R161, R179). -/
def opBytes (o : Op) : Nat :=
  if 4 ≤ o.status then 0
  else
    match o.code with
    | 0x00 => 0
    | 0x10 => 8
    | 0x18 => 0
    | 0x19 => 0
    | 0x1A => 0
    | 0x09 => if o.rndv then o.bytes.getD 0 else o.len
    | _ => o.len

/-- Removes an operation. -/
def dropOp (i : Nat) (d : Dev) : Dev :=
  updXp (fun x => { x with ops := mdel x.ops i, sendRecs := x.sendRecs.map (fun p => (p.1, { p.2 with order := p.2.order.filter (· != i) })) }) d

/-- The next operation of a stream that has met its condition. -/
def nextMet (d : Dev) (k : StreamKey) : Option Nat :=
  match aget d.xp.sendRecs k with
  | none => none
  | some r => r.order.find? (fun j => (op? d j).any (fun o => o.state == .met && !mustWait d j o && (match o.owner with | .ring _ => true | _ => false)))

/-- An operation of a ring completes (R76, R80, R238). -/
def ringOpDone (i : Nat) (o : Op) (pos : Nat) (d : Dev) : Dev :=
  match ep? d o.ep with
  | none => dropOp i d
  | some x =>
    let c := { entry d o.ep false o.code o.status with ringIndex := ringIndex x.send pos, bytes := opBytes o }
    let d := dropOp i (updEp o.ep (fun x => { x with accepted := x.accepted.filter (· != i) }) d)
    let d := complete o.ep false (dSignal o.desc || o.status != 0) c d
    if x.typ = 0 ∧ 4 ≤ o.status ∧ o.status ≠ 0x40 then push (.epError o.ep 2) d
    else
      match nextMet d o.key with
      | some j => push (.opMet j) d
      | none => d

/-! ### Endpoint states (R60, R61) -/

/-- Has an endpoint an operation outstanding (R60). -/
def epBusy (d : Dev) (e : Nat) (x : Ep) : Bool :=
  x.accepted != [] || d.xp.recvRecs.any (fun p => decide (p.1.ep = e) && p.2.msgs != [])
    || d.mt.msgs.any (fun p => decide (p.2.ep = e) && p.2.recv.isSome)

/-- DRAINING ends (R61, R168). -/
def drained (e : Nat) (d : Dev) : Dev :=
  let clear (r : Ring) : Ring := { base := r.base, n := r.n, scans := r.scans }
  let d := updEp e (fun x => { x with
    state := .reset, send := clear x.send, recv := x.recv.map clear, newRecv := [], recvs := [], cause := 0, latched := none }) d
  tagStop e d

/-- Brings an endpoint's state up to date (R61). -/
def epSync (e : Nat) (d : Dev) : Dev :=
  match ep? d e with
  | none => d
  | some x =>
    let busy := epBusy d e x
    match x.state with
    | .ready => if busy then updEp e (fun x => { x with state := .active }) d else d
    | .active => if busy then d else updEp e (fun x => { x with state := .ready }) d
    | .draining => if busy then d else drained e d
    | _ => d

/-- Receives of an endpoint that are to be completed with FLUSHED (R77, R168), with the message that took
them, in ring order (DEDUCED, log 40). -/
def flushRecvs (d : Dev) (e : Nat) (x : Ep) : List (Recv × Option TagMsg) :=
  let taken := ((d.xp.recvRecs.filter (fun p => decide (p.1.ep = e))).map (fun p => p.2.msgs.filterMap (fun m => m.2.recv))).flatten
  let tagged := (d.mt.msgs.filter (fun p => decide (p.2.ep = e))).filterMap (fun p => p.2.recv.map (fun r => (r, some p.2)))
  let posted := ((mctx? d e).map (fun c => c.posted.map (·.recv))).getD []
  let all := (taken ++ x.recvs ++ x.newRecv ++ posted).map (fun r => (r, (none : Option TagMsg))) ++ tagged
  all.mergeSort (fun a b => decide (a.1.pos ≤ b.1.pos))

/-- An endpoint enters ERROR (R77, R78, R168, R179) (DEDUCED, log 40). -/
def enterError (e cause : Nat) (d : Dev) : Dev :=
  match ep? d e with
  | none => d
  | some x =>
    if !x.scans && x.state != .draining then d
    else
      let halt (r : Ring) : Ring := { r with scan := none, again := false, unowned := false }
      let d := updEp e (fun x => { x with state := .error, cause := cause, send := halt x.send, recv := x.recv.map halt }) d
      let d := collStop e d
      let d := (ringOps d x).foldl (fun d p =>
        match p.2.owner with
        | .ring pos => complete e false true { entry d e false p.2.code 0x10 with ringIndex := ringIndex x.send pos } d
        | _ => d) d
      let d := (flushRecvs d e x).foldl (fun d p =>
        let r := p.1
        match p.2 with
        | some m => complete e true true (tagEntry d e r m 0x10 0) (envelopeRecord e r m d)
        | none => complete e true true { entry d e true (dOp r.desc) 0x10 with ringIndex := recvIndex d e r.pos } d) d
      let d := match cause, x.latched with
        | 1, some l => complete e (bitOf l 16) true { entry d e (bitOf l 16) (l / 2 ^ 17) 0x11 with ringIndex := l % 2 ^ 16 } d
        | _, _ => d
      let d := match epFunc d e with
        | some f =>
          let idx := if cause = 1 then x.latched.map (· % 2 ^ 16) else none
          eqPost f x.eq { event d 3 e (idx.getD 0 + cause * 2 ^ 16) with noIndex := idx.isNone } d
        | none => d
      let pulls := (d.xp.ops.filter (fun p => decide (p.2.ep = e) && decide (p.2.code = 0x0B) &&
        (match p.2.owner with | .pull _ => true | _ => false))).map (·.1)
      let d := (x.accepted ++ pulls).foldl (fun d i => cancelOp i d) d
      let d := updEp e (fun x => { x with accepted := [], newRecv := [], recvs := [] }) d
      let fail (m : RxMsg) : RxMsg := { m with failed := true, recv := none, tagged := none }
      let d := updXp (fun y => { y with recvRecs := y.recvRecs.map (fun p => if p.1.ep = e then (p.1, { p.2 with msgs := mmap p.2.msgs (fun _ m => fail m) }) else p) }) d
      let d := ((d.xp.recvRecs.filter (fun p => decide (p.1.ep = e))).map (·.1)).foldl (fun d k => tryRelease 16 k d) d
      push (.unpark e) (tagStop e d)

/-! ### Endpoint-gone notices (R63, R141, R229, R234) -/

/-- What becomes of a message in progress that is discarded (R219, R232, R234): a receive that it took
completes with PEER_UNREACHABLE (DEDUCED, log 40). -/
def discardMsg (m : RxMsg) (d : Dev) : Dev :=
  let e := m.hdr.dstEp.toNat
  let d := updXp (fun x => { x with failedMsgs := x.failedMsgs + 1 }) d
  let d := match m.recv with
    | some r => recvComplete e { entry d e true 0x40 0x30 with ringIndex := recvIndex d e r.pos } d
    | none => d
  match m.tagged with
  | none => d
  | some mid =>
    match tagMsg? d mid with
    | none => d
    | some t =>
      if t.rndv then d
      else if t.recv.isSome then tagFinish mid 0x30 d
      else entryGone t.ep (updMctx t.ep (fun c => { c with unexp := c.unexp.filter (· != mid) }) (dropTag mid d))

/-- Frees receiving records and discards their messages. -/
def dropRecvRecs (p : StreamKey → Bool) (d : Dev) : Dev :=
  let ms := ((d.xp.recvRecs.filter (fun r => p r.1)).map (fun r => r.2.msgs.map (·.2))).flatten
  ms.foldl (fun d m => discardMsg m d) (freeRecvRecs p d)

/-- An EP_GONE for an endpoint of a device takes effect here (R141, R229, R234). -/
def goneArrive (da e : Nat) (d : Dev) : Dev :=
  let d := lockLose (fun a b => decide (a = da) && decide (b = e)) d
  let d := ((d.xp.ops.filter (fun p => decide (p.2.dst = da) && decide (p.2.dstEp = e) && p.2.state != .met && p.2.code != 0x28)).map (·.1)).foldl (fun d i => opEnd i 0x23 d) d
  dropRecvRecs (fun k => decide (k.peer.toNat = da) && decide (k.peerEp = e)) d

/-- The peers told when an endpoint is reset or destroyed (R63). -/
def gonePeers (d : Dev) (e : Nat) : List Nat :=
  ((d.xp.sendRecs.filter (fun p => decide (p.1.ep = e))).map (fun p => p.1.peer.toNat)
    ++ (d.xp.recvRecs.filter (fun p => decide (p.1.ep = e))).map (fun p => p.1.peer.toNat)
    ++ (d.clasp.held.filter (fun p => decide (p.1 = e))).map (fun p => p.2.1)).eraseDups

/-- Sends the EP_GONE notices of an endpoint (R63). -/
def sayGone (e : Nat) (d : Dev) : Dev :=
  let ps := gonePeers d e
  let d := ps.foldl (fun d a => if isSelf d a then goneArrive a e d else epGoneTo a e d) d
  updClasp (fun c => { c with held := c.held.filter (fun p => decide (p.1 ≠ e)) }) d

end Sys2Proof.Machine
end

