-- ==== Sys2Proof/Machine/Mem.lean ====
section
/-! DEFINITION. Addressed stores (the Peat store, the flash, MBX.DATA): a list of address and byte pairs with
rising addresses and no zero byte; an unlisted address reads as zero. The Peat store's regions and the
persisted records (R480 to R483). -/

namespace Sys2Proof.Machine

/-! ### Bytes at addresses -/

/-- Is a list of cells in its one form: addresses strictly rising, no byte zero (DESIGN CHOICE, log 12). -/
def cellsWf : List Host.Cell → Bool
  | [] => true
  | [c] => c.2 != 0
  | c :: e :: rest => c.2 != 0 && decide (c.1 < e.1) && cellsWf (e :: rest)

/-- The byte at an address (DESIGN CHOICE, log 9). -/
def cellAt (m : List Host.Cell) (a : Nat) : Byte := ((m.find? (fun c => c.1 == a)).map (·.2)).getD 0

/-- `n` bytes from an address (DESIGN CHOICE, log 12). -/
def cellsRead (m : List Host.Cell) (a n : Nat) : Bytes :=
  let part := m.filter (fun c => decide (a ≤ c.1) && decide (c.1 < a + n))
  (List.range n).map (fun i => cellAt part (a + i))

/-- The cells of bytes that lie from an address on. -/
def cellsOfBytes : Nat → Bytes → List Host.Cell
  | _, [] => []
  | a, b :: bs => if b = 0 then cellsOfBytes (a + 1) bs else (a, b) :: cellsOfBytes (a + 1) bs

/-- Writes bytes from an address on (DESIGN CHOICE, log 12). -/
def cellsWrite (m : List Host.Cell) (a : Nat) (bs : Bytes) : List Host.Cell :=
  m.filter (fun c => decide (c.1 < a)) ++ cellsOfBytes a bs ++ m.filter (fun c => decide (a + bs.length ≤ c.1))

/-- A list of cells brought to its one form; one that is in it stays as it is. -/
def cellsTidy (m : List Host.Cell) : List Host.Cell :=
  if cellsWf m then m else m.foldl (fun l c => cellsWrite l c.1 [c.2]) []

/-! ### The Peat store -/

/-- The regions of the Peat store with their sizes (R480): offsets and sizes in the order of the table. -/
def peatRegions : List (Nat × Nat) :=
  [(0x000000, 0x10000), (0x010000, 0x10000), (0x020000, 0x10000), (0x030000, 0x50000), (0x080000, 0x80000),
   (0x100000, 0x100000), (0x200000, 0x200000), (0x400000, 0x400000)]

/-- The size of the Peat store. -/
def peatSize : Nat := 0x800000

/-- May host software write a range (R480): it lies wholly in TRAINING or SCRATCH. -/
def peatUser (off len : Nat) : Bool :=
  (decide (0x080000 ≤ off) && decide (off + len ≤ 0x100000)) || (decide (0x400000 ≤ off) && decide (off + len ≤ 0x800000))

/-- Does a byte lie in a record whose layout is not given (R481): IDENTITY, CONFIG, or the TRAINING page of a
port with training history. -/
def peatOpen (d : Dev) (a : Nat) : Bool :=
  decide (a < 0x010000) || (decide (0x030000 ≤ a) && decide (a < 0x080000))
    || (decide (0x080000 ≤ a) && decide (a < 0x100000) && mhas d.nv.hist ((a - 0x080000) / 0x1000))

/-- Reads bytes of the store (R480). The bytes of records whose layout is not given are left open (DESIGN CHOICE, log 69). -/
def peatRead (off len : Nat) (d : Dev) : Bytes × Dev :=
  let bs := cellsRead d.nv.peat off len
  if (List.range len).any (fun i => peatOpen d (off + i)) then
    let (n, d) := fresh d
    let v := toLe len n
    (bs.zipIdx.map (fun p => if peatOpen d (off + p.2) then v.getD p.2 0 else p.1), d)
  else (bs, d)

/-- Counts a write of each page of a range (R483). -/
def wearCount (off len : Nat) (d : Dev) : Dev :=
  if len = 0 then d
  else
    let ps := (List.range ((off + len - 1) / 4096 - off / 4096 + 1)).map (fun i => off / 4096 + i)
    { d with nv := { d.nv with wear := ps.foldl (fun m p => mset m p ((mget m p).getD 0 + 1)) d.nv.wear } }

/-- Writes bytes of the store. A port's training history is lost where its page is written over: the bytes
need not be a valid record (R481) (DESIGN CHOICE, log 69). -/
def peatWrite (off : Nat) (bs : Bytes) (d : Dev) : Dev :=
  let hit (p : Nat) : Bool := overlaps off bs.length (0x080000 + p * 0x1000) 0x1000
  wearCount off bs.length
    { d with nv := { d.nv with peat := cellsWrite d.nv.peat off bs, hist := d.nv.hist.filter (fun p => !hit p.1) } }

/-- A record of IDENTITY or CONFIG is written (R481): which page holds it is left open (DESIGN CHOICE, log 69). -/
def recordWear (first pages : Nat) (d : Dev) : Dev :=
  let (n, d) := fresh d
  wearCount ((first + n % pages) * 4096) 1 d

/-- The persisted record of an object (R482) (DESIGN CHOICE, log 69). -/
def record? (d : Dev) (k : Nat) : Option (List Nat) := (mget d.nv.recs k).map (·.vals)

/-- Was a record written within the last 250 ms (R482). -/
def recordBusy (d : Dev) (k : Nat) : Bool :=
  match mget d.nv.recs k with
  | none => false
  | some r => decide (d.clk < r.wrote + 250000000)

/-- Writes a record of CONFIG (R482) (DESIGN CHOICE, log 69). -/
def recordPut (k : Nat) (vs : List Nat) (d : Dev) : Dev :=
  recordWear 0x30 80 { d with nv := { d.nv with recs := mset d.nv.recs k { vals := vs, wrote := d.clk } } }

end Sys2Proof.Machine
end

