-- ==== Sys2Proof/Machine/Dma.lean ====
section
/-! DEFINITION. The DMA engine: channels, the scan of their rings, descriptors, chunks, write-backs (R404 to
R418). -/

namespace Sys2Proof.Machine

/-- A channel. -/
def dmaCh? (d : Dev) (c : Nat) : Option DmaCh := mget d.dma.chs c

/-- Changes a channel. -/
def updCh (c : Nat) (g : DmaCh → DmaCh) (d : Dev) : Dev := { d with dma := { d.dma with chs := mupd d.dma.chs c g } }

/-- Changes an accepted descriptor. -/
def updJob (c id : Nat) (g : DmaJob → DmaJob) (d : Dev) : Dev :=
  updCh c (fun x => { x with jobs := x.jobs.map (fun j => if j.id = id then g j else j) }) d

/-- An accepted descriptor of a channel. -/
def job? (d : Dev) (c id : Nat) : Option (DmaCh × DmaJob) :=
  match dmaCh? d c with
  | none => none
  | some x => (x.jobs.find? (fun j => j.id == id)).map (fun j => (x, j))

/-! ### The descriptor (R407, R408, R410) -/

def jOp (e : Bytes) : Nat := bitsOf (leAt e 0 1) 0 4
def jBarrier (e : Bytes) : Bool := bitOf (leAt e 0 1) 4
def jSrcB (e : Bytes) : Bool := bitOf (leAt e 0 1) 5
def jDstB (e : Bytes) : Bool := bitOf (leAt e 0 1) 6
def jTarget (e : Bytes) : Nat := bitsOf (leAt e 1 1) 0 4
def jLen (e : Bytes) : Nat := leAt e 4 4
def jSrc (e : Bytes) : Nat := leAt e 8 8
def jDst (e : Bytes) : Nat := leAt e 16 8
def jOwn (e : Bytes) : Bool := bitOf (leAt e 31 1) 7

/-- Has a descriptor a nonzero reserved field (R407). -/
def jReserved (e : Bytes) : Bool :=
  bitOf (leAt e 0 1) 7 || bitsOf (leAt e 1 1) 4 4 != 0 || leAt e 2 2 != 0 || bitsOf (leAt e 29 1) 1 7 != 0
    || leAt e 30 1 != 0 || bitsOf (leAt e 31 1) 0 7 != 0

/-- Is a descriptor malformed (R410). -/
def dmaMalformed (x : DmaCh) (e : Bytes) : Bool :=
  let o := jOp e
  decide (4 < o) || jReserved e
    || (jSrcB e && (x.slotB.isNone || o == 2 || o == 3)) || (jDstB e && (x.slotB.isNone || o == 1 || o == 4))
    || ((o == 1 || o == 2) && (x.ep.isNone || !mhas x.targets (jTarget e)))
    || (o == 3 && (jSrc e % 8 != 0 || jLen e % 8 != 0)) || (o == 4 && (jDst e % 8 != 0 || jLen e % 8 != 0))

/-- The job slot and the function of one side of a descriptor (R407). -/
def dmaSide (d : Dev) (x : DmaCh) (b : Bool) : Nat × Func :=
  if b then
    let s := x.slotB.getD 0
    (s, ((slot? d s).map (·.f)).getD x.f)
  else (x.slotA, x.f)

/-- Must the destination's writes be flushed by a read before the write-back (R411, R412). -/
def dmaFlushes (d : Dev) (x : DmaCh) (e : Bytes) : Bool :=
  let o := jOp e
  (o == 0 || o == 2 || o == 3) && (jBarrier e || decide ((dmaSide d x (jDstB e)).2.hp ≠ x.f.hp))

/-- The local status of R413. -/
def dmaStatus (st : Nat) : Nat := if st = 0x70 then 0x14 else st

/-! ### Write-backs and interrupts (R411, R412, R415) -/

/-- The access of a channel's ring (DEDUCED, log 73). -/
def chAccess (x : DmaCh) (off len : Nat) (right : Right) (act : AccAct) (use : Use) : Acc :=
  { slot := some x.slotA, f := x.f, key := none, remote := false, iova := x.ring + off, len := len,
    right := right, region := .any, act := act, use := use }

/-- A channel that stops has written back everything (R405). -/
def dmaStopped (c : Nat) (d : Dev) : Dev :=
  match dmaCh? d c with
  | none => d
  | some x =>
    match x.stop with
    | none => d
    | some ctx =>
      if x.jobs = [] then push (.reply ctx 0x0C04 0 0 []) (updCh c (fun x => { x with state := 0, stop := none, scan := none, again := false }) d)
      else d

/-- The first descriptor in ring order is over: its destination is flushed where it must be, then its
write-back starts (R411, R412). -/
def dmaAdvance (c : Nat) (d : Dev) : Dev :=
  match dmaCh? d c with
  | none => d
  | some x =>
    let d := x.jobs.foldl (fun d j =>
      if j.ended && j.begun && j.flush == 0 && j.status != 0x11 && dmaFlushes d x j.desc then
        let f := (dmaSide d x (jDstB j.desc)).2
        let (n, d) := fresh d
        hostRead f (n % 2 ^ 64) 0 (.dmaFlush c j.id) (updJob c j.id (fun j => { j with flush := 1 }) d)
      else d) d
    match dmaCh? d c with
    | none => d
    | some x =>
      match x.jobs with
      | [] => dmaStopped c d
      | j :: _ =>
        if j.ended && j.begun && !j.backing && (j.flush == 2 || !(j.status != 0x11 && dmaFlushes d x j.desc)) then
          access (chAccess x (32 * (j.pos % 2 ^ x.n) + 24) 8 .w .find (.dmaBack c j.id)) (updJob c j.id (fun j => { j with backing := true }) d)
        else d

/-- Descriptors of a channel in progress (R405, R411). -/
def dmaInflight (x : DmaCh) : Nat := (x.jobs.filter (·.begun)).length

/-- May a channel begin its next descriptor (R411, R412). -/
def dmaMayBegin (x : DmaCh) : Bool :=
  x.state == 1 && decide (dmaInflight x < 4) && !x.jobs.any (fun j => j.begun && jBarrier j.desc)

/-- Begins malformed descriptors whose turn it is: they are written back at once (R410). -/
def dmaMalformedGo : Nat → Nat → Dev → Dev
  | 0, _, d => d
  | fuel + 1, c, d =>
    match dmaCh? d c with
    | none => d
    | some x =>
      match x.jobs.find? (fun j => !j.begun) with
      | none => d
      | some j =>
        if j.status = 0x11 ∧ dmaMayBegin x = true then
          dmaMalformedGo fuel c (updJob c j.id (fun j => { j with begun := true, ended := true }) (updCh c (fun x => { x with head := x.head + 1 }) d))
        else d

/-- Brings a channel up to date after an event. -/
def dmaGo (c : Nat) (d : Dev) : Dev := dmaAdvance c (dmaMalformedGo 4 c d)

/-- The read that flushes a destination has completed (R411, R412) (DEDUCED, log 73). -/
def dmaFlushDone (c id : Nat) (r : HRead) (d : Dev) : Dev :=
  match job? d c id with
  | none => d
  | some (_, j) =>
    let st := if r.status ≠ .ok ∧ j.status < 4 then 0x14 else j.status
    dmaGo c (updJob c id (fun j => { j with flush := 2, status := st }) d)

/-- The place of a write-back is known: the two writes, the counts and the interrupts (R411, R413, R415). A place
that cannot be translated is not written (DEDUCED, log 73). -/
def dmaBackDone (c id : Nat) (res : AccRes) (d : Dev) : Dev :=
  match job? d c id with
  | none => d
  | some (x, j) =>
    let bad := decide (4 ≤ j.status)
    let bytes := if bad then 0 else jLen j.desc
    let d := match res.pieces.head? with
      | some (a, _) =>
        if res.status = 0 then
          hostWrite x.f (a + 7) [0] false false
            (hostWrite x.f a (toLe 4 bytes ++ toLe 1 j.status ++ toLe 1 (b2n bad) ++ [0]) false false d)
        else d
      | none => d
    let d := count (DMA + 0x308) (countBy (DMA + 0x300) bytes d)
    let d := if bad then count (DMA + 0x310) d else d
    let i := j.pos % 2 ^ x.n
    let d := match x.vector with
      | none => d
      | some v =>
        let d := if x.half && decide (i + 1 = 2 ^ (x.n - 1)) then msixRequest x.f v d else d
        let d := if x.full && decide (i + 1 = 2 ^ x.n) then msixRequest x.f v d else d
        if x.err && bad then msixRequest x.f v d else d
    dmaGo c (updCh c (fun x => { x with jobs := x.jobs.filter (fun j => j.id != id) }) d)

/-! ### The scan of a ring (R409) -/

/-- A channel enters HALTED (R405). What has begun ends; what has not begun is no longer accepted (DEDUCED, log 73). -/
def dmaHalt (c cause : Nat) (d : Dev) : Dev :=
  let d := match (dmaCh? d c).bind (·.stop) with
    | some ctx => push (.reply ctx 0x0C04 5 0 []) d
    | none => d
  updCh c (fun x => { x with
    state := 2, cause := cause, scan := none, again := false, stop := none, tail := x.head
    jobs := x.jobs.filter (·.begun) }) d

/-- Accepts a descriptor (R409, R410) (DEDUCED, log 73). -/
def dmaAccept (c pos : Nat) (e : Bytes) (d : Dev) : Dev :=
  updCh c (fun x => { x with
    tail := pos + 1, nextId := x.nextId + 1
    jobs := x.jobs ++ [{ id := x.nextId, pos := pos, desc := e, status := if dmaMalformed x e then 0x11 else 0 }] }) d

/-- Goes on with a channel's scan (R72, R409). It stops as well where every entry of the ring is accepted and not
yet written back. -/
def dmaScanLoop : Nat → Nat → Dev → Dev
  | 0, _, d => d
  | fuel + 1, c, d =>
    match dmaCh? d c with
    | none => d
    | some x =>
      match x.scan with
      | none => d
      | some s =>
        if 2 ^ x.n ≤ x.jobs.length then updCh c (fun x => { x with scan := none }) d
        else
          let depth := min 4 (fld d (DMA + 0x020) 0 3)
          let top := s.i + depth + 1
          let ps := (List.range (top - max s.req s.i)).map (fun k => max s.req s.i + k)
          let d := (ringRequests x.n ps).foldl (fun d q =>
            access (chAccess x (32 * (q.1 % 2 ^ x.n)) (32 * q.2) .r .read (.dmaRing c s.no q.1 q.2)) d) d
          let d := updCh c (fun x => { x with scan := some { s with req := max s.req top } }) d
          match s.copy s.i with
          | none => d
          | some none => dmaHalt c 1 d
          | some (some b) =>
            if !jOwn b then updCh c (fun x => { x with scan := none }) d
            else
              let d := updCh c (fun x => { x with scan := some { s with i := s.i + 1, req := max s.req top, copies := s.copies.filter (fun p => decide (s.i < p.1)) } }) d
              dmaScanLoop fuel c (dmaAccept c s.i b d)

/-- Runs the further scan that a kick during a scan asked for (R72, R409) (DESIGN CHOICE, log 18). -/
def dmaScanNext (c : Nat) (d : Dev) : Dev :=
  match dmaCh? d c with
  | none => d
  | some x =>
    if x.scan.isNone && x.again && x.state == 1 then
      dmaScanLoop 32 c (updCh c (fun x => { x with again := false, scan := some { no := x.scans, i := x.tail, req := x.tail }, scans := x.scans + 1 }) d)
    else d

/-- Ring entries have been read, or could not be (R72, R405). -/
def dmaRingDone (c no pos n : Nat) (res : AccRes) (d : Dev) : Dev :=
  match dmaCh? d c with
  | none => d
  | some x =>
    match x.scan with
    | none => d
    | some s =>
      if s.no ≠ no then d
      else
        let bad := res.status != 0 || res.data.any (·.poison)
        let bs := (res.data.map (·.bytes)).flatten
        let copies := (List.range n).foldl (fun m k => mset m (pos + k) (if bad then none else some (slice bs (32 * k) 32))) s.copies
        dmaGo c (dmaScanNext c (dmaScanLoop 32 c (updCh c (fun x => { x with scan := some { s with copies := copies } }) d)))

/-- A write of DMA.KICK (R405, R409) (DEDUCED, log 73). -/
def dmaKick (m : Master) (c : Nat) (d : Dev) : Dev :=
  let mine (x : DmaCh) : Bool := match m with
    | .host f => decide (f = x.f)
    | .maint => true
  match dmaCh? d c with
  | none => count (DMA + 0x318) d
  | some x =>
    if x.state ≠ 1 ∨ x.stop.isSome = true ∨ mine x = false then count (DMA + 0x318) d
    else if frozen d then d
    else if x.scan.isSome then updCh c (fun x => { x with again := true }) d
    else dmaGo c (dmaScanNext c (updCh c (fun x => { x with again := true }) d))

/-! ### Execution (R408, R411 to R414) -/

/-- A descriptor fails (R413) (DEDUCED, log 73). -/
def dmaFail (c id st : Nat) (d : Dev) : Dev :=
  updJob c id (fun j => if j.status < 4 then { j with status := dmaStatus st } else j) d

/-- Nothing of a local descriptor is left to be done. -/
def dmaCheck (c id : Nat) (d : Dev) : Dev :=
  match job? d c id with
  | none => d
  | some (_, j) =>
    let fin := j.op.isNone && j.out == 0 && (decide (4 ≤ j.status) || decide (jLen j.desc ≤ j.next))
    dmaGo c (if fin then updJob c id (fun j => { j with ended := true, status := if j.status = 0 ∧ j.poison = true then 1 else j.status }) d else d)

/-- The operation of a PUT or GET (R408): its descriptor as a send ring would hold it (R67, R117). -/
def dmaOperation (d : Dev) (c : Nat) (x : DmaCh) (j : DmaJob) : Op :=
  let e := j.desc
  let (da, ep, rkey) := (mget x.targets (jTarget e)).getD (0, 0, 0)
  let put := jOp e == 1
  let code := if put then 1 else 3
  let side := dmaSide d x (if put then jSrcB e else jDstB e)
  let desc := toLe 1 code ++ toLe 1 (if put && jBarrier e then 16 else 0) ++ toLe 1 (x.tc + 4 * x.ord) ++ [0]
    ++ toLe 4 (jLen e) ++ toLe 8 (da + ep * 2 ^ 17) ++ toLe 8 (if put then jDst e else jSrc e) ++ toLe 4 rkey ++ zeros 4
    ++ toLe 8 (if put then jSrc e else jDst e) ++ zeros 24
  { owner := .dma c j.id, loc := some (some side.1, side.2), ep := x.ep.getD 0, code := code, desc := desc,
    dst := da, dstEp := ep, ord := x.ord, len := jLen e }

/-- Does a Peat range go beyond what host software may use (R408). -/
def dmaPeatBad (e : Bytes) : Bool :=
  (jOp e == 3 && decide (peatSize < jSrc e + jLen e)) || (jOp e == 4 && !peatUser (jDst e) (jLen e) && jLen e != 0)

/-- Begins the next descriptor of a channel if it is of one kind (R408, R411). -/
def dmaBegin (c o : Nat) (d : Dev) : Dev :=
  match dmaCh? d c with
  | none => d
  | some x =>
    match x.jobs.find? (fun j => !j.begun) with
    | none => d
    | some j =>
      if jOp j.desc ≠ o ∨ j.status = 0x11 ∨ dmaMayBegin x = false ∨ frozen d = true then d
      else
        let d := updJob c j.id (fun j => { j with begun := true }) (updCh c (fun x => { x with head := x.head + 1 }) d)
        if o = 1 ∨ (o = 2 ∧ jLen j.desc ≠ 0) then
          let (i, d) := newOp (dmaOperation d c x j) d
          updJob c j.id (fun j => { j with op := some i }) d
        else if dmaPeatBad j.desc then dmaCheck c j.id (dmaFail c j.id 0x13 d)
        else dmaCheck c j.id d

/-- Starts the operation of a PUT or GET whose strands then go chunk by chunk; a limit makes it wait (R414). -/
def dmaStartOp (i : Nat) (d : Dev) : Dev :=
  match op? d i with
  | none => d
  | some o =>
    if o.state ≠ .waiting then d
    else if (peer d o.dst).state = .unreachable ∧ isSelf d o.dst = false then opEnd i 0x30 d
    else if opLimited d o then d
    else
      match takeMsn i d with
      | none => d
      | some d =>
        let ps := (mtuParts d o.len).map (fun p => ({ off := p.1, len := p.2, held := true } : Part))
        updOp i (fun x => { x with state := .running, left := ps.length, parts := ps }) d

/-- Sends the next strand of a PUT, or asks for the next part of a GET. -/
def dmaStrand (i : Nat) (d : Dev) : Dev :=
  match op? d i with
  | none => d
  | some o =>
    match o.parts.find? (fun q => q.held && !q.sent) with
    | none => d
    | some q =>
      let set (g : Part → Part) (d : Dev) : Dev :=
        updOp i (fun x => { x with parts := x.parts.map (fun p => if p.off = q.off then g p else p) }) d
      if o.state ≠ .running then d
      else if o.code = 1 then
        let h := { opHdr d o 0 1 with addr := BitVec.ofNat 64 (dRaddr o.desc), key := BitVec.ofNat 32 (dRkey o.desc)
                                      offset := BitVec.ofNat 32 q.off, len := BitVec.ofNat 13 q.len }
        opStrand i (setLast h (decide (q.off + q.len = o.len))) (opSrc d o q.off q.len) (set (fun p => { p with sent := true, fin := true }) d)
      else issueParts i (set (fun p => { p with held := false }) d)

/-- Moves one chunk of a local descriptor: at most 4 KiB and within 4 KiB of either address (R416). -/
def dmaChunk (c : Nat) (x : DmaCh) (j : DmaJob) (d : Dev) : Dev :=
  let e := j.desc
  let src := jSrc e + j.next
  let dst := jDst e + j.next
  let n := min (jLen e - j.next) (min (4096 - src % 4096) (4096 - dst % 4096))
  let d := updJob c j.id (fun j => { j with next := j.next + n, out := j.out + 1 }) d
  let write (cs : List Chunk) (d : Dev) : Dev :=
    let s := dmaSide d x (jDstB e)
    access { slot := some s.1, f := s.2, key := none, remote := false, iova := dst, len := n, right := .w, region := .any,
             act := .write cs true, use := .dmaWrite c j.id (j.next) n } d
  if jOp e = 3 then
    let (bs, d) := peatRead src n d
    write [⟨bs, false⟩] d
  else
    let s := dmaSide d x (jSrcB e)
    access { slot := some s.1, f := s.2, key := none, remote := false, iova := src, len := n, right := .r, region := .any,
             act := .read, use := .dmaRead c j.id j.next n } d

/-- The source of a chunk has been read (R413). -/
def dmaReadDone (c id off len : Nat) (res : AccRes) (d : Dev) : Dev :=
  match job? d c id with
  | none => d
  | some (x, j) =>
    if res.status ≠ 0 then dmaCheck c id (dmaFail c id res.status (updJob c id (fun j => { j with out := j.out - 1 }) d))
    else
      let e := j.desc
      let d := updJob c id (fun j => { j with poison := j.poison || res.data.any (·.poison) }) d
      if jOp e = 4 then
        dmaCheck c id (updJob c id (fun j => { j with out := j.out - 1 }) (peatWrite (jDst e + off) ((res.data.map (·.bytes)).flatten) d))
      else
        let s := dmaSide d x (jDstB e)
        access { slot := some s.1, f := s.2, key := none, remote := false, iova := jDst e + off, len := len, right := .w,
                 region := .any, act := .write res.data true, use := .dmaWrite c id off len } d

/-- The destination of a chunk has been written, or could not be (R413). -/
def dmaWriteDone (c id : Nat) (res : AccRes) (d : Dev) : Dev :=
  let d := updJob c id (fun j => { j with out := j.out - 1 }) d
  dmaCheck c id (if res.status = 0 then d else dmaFail c id res.status d)

/-- The operation of a PUT or GET has met its end (R412, R413). -/
def dmaOpMet (c id i : Nat) (o : Op) (d : Dev) : Dev :=
  let d := dropOp i d
  dmaGo c (updJob c id (fun j => { j with ended := true, status := dmaStatus o.status, op := none }) d)

/-- The descriptor whose chunk a channel moves next (R411, R414): the first begun one with something left to
move. -/
def dmaWork (d : Dev) (x : DmaCh) : Option DmaJob :=
  x.jobs.find? (fun j => j.begun && !j.ended &&
    match j.op with
    | none => decide (j.status < 4) && decide (j.next < jLen j.desc)
    | some i =>
      match op? d i with
      | none => false
      | some o => o.state == .waiting || (o.state == .running && o.parts.any (fun q => q.held && !q.sent)))

/-- Is a channel ready (R414, R416). -/
def dmaReady (d : Dev) (x : DmaCh) : Bool :=
  match dmaWork d x with
  | none => false
  | some j =>
    match j.op.bind (op? d) with
    | none => true
    | some o =>
      o.state != .waiting || (decide ((peer d o.dst).state = .unreachable) && !isSelf d o.dst)
        || (!opLimited d o &&
          match aget d.xp.sendRecs o.key with
          | some r => decide (r.unacked.length < 8)
          | none => decide (d.xp.sendRecs.length + d.xp.recvRecs.length < 65536))

/-- The channel that the engine serves next (R416): of the highest level with a ready channel, the next one after
the channel that the level served last. -/
def dmaSelect (d : Dev) : Option (Nat × DmaCh) :=
  let rs := d.dma.chs.filter (fun p => dmaReady d p.2)
  match rs.map (fun p => p.2.prio) with
  | [] => none
  | p :: ps =>
    let top := ps.foldl max p
    let rs := rs.filter (fun p => p.2.prio == top)
    let last := d.dma.last.getD top 63
    match rs.find? (fun p => decide (last < p.1)) with
    | some r => some r
    | none => rs.head?

/-- The engine serves one chunk (R416). -/
def dmaChunkSelect (d : Dev) : Dev :=
  if frozen d then d
  else
    match dmaSelect d with
    | none => d
    | some (c, x) =>
      match dmaWork d x with
      | none => d
      | some j =>
        let d := { d with dma := { d.dma with last := lset d.dma.last x.prio c } }
        match j.op with
        | none => dmaChunk c x j d
        | some i => dmaStrand i (dmaStartOp i d)

/-- Channels of functions that host-loss processing covers stop (R406). What they had under way is forgotten. -/
def dmaLost (p : Func → Bool) (d : Dev) : Dev :=
  d.dma.chs.foldl (fun d c =>
    if p c.2.f && c.2.state == 1 then updCh c.1 (fun x => { x with jobs := [] }) (dmaHalt c.1 2 d)
    else if p c.2.f then updCh c.1 (fun x => { x with jobs := [], scan := none }) d
    else d) d

/-- A job slot is destroyed (R406). -/
def dmaSlotGone (s : Nat) (d : Dev) : Dev :=
  let d := { d with dma := { d.dma with chs := d.dma.chs.filter (fun c => c.2.slotA != s) } }
  d.dma.chs.foldl (fun d c => if c.2.slotB = some s then dmaHalt c.1 2 (updCh c.1 (fun x => { x with slotB := none }) d) else d) d

/-- DMA.CH_STATE (R405). -/
def chState (d : Dev) (c : Nat) : Nat :=
  match dmaCh? d c with
  | none => 0
  | some x => x.state + x.prio * 4 + dmaInflight x * 16 + 128 + x.cause * 256 + (x.head % 2 ^ x.n) * 2 ^ 16

end Sys2Proof.Machine
end

