-- ==== Sys2Proof/Machine/Enable.lean ====
section
/-! DEFINITION. The consistency checks of the blocks whose settings are registers, and the outcome of a check
(R424). -/

namespace Sys2Proof.Machine

/-- The reason of the first condition that holds. -/
def firstReason : List (Bool × Nat) → Option Nat
  | [] => none
  | (b, r) :: rest => if b then some r else firstReason rest

/-- The check of XLAT instance `k` (R115). -/
def checkXlat (d : Dev) (k : Nat) : Option Nat :=
  let wrong (i : Nat) : Bool :=
    let a := XLAT k + 0x100 + 0x40 * (i / 4) + 0x10 * (i % 4)
    fld d a 0 1 == 1 && decide (fld d (a + 8) 12 40 < fld d a 12 40)
  firstReason [(fld d (XLAT k + 0x020) 0 16 == 0, 0x1001), ((List.range 8).any wrong, 0x1002)]

/-- The check of EPT (R91). -/
def checkEpt (d : Dev) : Option Nat :=
  firstReason [(decide (8 < fld d (EPT + 0x020) 0 4), 0x1101), (decide (fld d (EPT + 0x020) 8 16 < 10), 0x1102)]

/-- The check of MATCH (R170). -/
def checkMatch (d : Dev) : Option Nat :=
  let k := fld d (MATCH + 0x020) 0 7
  firstReason [(k == 0 || decide (64 < k), 0x1201)]

/-- The check of COLL (R212). -/
def checkColl (d : Dev) : Option Nat :=
  let f := fld d (COLL + 0x024)
  firstReason
    [(decide (200 < f 0 8), 0x1301), (decide (f 8 8 < 5) || decide (200 < f 8 8), 0x1302),
     (decide (100 < f 16 8), 0x1303), (f 24 1 == 1 && fld d (COLL + 0x028) 16 8 == 0, 0x1304)]

/-- The check of CLASP (R144). -/
def checkClasp (d : Dev) : Option Nat := firstReason [(fld d (CLASP + 0x020) 16 10 == 0, 0x1401)]

/-- The check of XPORT (R55, R245). -/
def checkXport (d : Dev) : Option Nat :=
  let w := fld d (XPORT + 0x020)
  let a := fld d (XPORT + 0x024)
  let r := fld d (XPORT + 0x028)
  firstReason
    [(decide (4 < w 0 3), 0x1501), (decide (w 8 5 < 5) || decide (12 < w 8 5), 0x1502), (a 0 6 == 0, 0x1503),
     (a 8 8 == 0, 0x1504), (decide (r 0 7 < 8) || decide (100 < r 0 7), 0x1505),
     (decide (r 8 8 < r 0 7) || decide (100 < r 8 8), 0x1506), (r 20 4 == 0, 0x1507), (r 24 4 == 0, 0x1508)]

/-- The check of CONG (R269). -/
def checkCong (d : Dev) : Option Nat :=
  let r := fld d (CONG + 0x020)
  let t := fld d (CONG + 0x024)
  let slot := fld d (CONG + 0x028) 0 8
  firstReason
    [(decide (r 0 12 < 10) || decide (4000 < r 0 12), 0x1601), (r 12 8 == 0, 0x1602), (decide (r 20 8 < r 12 8), 0x1603),
     (r 28 4 == 0 || decide (10 < r 28 4), 0x1604), (t 0 8 == 0 || t 8 8 == 0 || t 24 8 == 0, 0x1605),
     (decide (slot < 4) || decide (100 < slot), 0x1606), (fld d (CONG + 0x02C) 0 12 == 0, 0x1607)]

/-- The check of DMA (R417). -/
def checkDma (d : Dev) : Option Nat := firstReason [(decide (4 < fld d (DMA + 0x020) 0 3), 0x1701)]

/-- The check of RTR (R298). -/
def checkRtr (d : Dev) : Option Nat := firstReason [(!d.rtr.daValid, 0x1801)]

/-- The check of MGF (R447). -/
def checkMgf (d : Dev) : Option Nat :=
  firstReason [(fld d (MGF + 0x020) 8 1 == 1 && fld d (MGF + 0x024) 31 1 == 0, 0x1A01)]

/-- The check of a port's LANE (R349). -/
def checkLane (d : Dev) (n : Nat) : Option Nat :=
  let l := fld d (LANE n + 0x020) 8 8
  firstReason [(l == 0 || decide (45 < l), 0x2001)]

/-- The check of a port's LINK (R316). -/
def checkLink (d : Dev) (n : Nat) : Option Nat :=
  let c := fld d (LINK n + 0x020)
  let h := fld d (LINK n + 0x024)
  firstReason
    [(c 0 6 == 0, 0x2101), (c 8 8 == 0, 0x2102), (decide (c 16 8 < 10) || decide (100 < c 16 8), 0x2103),
     (decide (c 16 8 * 100 ≤ c 8 8 * 10), 0x2104), (h 0 3 == 0 || h 8 8 == 0, 0x2105), (h 16 8 == 0 || h 24 8 == 0, 0x2106)]

/-- The check of a host port (R402). -/
def checkHost (d : Dev) (h : Nat) : Option Nat :=
  let x := host d h
  firstReason [(decide (4096 < x.pfVec + x.totalVfs * x.vfVec), 0x0801)]

/-- The end of a check (R424): EN is set and REASON cleared, or EN stays 0 and REASON says why (DEDUCED, log 23). -/
def enableWith (base : Nat) (r : Option Nat) (d : Dev) : Dev :=
  match r with
  | none => setFld (base + 4) 16 16 0 (setEn base true d)
  | some c => setFld (base + 4) 16 16 c d

end Sys2Proof.Machine
end

