-- ==== Sys2Proof/Machine/Target.lean ====
section
/-! DEFINITION. What a device does with a strand that has reached its transport (R244): the checks of R49,
the classification, the checks of R120, the dispatch by KIND and OP (R542), the release of messages (R235),
refusals at their sender (R229), and the restart of a pair (R219, R232). -/

namespace Sys2Proof.Machine

/-! ### Checks of a strand -/

/-- Is a strand malformed (R49) (DEDUCED, log 37). -/
def strandBad (st : Strand) : Bool :=
  let h := st.hdr
  let k := h.kind.toNat
  h.ver != 0 || decide (11 ≤ k)
    || (match k with
        | 0 => h.vn | 1 => !h.vn | 2 => !h.vn | 4 => h.vn | 5 => !h.vn | 6 => h.vn | 8 => h.vn | 10 => !h.vn
        | _ => false)
    || decide (4096 < h.len.toNat)
    || (if h.trim then st.beads != [] else decide (st.beads.length ≠ ceilDiv h.len.toNat 64))

/-- Counts a strand of R49 or R542 and raises the malformed-strand source. -/
def countMalformed (d : Dev) : Dev := raise (srcWin 11 2) (updXp (fun x => { x with malformed := x.malformed + 1 }) d)

/-- Does a strand break the rules of its KIND (R542): an OP its KIND does not define, or an ADDR that is not
aligned (DEDUCED, log 37). -/
def kindBroken (h : Hdr) : Bool :=
  let o := h.op.toNat
  match h.kind.toNat with
  | 0 => !([1, 2, 4, 8, 9, 0x0A, 0x0C].contains o)
  | 4 => !([3, 0x0B].contains o)
  | 5 => !([3, 0x0B, 0x10].contains o)
  | 6 => decide (6 < o) || h.addr.toNat % 8 != 0
  | 7 => if h.vn then !(decide (0x81 ≤ o) && decide (o ≤ 0x85)) else !(decide (1 ≤ o) && decide (o ≤ 3)) || h.addr.toNat % 8 != 0
  | 8 => !([1, 2].contains o)
  | _ => false

/-- Is a strand sequenced, by its KIND and CAUSE (R220) (DEDUCED, log 37). -/
def seqStrand (h : Hdr) : Bool := decide (h.kind.toNat ≤ 10) && h.kind != 1 && h.kind != 9 && !(h.kind == 2 && decide (h.opwf 40 8 = 4))

/-! ### Posting receives -/

/-- Posts every accepted receive that can be posted (R60: acceptance posts it). -/
def postAll : Nat → Nat → Dev → Dev
  | 0, _, d => d
  | fuel + 1, e, d =>
    match ep? d e with
    | none => d
    | some x =>
      match x.newRecv with
      | [] => d
      | r :: rest =>
        let d := postNext e (dOp r.desc == 0x41) d
        if ((ep? d e).map (fun y => y.newRecv.length)) = some rest.length then postAll fuel e d else d

/-- A SEND strand at its target, after steps 1 to 4 (R71). -/
def sendTarget (rx : Rx) (d : Dev) : Dev :=
  let h := rx.st.hdr
  let e := h.dstEp.toNat
  let put (r : Recv) (d : Dev) : Dev := if mayPlace d h then placeInRecv rx r d else park rx .placement d
  match msgOf d h with
  | none => settle rx d
  | some m =>
    if m.failed then settleOnly rx d
    else
      match m.recv with
      | some r => put r d
      | none =>
        if !mayMatch d false h then park rx .order d
        else
          let d := postAll 4096 e d
          match (ep? d e).map (·.recvs) with
          | some (r :: rest) =>
            put r (push (.unpark e) (updMsg h (fun m => { m with recv := some r }) (updEp e (fun x => { x with recvs := rest }) d)))
          | _ => refuseNotReady rx d

/-- A strand in the receive buffer of an untagged SEND cannot be placed (R71): the receive completes with the
local status. -/
def sendFail (h : Hdr) (status : Nat) (d : Dev) : Dev :=
  let e := h.dstEp.toNat
  match (msgOf d h).bind (·.recv) with
  | none => d
  | some r =>
    recvComplete e { entry d e true 0x40 status with ringIndex := recvIndex d e r.pos }
      (updMsg h (fun m => { m with recv := none }) d)

/-- The place of a strand in a taken receive is known, or its placement fails. -/
def placeRecvEnd (rx : Rx) (res : AccRes) (d : Dev) : Dev :=
  match (msgOf d rx.st.hdr).bind (·.tagged) with
  | some mid => placeRecvDone rx res (tagFail mid) d
  | none => placeRecvDone rx res (sendFail rx.st.hdr) d

/-! ### Refusals at their sender (R218, R229, R241, R243) -/

/-- A refusal acts on the content it names. -/
def refusalActs (kind cause status cid : Nat) (d : Dev) : Dev :=
  if kind = 3 then contentTrimmed cid d
  else if kind = 2 ∧ cause = 1 then contentNotReady cid d
  else contentRefused cid status d

/-- A NACK, trim notice or endpoint-gone notice that was accepted (R218, R228, R229). -/
def noticeArrive (rx : Rx) (d : Dev) : Dev :=
  let h := rx.st.hdr
  let da := h.srcDa.toNat
  let kind := h.kind.toNat
  let vn := bitOf h.opw.toNat 32
  let d := settle rx d
  if (peer d da).txGen ≠ some h.bgen.toNat ∨ (peer d da).state ≠ .opened then genDrop d
  else if kind = 10 ∧ bitOf h.opw.toNat 33 = false then goneArrive da h.srcEp.toNat d
  else if notYetSent (sendHalf (peer d da) vn) (h.opwf 0 32) then push (.restart da false) d
  else
    let d := if kind = 3 then updRate da vn rateCut d else d
    match refusedStrand d da h with
    | none => d
    | some u =>
      if u.refused then d
      else
        let d := refusalActs kind (h.opwf 40 8) (h.opwf 48 8) u.cid (markRefused da vn u.bsn d)
        if kind = 10 then dropRecvRecs (fun k => decide (k.peer.toNat = da) && decide (k.peerEp = h.srcEp.toNat)) d else d

/-- A strand addressed to the own DA is refused inside the device (R214). -/
def refusedSelf (cid cause status : Nat) (d : Dev) : Dev :=
  if cause = 5 ∨ cause = 1 then contentNotReady cid d
  else
    let owned := (content? d cid).bind (·.op)
    let d := dropContent cid d
    match owned with
    | some o => opEnd o status d
    | none => d

/-! ### The target's checks (R120) -/

/-- May a strand begin or go on in the state of its endpoint (R60, R120 steps 2 and 3). -/
def targetBody (rx : Rx) (x : Ep) (d : Dev) : Dev :=
  let h := rx.st.hdr
  let e := h.dstEp.toNat
  if x.state = .reset ∨ (x.state = .draining ∧ msgOf d h = none) then refuseNotReady rx d
  else
    match openMsg h d with
    | none => refuseNotReady rx d
    | some d =>
      if x.state = .error then refuse rx 0x26 d
      else if ((blockOf d e).map (·.job)) ≠ some h.job.toNat then refuseJob rx (raise (srcWin 7 5) d)
      else if kindBroken h then
        (if h.kind = 0 ∨ h.kind = 8 then refuse rx 0x26 d else refuseRequest rx 0x26 d)
      else
        match h.kind.toNat, h.op.toNat with
        | 0, 0x08 => sendTarget rx d
        | 0, 0x09 => tagTarget rx (postAll 4096 e d)
        | 0, 0x0A => tagTarget rx (postAll 4096 e d)
        | 0, 0x0C => rndvDone rx d
        | 0, _ => writeTarget rx d
        | 8, 2 => armFireTarget rx d
        | 8, _ => stepDataTarget rx d
        | _, _ => requestTarget rx d

/-- An accepted strand of a request KIND: steps 1 and 2 of R120, then the rest (R90) (DEDUCED, log 13). -/
def targetGo (rx : Rx) (d : Dev) : Dev :=
  let e := rx.st.hdr.dstEp.toNat
  match ep? d e with
  | none => epGone rx d
  | some x =>
    let d := updEp e (fun x => { x with used := d.clk }) d
    if !x.resident then contextFetch e (park rx .context d) else targetBody rx x d

/-- An accepted strand, by its KIND (R243, R244). -/
def acceptedGo (rx : Rx) (d : Dev) : Dev :=
  let h := rx.st.hdr
  let k := h.kind.toNat
  if h.trim ∧ h.len ≠ 0 then (if k = 5 then readResend rx d else trimNotice rx d)
  else
    let d := if kindBroken h then countMalformed d else d
    match k with
    | 2 => noticeArrive rx d
    | 3 => noticeArrive rx d
    | 10 => noticeArrive rx d
    | 5 => if kindBroken h then settle rx d else if h.op = 0x10 then atomicRsp rx d else readRsp rx d
    | 7 => if h.vn then (if kindBroken h then settle rx d else lockRsp rx d) else targetGo rx d
    | _ => targetGo rx d

/-- Parked strands of an endpoint are examined again, in the order in which they were parked (R90, R156,
R191, R237) (DEDUCED, log 85). -/
def unpark (e : Nat) (d : Dev) : Dev :=
  if ((ep? d e).map (fun x => x.resident)) = some false then d
  else
    let (ps, rest) := d.ept.parked.partition (fun p => decide (p.rx.st.hdr.dstEp.toNat = e))
    ps.foldl (fun d p => targetGo p.rx d) (updEpt (fun x => { x with parked := rest }) d)

/-- A parked strand's time is over (R90, R156): it is refused as not ready where its context has not come,
else trimmed. False where it is not parked (DEDUCED, log 16). -/
def parkExpire (context : Bool) (st : Strand) (d : Dev) : Dev :=
  match d.ept.parked.find? (fun p => decide (p.rx.st = st) && ((p.why == .context) == context)) with
  | none => d
  | some p =>
    let d := updEpt (fun x => { x with parked := x.parked.filter (fun q => !decide (q.rx = p.rx)) }) d
    if context then refuseNotReady p.rx d else trimNotice p.rx d

/-! ### Restart of a pair (R219, R232) -/

/-- An operation that no strand has been sent of goes back to wait for an MSN. -/
def opRewind (i : Nat) (d : Dev) : Dev :=
  let cids := d.xp.contents.filter (fun p => decide (p.2.op = some i))
  let st := ((cids.head?).map (fun p => p.2.hdr.opwf 48 8)).getD 0
  let d := unqueue (cids.map (·.1)) d
  let d := updXp (fun x => { x with contents := x.contents.filter (fun p => decide (p.2.op ≠ some i)) }) d
  updOp i (fun o => { o with state := .waiting, parts := [], left := 0, localStatus := if o.code = 0x0C then st else o.localStatus }) d

/-- The operations of a peer in the order in which they complete: those of each stream in MSN order, then the
others. -/
def peerOps (d : Dev) (da : Nat) : List Nat :=
  let ordered := ((d.xp.sendRecs.filter (fun p => decide (p.1.peer.toNat = da))).map (fun p => p.2.order)).flatten
  let all := (d.xp.ops.filter (fun p => decide (p.2.dst = da) && p.2.code != 0x28 && p.2.code != 0 && p.2.state == .running)).map (·.1)
  ordered ++ all.filter (fun i => !ordered.contains i)

/-- The operations of a peer end or are rewound (R219, step 1; R232). `all`: those not sent end too. The
numbers of the rewound ones come with the device. -/
def restartOps (da : Nat) (all : Bool) (d : Dev) : List Nat × Dev :=
  (peerOps d da).foldl (fun (x : List Nat × Dev) i =>
    match op? x.2 i with
    | none => x
    | some o =>
      if o.state = .met then (x.1, push (.opMet i) x.2)
      else if o.state = .running then
        (if all || o.begun then (x.1, opEnd i 0x30 x.2) else (x.1 ++ [i], opRewind i x.2))
      else x) ([], d)

/-- Is a content an endpoint-gone notice that answers nothing (R63). -/
def plainGone (c : Content) : Bool := c.hdr.kind == 10 && c.refuses.isNone

/-- Unexpected rendezvous of a peer end (R161). -/
def dropRts (da : Nat) (d : Dev) : Dev :=
  (d.mt.msgs.filter (fun p => p.2.rndv && p.2.recv.isNone && decide (p.2.hdr.srcDa.toNat = da))).foldl (fun d p =>
    entryGone p.2.ep (updMctx p.2.ep (fun c => { c with unexp := c.unexp.filter (· != p.1) }) (dropTag p.1 d))) d

/-- A restart of the pair with a peer (R219). `adopt`: it comes from the adoption of a generation; `gone`:
the peer is declared unreachable (R232). -/
def restartPair (da : Nat) (adopt gone : Bool) (d : Dev) : Dev :=
  let (again, d) := restartOps da gone d
  let keep (p : Nat × Content) : Bool := decide (p.2.hdr.dstDa.toNat ≠ da) || (!gone && plainGone p.2 && !p.2.sent)
  let kept := d.xp.contents.filter keep
  let ids := kept.map (·.1)
  let half (s : SendHalf) : SendHalf :=
    { rateStart d s with next := 0, unacked := [], queue := s.queue.filter (fun q => ids.contains q.cid), floorSince := none, floorRaised := false }
  let d := updXp (fun x => { x with
    contents := kept
    backoff := x.backoff.filter ids.contains
    trimmed := x.trimmed.filter ids.contains
    held := x.held.filter (fun q => ids.contains q.cid)
    retained := x.retained.filter (fun r => r.peer != da) }) d
  let d := updEpt (fun x => { x with parked := x.parked.filter (fun p => p.rx.self.isSome || decide (p.rx.st.hdr.srcDa.toNat ≠ da)) }) d
  let d := dropRecvRecs (fun k => decide (k.peer.toNat = da)) d
  let d := updXp (fun x => { x with sendRecs := x.sendRecs.filter (fun p => decide (p.1.peer.toNat ≠ da)) }) d
  let d := dropRts da (collPeerLost da (lockLose (fun a _ => decide (a = da)) d))
  let d := updClasp (fun c => { c with held := c.held.filter (fun p => decide (p.2.1 ≠ da)) }) d
  let d := updPeer da (fun p =>
    let p := if p.state = .closed then p else
      { p with txGen := p.txGen.map (fun g => (g + 1) % 256), req := half p.req, rsp := half p.rsp }
    if adopt then { p with rxReq := { p.rxReq with window := false }, rxRsp := { p.rxRsp with window := false } }
    else { p with rxReq := {}, rxRsp := {} }) d
  let d := raise (srcWin 11 3) d
  again.foldl (fun d i => startOp i d) d

/-- A peer is declared unreachable (R232). -/
def peerGone (da : Nat) (d : Dev) : Dev :=
  if (peer d da).state = .unreachable then d
  else raise (srcWin 11 5) (updPeer da (fun p => { p with state := .unreachable }) (restartPair da false true d))

/-! ### Arrival (R217, R244) -/

/-- Counts a discarded strand (R217). -/
def discardStrand (d : Dev) : Dev := updXp (fun x => { x with discards := x.discards + 1 }) d

/-- Answers a duplicate of an executed ATOMIC or LOCK request with the retained result (R131): its response is
sent again under its BSN, if it has been sent and does not wait to be (DEDUCED, log 39). -/
def answerAgain (da : Nat) (vn : Bool) (bsn : Nat) (d : Dev) : Dev :=
  match d.xp.retained.find? (fun r => decide (r.peer = da) && (r.vn == vn) && decide (r.bsn = bsn)) with
  | none => d
  | some r =>
    let s := sendHalf (peer d da) true
    match s.unacked.find? (fun u => decide (u.cid = r.cid)), content? d r.cid with
    | some u, some c =>
      if s.queue.any (fun q => decide (q.cid = r.cid)) then d
      else enqueue da true { cid := r.cid, data := c.src.chunks, bsn := some u.bsn } d
    | _, _ => d

/-- A duplicate draws an ACK at once, which names it if it is not settled (R217, R227, R242). -/
def duplicate (h : Hdr) (d : Dev) : Dev :=
  let da := h.srcDa.toNat
  let vn := vnOf h
  let held := (recvHalf (peer d da) vn).held.contains h.bsn.toNat
  answerAgain da vn h.bsn.toNat (sendAck da vn (hpOf d h.dstEp.toNat) true (if held then some h.bsn.toNat else none) d)

/-- Accepts a strand that passed R217 and handles it. -/
def takeStrand (st : Strand) (d : Dev) : Dev :=
  match acceptStrand st.hdr d with
  | none => windowExhausted d
  | some d => acceptedGo { st := st, t0 := d.clk } d

/-- A strand that is not MGMT reaches the transport (R244). Once PFAIL# is taken nothing more is placed or
acknowledged (R484) (DEDUCED, log 13; DEDUCED, log 16). -/
def xportRx (st : Strand) (d : Dev) : Dev :=
  let h := st.hdr
  let da := h.srcDa.toNat
  if strandBad st then countMalformed d
  else if h.kind = 1 then ackArrive h d
  else if frozen d then d
  else if !seqStrand h then
    (if (peer d da).state = .opened ∧ (peer d da).txGen = some h.bgen.toNat then restartPair da false false d else genDrop d)
  else
    match classify d h with
    | .discard => discardStrand (landAcct 1 st d)
    | .resync => sendResync h (discardStrand (landAcct 1 st d))
    | .adopt =>
      let was := (recvHalf (peer d da) (vnOf h)).synced
      let d := if was then restartPair da true false d else d
      takeStrand st (adoptGen da h.bgen.toNat d)
    | .duplicate => duplicate h (landAcct 1 st d)
    | .far => discardStrand (landAcct 1 st d)
    | .accept => takeStrand st d

/-! ### Release (R235) -/

/-- Carries out the side effects of a released message (R123, R151, R163, R235, R240). -/
def releaseMsg (m : RxMsg) (d : Dev) : Dev :=
  let h := m.hdr
  let e := h.dstEp.toNat
  if m.failed then updXp (fun x => { x with failedMsgs := x.failedMsgs + 1 }) d
  else
    let n := m.total.getD 0
    let ok := b2n m.poison
    if h.kind ≠ 0 then d
    else
      match h.op.toNat with
      | 0x02 =>
        recvComplete e { entry d e true 0x02 ok with
          noIndex := true, bytes := n, dataValid := true, data := h.opwf 0 32 + h.srcEp.toNat * 2 ^ 32, srcDa := h.srcDa.toNat } d
      | 0x04 => cntAdd (h.opwf 0 18) (h.opwf 18 14) d
      | 0x08 =>
        match m.recv with
        | none => d
        | some r =>
          let most := dLen r.desc
          let imm := bitOf h.addr.toNat 32
          recvComplete e { entry d e true 0x40 (if most < n then 0x40 else ok) with
            ringIndex := recvIndex d e r.pos, bytes := min n most, dataValid := true
            data := (if imm then h.opwf 0 32 else 0) + h.srcEp.toNat * 2 ^ 32 + b2n imm * 2 ^ 52, srcDa := h.srcDa.toNat } d
      | _ =>
        match m.tagged with
        | some mid => tagReleased mid d
        | none => d

end Sys2Proof.Machine
end

