-- ==== Sys2Proof/Machine/Router.lean ====
section
/-! DEFINITION. The router core: cells and admission, candidates and their costs, the decision, output and
landing queues, injection, trims by age (R271 to R299). -/

namespace Sys2Proof.Machine

/-! ### Cells (R272, R273) -/

/-- Cells of the general pool and of the header reserve. -/
def generalCells : Nat := 704512
def reserveCells : Nat := 16384

/-- Free cells of the general pool. -/
def freeCells (d : Dev) : Nat := generalCells - d.rtr.generalUsed

/-- Commits cells of the general pool. -/
def takeGeneral (n : Nat) (d : Dev) : Dev := updRtr (fun r => { r with generalUsed := r.generalUsed + n }) d

/-- Commits one cell of the header reserve. -/
def takeReserve (d : Dev) : Dev :=
  updRtr (fun r => { r with reserveUsed := r.reserveUsed + 1, peak := max r.peak (r.reserveUsed + 1) }) d

/-- Returns `n` of an entry's cells to their pool. -/
def freeOf (e : QEnt) (n : Nat) (d : Dev) : Dev :=
  if e.general then updRtr (fun r => { r with generalUsed := r.generalUsed - n }) d
  else updRtr (fun r => { r with reserveUsed := r.reserveUsed - n }) d

/-- A new number of a strand in the Hearth. -/
def newId (d : Dev) : Nat × Dev := (d.rtr.nextId, updRtr (fun r => { r with nextId := r.nextId + 1 }) d)

/-- Trims an entry: its payload goes and its header keeps one cell (R249, R282). -/
def trimEnt (e : QEnt) (d : Dev) : QEnt × Dev :=
  if e.st.hdr.trim then (e, d)
  else ({ e with st := e.st.trim, whole := true, cells := 1 }, freeOf e (e.cells - 1) d)

/-- Admission of a strand from a fabric port or a replay buffer (R272, R273): the entry, trimmed if its cells
are not free, and whether it was trimmed here; none if not even the reserve has a cell. -/
def admission (e : QEnt) (d : Dev) : Option (QEnt × Bool × Dev) :=
  let c := cellsOf e.st.hdr
  if c ≤ freeCells d then some ({ e with cells := c, general := true }, false, takeGeneral c d)
  else
    let t : QEnt := if e.st.hdr.trim then e else { e with st := e.st.trim, whole := true }
    if 1 ≤ freeCells d then some ({ t with cells := 1, general := true }, !e.st.hdr.trim, takeGeneral 1 d)
    else if d.rtr.reserveUsed < reserveCells then
      some ({ t with cells := 1, general := false }, !e.st.hdr.trim, takeReserve d)
    else none

/-! ### Candidates (R276 to R281) -/

/-- The group and member of the device itself. -/
def ownGroup (d : Dev) : Nat := d.rtr.da / 64
def ownMember (d : Dev) : Nat := d.rtr.da % 64

/-- Position of an entry in the tables: version, group or member table, index (R276). -/
def routeGet (d : Dev) (ver table ix : Nat) : Nat :=
  if table = 0 then (mget d.rtr.group (ver * 2048 + ix)).getD 0 else (mget d.rtr.member (ver * 64 + ix)).getD 0

/-- The table and index that route a destination (R276). -/
def routeIx (d : Dev) (da : Nat) : Nat × Nat := if da / 64 ≠ ownGroup d then (0, da / 64) else (1, da % 64)

/-- The entry that routes a header (R276). -/
def routeEntry (d : Dev) (h : Hdr) : Nat :=
  let (t, i) := routeIx d h.dstDa.toNat
  routeGet d (b2n h.epoch) t i

/-- Is a port LEARNING or ACTIVE with role LOCAL or GLOBAL (R279) (DEDUCED, log 51). -/
def portRoutes (p : Port) : Bool := decide (p.role < 2) && (p.state == 1 || p.state == 2)

/-- The ports of the trunk of a port, itself among them (R28) (DEDUCED, log 51). -/
def trunkOf (d : Dev) (n : Nat) : List Nat :=
  match (port d n).neighbour with
  | none => [n]
  | some (da, _) =>
    if 2 ≤ (port d n).role then [n]
    else (d.ports.filter (fun p => decide (p.2.role < 2) && decide (p.2.neighbour.map (·.1) = some da))).map (·.1)

/-- The lowest port number of a port's trunk (R279, RIN.PORT.TRUNK). -/
def trunkNo (d : Dev) (n : Nat) : Nat := (trunkOf d n).foldl min n

/-- Depth of a queue of a port in cells; the strand chosen but not begun still counts (R302). -/
def portDepth (d : Dev) (n q : Nat) : Nat :=
  let p := port d n
  qCells (p.out.q q) + (match p.txNext with | some e => if queueOf e.st.hdr = q then e.cells else 0 | none => 0)

/-- The usable candidates of an entry, in its order: entry position and the LEARNING or ACTIVE members (R279). -/
def usable (d : Dev) (entry : Nat) (arr : Option Nat) : List (Nat × List Nat) :=
  let away : List Nat := match arr with | none => [] | some a => a :: trunkOf d a
  ((List.range 8).foldl (fun (x : List (Nat × List Nat) × List Nat) i =>
    let b := bitsOf entry (8 * i) 8
    let p := b % 128
    if !bitOf b 7 || !portRoutes (port d p) || away.contains p || x.2.contains p then x
    else
      let t := trunkOf d p
      (x.1 ++ [(i, t.filter (fun m => portRoutes (port d m)))], x.2 ++ t)) ([], [])).1

/-- A candidate: its entry position, the member that carries the strand by depth and by hash, its depth, cost,
whether it is above its threshold, and whether a member is LEARNING (R279, R281). -/
structure Cand where
  ix : Nat
  port : Nat
  byHash : Nat
  depth : Nat
  cost : Nat
  above : Bool
  hashAbove : Bool
  learning : Bool
deriving DecidableEq, Repr, Inhabited

/-- The threshold of a port's queue in cells. -/
def deflTh (d : Dev) (p q : Nat) : Nat := 16 * fld d (OSCH p + 0x0A0 + 4 * q) 0 12

/-- The hash of R281. -/
def pathHash (d : Dev) (h : Hdr) : Nat :=
  (h.entropy.toNat ^^^ (h.dstDa.toNat % 65536)) ^^^ ((h.srcDa.toNat % 65536) ^^^ fld d (RTR + 0x030) 16 16)

/-- A candidate of a list of `n`, with hash `hh`, for queue `q` (R279, R281). -/
def mkCand (d : Dev) (q hh n : Nat) (c : Nat × List Nat) : Cand :=
  let ms := c.2
  let depth := (ms.map (fun p => portDepth d p q)).foldl min (portDepth d (ms.headD 0) q)
  let least := ms.filter (fun p => decide (portDepth d p q = depth))
  let k := hh / n
  let p := lget least (k % least.length) 0
  let b := lget ms (k % ms.length) 0
  let lvl := if 4 ≤ q then (port d p).hintRsp else (port d p).hintReq
  { ix := c.1, port := p, byHash := b, depth := depth
    cost := depth / 16 + fld d (RTR + 0x030) 0 5 * lvl + (if (port d p).dimmed then fld d (RTR + 0x030) 8 8 else 0)
    above := decide (deflTh d p q ≤ depth), hashAbove := decide (deflTh d b q ≤ depth)
    learning := ms.any (fun m => (port d m).state == 1) }

/-- The usable minimal and non-minimal candidates of a header (R277, R279) (DEDUCED, log 51). -/
def cands (d : Dev) (h : Hdr) (arr : Option Nat) : List Cand × List Cand :=
  let us := usable d (routeEntry d h) arr
  let (ms, xs) := us.partition (fun c => decide (c.1 < 4))
  let mk (l : List (Nat × List Nat)) : List Cand := l.map (mkCand d (queueOf h) (pathHash d h) l.length)
  (mk ms, mk xs)

/-- The candidate of least cost; ties go to the earlier one (R281, R284) (DEDUCED, log 51). -/
def leastCost : List Cand → Option Cand
  | [] => none
  | c :: cs => some (cs.foldl (fun best x => if x.cost < best.cost then x else best) c)

/-- The preferred candidate (R281): its position, its port and whether it is above its threshold. -/
def preferred (d : Dev) (h : Hdr) (m : List Cand) : Option (Nat × Nat × Bool) :=
  if h.det || m.any (·.learning) then
    (m[pathHash d h % m.length]?).map (fun c => (c.ix, c.byHash, c.hashAbove))
  else (leastCost m).map (fun c => (c.ix, c.port, c.above))

/-- What becomes of a strand (R284). -/
inductive Decision where
  | noRoute
  | send (p : Nat)
  | deflect (p : Nat)
  | trim (p : Nat) (ttl : Bool)
deriving DecidableEq, Repr, Inhabited

/-- The routing decision for a strand that is not addressed to this device (R284). -/
def decide284 (d : Dev) (h : Hdr) (arr : Option Nat) : Decision :=
  let (m, x) := cands d h arr
  let p := preferred d h m
  if h.trim then (match p with | none => .noRoute | some (_, n, _) => .send n)
  else if arr.isSome ∧ h.ttl = 0 then (match p with | none => .noRoute | some (_, n, _) => .trim n true)
  else
    match p with
    | some (_, n, false) => .send n
    | _ =>
      let alt := (m ++ x).filter (fun c => decide (p.map (·.1) ≠ some c.ix) && !c.above)
      match (if h.defl.toNat < 3 then leastCost alt else none) with
      | some c => .deflect c.port
      | none => match p with | none => .noRoute | some (_, n, _) => .trim n false

/-! ### Queues -/

/-- Enters an entry in an output queue of a port, marking it (R247). -/
def enterQueue (n q : Nat) (e : QEnt) (d : Dev) : Dev :=
  let a := OSCH n + 0x080 + 4 * q
  let p := port d n
  let (st, l) := markStrand p.lfsr (portDepth d n q) (fld d a 0 12) (fld d a 12 12) (fld d a 24 8) e.st
  let e := { e with st := st, t0 := d.clk }
  let out := p.out.timedEnter (fld d (OSCH n + 0x028) 0 4) (fld d (CONG + 0x02C) 16 4) q e
  updPort n (fun p => { p with lfsr := l, out := out }) d

/-- Enters an entry in its output queue of a port (R53). -/
def enterOut (n : Nat) (e : QEnt) (d : Dev) : Dev := enterQueue n (queueOf e.st.hdr) e d

/-- The marking thresholds of a landing queue (R541) (DEDUCED, log 50). -/
def landMark (hp : HostPort) (q : Nat) : Nat × Nat × Nat := lget hp.mark q (16, 64, 64)

/-- Cells held by the landing queues of a host port. -/
def landCells (hp : HostPort) : Nat := sumOf (hp.land.qs.map qCells)

/-- A strand enters the landing queues of a host port: marked, then trimmed if they hold too much, in which
case its header goes to the transport at once (R275). -/
def landHost (hp : Nat) (e : QEnt) (d : Dev) : Dev :=
  let q := queueOf e.st.hdr
  let x := host d hp
  let (kmin, kmax, pmax) := landMark x q
  let (st, l) := markStrand x.lfsr (qCells (x.land.q q)) kmin kmax pmax e.st
  let e := { e with st := st, t0 := d.clk }
  let d := updHost hp (fun x => { x with lfsr := l }) d
  if 16 * fld d (RTR + 0x040 + 4 * hp) 0 16 ≤ landCells x ∧ st.hdr.len ≠ 0 ∧ st.hdr.trim = false then
    let d := hostAcct hp true 1 e.st.beads.length d
    let (e, d) := trimEnt e d
    xportRx e.st (freeOf e e.cells d)
  else updHost hp (fun x => { x with land := x.land.enter q e }) d

/-- A strand enters the landing queue it is for (R275) (DEDUCED, log 50). -/
def landStrand (e : QEnt) (d : Dev) : Dev :=
  if coreLanding d e.st.hdr then
    let q := queueOf e.st.hdr
    updRtr (fun r => { r with core := lset r.core q (lget r.core q [] ++ [{ e with t0 := d.clk }]) }) d
  else landHost ((blockOf d e.st.hdr.dstEp.toNat).elim 0 (fun b => b.f.hp.val)) e d

/-- Is an entry the whole of a strand (DEDUCED, log 50). -/
def isWhole (st : Strand) (e : QEnt) : Bool := e.whole && decide (e.st = st)

/-- Removes the first entry that satisfies a test (DEDUCED, log 50). -/
def takeFirst (p : QEnt → Bool) : List QEnt → Option QEnt × List QEnt
  | [] => (none, [])
  | e :: es => if p e then (some e, es) else let (r, l) := takeFirst p es; (r, e :: l)

/-- A strand leaves the landing queue that holds it, if one does, and its cells are free (DEDUCED, log 13). -/
def unland (st : Strand) (d : Dev) : Dev :=
  let q := queueOf st.hdr
  match takeFirst (isWhole st) (lget d.rtr.core q []) with
  | (some e, l) => freeOf e e.cells (updRtr (fun r => { r with core := lset r.core q l }) d)
  | _ =>
    match d.hosts.findSome? (fun p => match takeFirst (isWhole st) (p.2.land.q q) with | (some e, l) => some (p.1, e, l) | _ => none) with
    | none => d
    | some (hp, e, l) =>
      freeOf e e.cells (updHost hp (fun x => { x with land := { x.land with qs := lset x.land.qs q l }.tidy q }) d)

/-- A strand without a route (R283). -/
def noRoute (e : QEnt) (d : Dev) : Dev :=
  let d := match e.arr with | some a => count (RIN a + 0x118) d | none => d
  raise (srcWin 14 3) (freeOf e e.cells d)

/-- Routes an admitted strand and puts it into its queue (R275, R282, R284). -/
def routeEnt (e : QEnt) (d : Dev) : Dev :=
  let h := e.st.hdr
  if h.dstDa.toNat = d.rtr.da then landStrand e d
  else
    match decide284 d h (e.arr.map (·.val)) with
    | .noRoute => noRoute e d
    | .send p => enterOut p e d
    | .deflect p =>
      enterOut p { e with st := { e.st with hdr := { h with defl := h.defl + 1 } }, defl := true } (count (OSCH p + 0x300) d)
    | .trim p ttl =>
      let (e, d) := trimEnt e d
      enterOut p e (count (OSCH p + (if ttl then 0x310 else 0x308)) d)

/-- The header reserve has no cell for a strand of a port (R273, R293). -/
def notAdmitted (n : Nat) (d : Dev) : Dev := raise (srcWin 14 2) (count (RIN n + 0x108) d)

/-- A strand from a fabric port is admitted and routed (R271, R272); none if RIN does not admission it. Its number
in the Hearth comes with the device. -/
def fabricIn (n : PortNo) (st : Strand) (whole : Bool) (d : Dev) : Option (Nat × Dev) :=
  match admission { st := st, whole := whole, arr := some n, age := d.clk } d with
  | none => none
  | some (e, trimmed, d) =>
    let d := if trimmed then count (RIN n.val + 0x100) d else d
    let (id, d) := newId d
    some (id, routeEnt { e with id := id } d)

/-! ### Injection (R266, R274, R288) -/

/-- The scheduler of a host port's injection point chooses its next strand (R259, R541) (DEDUCED, log 81). -/
def injChoose (hp : Nat) (d : Dev) : Dev :=
  let x := host d hp
  if x.injNext.isSome then d
  else
    let (c, s) := choose (hostSched x) d.clk x.inj
    updHost hp (fun y => { y with inj := (match c with | some (q, _) => s.tidy q | none => s), injNext := c.map (·.2) }) d

/-- Puts a timed strand into its bin (R268). -/
def hostBin (hp : Nat) (e : QEnt) (d : Dev) : Dev :=
  if !e.timed then d
  else
    let b := delayBin (d.clk - e.t0)
    updHost hp (fun x => { x with hist := lset (padNat 16 x.hist) b ((lget x.hist b 0 + 1) % 2 ^ 48) }) d
where
  /-- The list made `n` long with zeros. -/
  padNat (n : Nat) (l : List Nat) : List Nat := l ++ List.replicate (n - l.length) 0

/-- The strand that waits at a host port's injection point is admitted if the general pool has its cells
(R274) (DEDUCED, log 81). -/
def injectAdmit (hp : Nat) (d : Dev) : Dev :=
  match (host d hp).injNext with
  | none => d
  | some e =>
    let c := cellsOf e.st.hdr
    if freeCells d < c then d
    else
      let d := hostBin hp e (updHost hp (fun x => { x with injNext := none }) d)
      let d := hostAcct hp false (b2n e.again) (1 + e.st.beads.length) d
      let (id, d) := newId d
      routeEnt { e with id := id, cells := c, general := true, arr := none, age := d.clk, timed := false, whole := true } (takeGeneral c d)

/-! ### The scheduler of a fabric port (R259) -/

/-- The scheduler configuration of a fabric port (OSCH registers). -/
def portSched (d : Dev) (n : Nat) : SchedCfg :=
  { weight := (List.range 8).map (fun q => fld d (OSCH n + 0x040 + 8 * q) 0 8), overhead := fld d (OSCH n + 0x020) 28 8 }

/-- The scheduler chooses the strand a port sends next (DEDUCED, log 81). -/
def portChoose (n : Nat) (d : Dev) : Dev :=
  let p := port d n
  if p.txNext.isSome ∨ p.state = 0 then d
  else
    let (c, s) := choose (portSched d n) d.clk p.out
    updPort n (fun p => { p with out := (match c with | some (q, _) => s.tidy q | none => s), txNext := c.map (·.2) }) d

/-! ### Age (R286) -/

/-- Takes element `i` of a list out. -/
def takeAt {α : Type} (l : List α) (i : Nat) : Option α × List α := (l[i]?, l.take i ++ l.drop (i + 1))

/-- A strand that has waited AGE_LIMIT in an output queue is trimmed in place; position 0 is the strand the
scheduler chose, if it is of the queue (DEDUCED, log 54; DEDUCED, log 81). -/
def ageOut (n q pos : Nat) (d : Dev) : Dev :=
  let p := port d n
  let first : Bool := match p.txNext with | some e => decide (queueOf e.st.hdr = q) | none => false
  if first = true ∧ pos = 0 then
    match p.txNext with
    | none => d
    | some e =>
      if e.st.hdr.trim then d
      else
        let (e, d) := trimEnt e d
        count (OSCH n + 0x318) (updPort n (fun p => { p with txNext := some e }) d)
  else
    match takeAt (p.out.q q) (pos - b2n first) with
    | (some e, l) =>
      if e.st.hdr.trim then d
      else
        let (e, d) := trimEnt e d
        let out := ({ p.out with qs := lset p.out.qs q l }.tidy q).enter (queueOf e.st.hdr) e
        count (OSCH n + 0x318) (updPort n (fun p => { p with out := out }) d)
    | (none, _) => d

/-- The same in a landing queue of a host port. -/
def ageLand (hp q pos : Nat) (d : Dev) : Dev :=
  match takeAt ((host d hp).land.q q) pos with
  | (some e, l) =>
    if e.st.hdr.trim then d
    else
      let d := hostAcct hp true 1 e.st.beads.length d
      let (e, d) := trimEnt e d
      updHost hp (fun x =>
        { x with land := ({ x.land with qs := lset x.land.qs q l }.tidy q).enter (queueOf e.st.hdr) e }) d
  | (none, _) => d

/-! ### Measurement (R267) -/

/-- Every queue is observed, every 10 ns (R267): cells of output queues, beads of injection queues (DEDUCED, log 82). -/
def observeDepths (d : Dev) : Dev :=
  let add (s : Sched) (v : Nat → Nat) : Sched :=
    { s with samples := (List.range 8).map (fun q => lget s.samples q [] ++ [v q]) }
  let d := d.ports.foldl (fun d x => updPort x.1 (fun p => { p with out := add p.out (portDepth d x.1) }) d) d
  d.hosts.foldl (fun d x => updHost x.1 (fun h => { h with inj := add h.inj (fun q => qBeads (h.inj.q q)) }) d) d

/-- The least, truncated mean and largest of a queue's observations; its depth now where there is none. -/
def latchOf (s : Sched) (q now : Nat) : Nat × Nat × Nat :=
  match lget s.samples q [] with | [] => (now, now, now) | l => triple l

/-- The end of a sample period (R267): the observations are latched, of fabric ports in OSCH.QDEPTH (DEDUCED, log 82). -/
def depthSample (d : Dev) : Dev :=
  let clear (s : Sched) : Sched := { s with samples := List.replicate 8 [] }
  let d := d.ports.foldl (fun d x =>
    let d := (List.range 8).foldl (fun d q =>
      let (a, m, b) := latchOf x.2.out q (portDepth d x.1 q)
      setReg (OSCH x.1 + 0x100 + 8 * q) (BitVec.ofNat 64 (a + m * 2 ^ 20 + b * 2 ^ 40)) d) d
    updPort x.1 (fun p => { p with out := clear p.out }) d) d
  d.hosts.foldl (fun d x =>
    updHost x.1 (fun h =>
      { h with depth := (List.range 8).map (fun q => latchOf h.inj q (qBeads (h.inj.q q))), inj := clear h.inj }) d) d

/-! ### Route images (R290, R291) -/

/-- The entries of a route image body. -/
def imageEntry (img : Bytes) (k : Nat) : Nat := leAt img (64 + 8 * k) 8

/-- Is a candidate byte of an entry wrong, or one port named twice (R277, R291 check 7). -/
def entryBad (e : Nat) : Bool :=
  let bs := (List.range 8).map (fun i => bitsOf e (8 * i) 8)
  let ports := bs.filter (fun b => decide (128 ≤ b))
  bs.any (fun b => decide (b < 128) && b != 0) || !decide ports.Nodup

/-- Has an entry a candidate (R291 check 8). -/
def entryHas (e : Nat) : Bool := (List.range 8).any (fun i => bitOf e (8 * i + 7))

/-- Is an entry one of the own group or the own member. -/
def ownEntry (d : Dev) (table ix : Nat) : Bool :=
  if table = 0 then decide (ix = ownGroup d) else decide (ix = ownMember d)

/-- Checks 1 to 8 of R291 on an image: the reason of the first that fails. `img` is none when its read failed. -/
def imageReason (d : Dev) (ver len : Nat) (allow : Bool) (img : Option Bytes) : Option Nat :=
  if decide (ver = b2n d.rtr.inj) && !allow then some 0x1810
  else
    match img with
    | none => some 0x1811
    | some b =>
      let gf := leAt b 16 2
      let gc := leAt b 18 2
      let mf := leAt b 20 1
      let mc := leAt b 21 1
      let gs := (List.range gc).map (fun k => (0, gf + k, imageEntry b k))
      let ms := (List.range mc).map (fun k => (1, mf + k, imageEntry b (gc + k)))
      if leAt b 0 4 ≠ 0x54525A44 then some 0x1811
      else if leAt b 4 2 ≠ 1 ∨ 2 ≤ leAt b 6 1 ∨ leAt b 7 1 ≠ 0 ∨ leAt b 22 2 ≠ 0 ∨ !allZero (slice b 36 28) ∨ 2 ^ 17 ≤ leAt b 8 4 then
        some 0x1812
      else if bitsOf (leAt b 8 4) 0 17 ≠ d.rtr.da ∨ d.rtr.daValid = false then some 0x1813
      else if gc + mc = 0 ∨ 2048 < gf + gc ∨ 64 < mf + mc ∨ len ≠ 64 + 8 * (gc + mc) then some 0x1814
      else if leAt b 32 4 ≠ (crc32 (b.drop 64)).toNat then some 0x1815
      else if (gs ++ ms).any (fun e => entryBad e.2.2) then some 0x1816
      else if (gs ++ ms).any (fun e => ownEntry d e.1 e.2.1 && entryHas e.2.2) then some 0x1817
      else none

/-- Writes one entry into a version; LOADED is set (R287). -/
def routePut (ver table ix e : Nat) (d : Dev) : Dev :=
  let k := if table = 0 then ver * 2048 + ix else ver * 64 + ix
  let put (m : List (Nat × Nat)) : List (Nat × Nat) := if e = 0 then mdel m k else mset m k e
  let d := updRtr (fun r => if table = 0 then { r with group := put r.group } else { r with member := put r.member }) d
  updRtr (fun r => if ver = 0 then { r with loadedA := true } else { r with loadedB := true }) d

/-- Writes a checked image into a version (R290). -/
def imagePut (ver : Nat) (b : Bytes) (d : Dev) : Dev :=
  let gc := leAt b 18 2
  let rest := bitOf (leAt b 6 1) 0
  let d := if rest then updRtr (fun r =>
      { r with group := r.group.filter (fun p => decide (p.1 / 2048 ≠ ver)), member := r.member.filter (fun p => decide (p.1 / 64 ≠ ver)) }) d
    else d
  let d := (List.range gc).foldl (fun d k => routePut ver 0 (leAt b 16 2 + k) (imageEntry b k) d) d
  let d := (List.range (leAt b 21 1)).foldl (fun d k => routePut ver 1 (leAt b 20 1 + k) (imageEntry b (gc + k)) d) d
  setReg (RTR + 0x028 + 4 * ver) (BitVec.ofNat 64 (leAt b 12 4)) d

end Sys2Proof.Machine
end

