-- ==== Sys2Proof/Machine/Link.lean ====
section
/-! DEFINITION. The link layer of a fabric port (R300 to R316): transmission and replay, receiving, link
acknowledgements, leaving service with the rescue of what the port held (R292, R293), and health. -/

namespace Sys2Proof.Machine

/-! ### Frames and slots -/

/-- Sends a service frame (R324). A fenced device sends none (R520). -/
def sendFrame (n : Nat) (typ : Nat) (body : Bytes) (d : Dev) : Dev :=
  if d.flt.fatal.isSome then d else
  let t := BitVec.ofNat 8 typ
  emit (.frame (portNo n) ⟨t, body, crc16 (t :: body), false⟩) d

/-- The length of a bead slot in 1/100 ns (R317). -/
def slotLen (l : Lane) : Int := 132 * (if l.half then 2 else 1) * (if l.lanes = 3 then 1 else 2)

/-- Puts a slot of a fabric port down to a class of OSCH.ACCT (R531). -/
def acct (n k : Nat) (d : Dev) : Dev :=
  count (OSCH n + 0x340 + 8 * k) (updLink n (fun l => { l with slot := l.slot + slotLen (port d n).lane }) d)

/-- Is a bead stomped (R41). -/
def isStomped (b : Bead) : Bool := b.classify == .stomped

/-- Sends a bead of a strand on a port, counts it stomped if it is, and accounts for its slot. -/
def sendBead (n : Nat) (b : Bead) (wasted : Bool) (d : Dev) : Dev :=
  let d := emit (.bead (portNo n) b) d
  let st := isStomped b
  acct n (if wasted || st then 1 else 0) (if st then count (LINK n + 0x130) d else d)

/-! ### Transmission (R301, R302) -/

/-- Beads of the replay buffer that an entry takes. -/
def repBeads (e : RepEnt) : Nat := if e.closed then e.ent.st.allBeads.length else cellsOf e.hdr

/-- Beads held in the replay buffer (LINK.REPLAY.BEADS). -/
def heldBeads (l : Link) : Nat := sumOf (l.rep.map repBeads)

/-- Changes the open entry of a replay buffer. -/
def updOpen (g : RepEnt → RepEnt) (l : Link) : Link :=
  { l with rep := l.rep.map (fun e => if e.closed then e else g e) }

/-- The last bead of the open strand has been sent. -/
def closeOpen (n : Nat) (d : Dev) : Dev :=
  match (port d n).link.rep.find? (fun e => !e.closed) with
  | none => d
  | some e =>
    freeOf e.ent e.ent.cells (updLink n (fun l =>
      { updOpen (fun x => { x with closed := true, tLast := d.clk, ent := { x.ent with cells := 0, whole := true } }) l with
        txOpen := none }) d)

/-- A further bead of the strand that a port is sending (R271): its cell is free. -/
def sendMore (n : Nat) (b : Bead) (d : Dev) : Dev :=
  match (port d n).link.rep.find? (fun e => !e.closed) with
  | none => d
  | some e =>
    let d := sendBead n b e.ent.defl d
    let d := count (LINK n + 0x108) (freeOf e.ent (min 1 e.ent.cells) d)
    let d := updLink n (fun l =>
      { updOpen (fun x => { x with ent := { x.ent with cells := x.ent.cells - 1, st := { x.ent.st with beads := x.ent.st.beads ++ [b] } } }) l with
        firstBeads := l.firstBeads + 1 }) d
    if b.last then closeOpen n d else d

/-- The header bead of an entry, with the header it is sent with. -/
def headOf (e : QEnt) (h : Hdr) : Bead :=
  ⟨h.encode, mkTrailer true (h.trim || (e.whole && e.st.beads.isEmpty)) false e.st.crc⟩

/-- Puts a timed strand of a fabric port into its bin (R268). -/
def portBin (n : Nat) (e : QEnt) (d : Dev) : Dev :=
  if e.timed then count (OSCH n + 0x200 + 8 * delayBin (d.clk - e.t0)) d else d

/-- Are the data lanes of a port running. -/
def lanesUp (p : Port) : Bool := p.state != 0 && p.lane.phase == 5

/-- The transmitter begins the strand that the scheduler chose (R301, R302, R309 step 3, R313) (DEDUCED, log 81). -/
def transmitStart (n : Nat) (d : Dev) : Dev :=
  let p := port d n
  match p.txNext with
  | none => d
  | some e =>
    if !lanesUp p || p.link.txOpen.isSome || p.link.replaying then d
    else if 1489 < heldBeads p.link + cellsOf e.st.hdr then
      count (LINK n + 0x138) (acct n 3 (emit (.bead (portNo n) idleBead) d))
    else
      let lsn := p.link.nextLsn
      let h := { e.st.hdr with lsn := BitVec.ofNat 20 lsn, ttl := if e.st.hdr.ttl = 0 then 0 else e.st.hdr.ttl - 1 }
      let d := portBin n e (updPort n (fun p => { p with txNext := none }) d)
      let beads := if h.trim then [] else e.st.beads
      let k := 1 + beads.length
      let d := sendBead n (headOf e h) (e.defl || h.trim) d
      let d := beads.foldl (fun d b => sendBead n b e.defl d) d
      let d := countBy (LINK n + 0x108) k (count (LINK n + 0x100) (freeOf e (min k e.cells) d))
      let ent : RepEnt := { lsn := lsn, ent := { e with cells := e.cells - k, whole := false }, hdr := h }
      let d := updLink n (fun l =>
        { l with
          rep := l.rep ++ [ent]
          nextLsn := (lsn + 1) % 2 ^ 20
          txOpen := some e.id
          firstBeads := l.firstBeads + k }) d
      if e.whole then closeOpen n d else d

/-! ### Replay (R309, R313) -/

/-- Sends every unacknowledged strand again, oldest first (DEDUCED, log 55). -/
def replayNow (n : Nat) (d : Dev) : Dev :=
  let es := (port d n).link.rep
  let d := es.foldl (fun d e =>
    let bs := headOf e.ent e.hdr :: (if e.hdr.trim then [] else e.ent.st.beads)
    let d := bs.foldl (fun d b => sendBead n b true d) d
    countBy (LINK n + 0x110) bs.length (updLink n (fun l => { l with replayedBeads := l.replayedBeads + bs.length }) d)) d
  updLink n (fun l =>
    { l with rep := l.rep.map (fun e => { e with replayed := true }), replaying := !es.isEmpty, replayDue := false }) d

/-- A replay begins, or follows the strand that is being sent. -/
def replayStart (n : Nat) (d : Dev) : Dev :=
  if (port d n).link.txOpen.isSome then updLink n (fun l => { l with replayDue := true }) d else replayNow n d

/-- A replay that waited for a strand begins once it has been sent. -/
def replayFollow (n : Nat) (d : Dev) : Dev :=
  let l := (port d n).link
  if l.replayDue && l.txOpen.isNone && lanesUp (port d n) then replayNow n d else d

/-- The replay period T in ns (R309). -/
def replayPeriod (d : Dev) (n : Nat) : Nat :=
  max (fld d (LINK n + 0x020) 16 8 * 100) (2 * (port d n).link.rtt + fld d (LINK n + 0x020) 24 8 * 10)

/-! ### Link acknowledgements (R306, R308, R311) -/

/-- Sends a LINK_ACK frame (DEDUCED, log 55). -/
def linkAckSend (n : Nat) (d : Dev) : Dev :=
  let l := (port d n).link
  let hold := match l.lastAcc with | none => 1023 | some t => min 1023 ((d.clk - t) / 4)
  sendFrame n 1 (toLe 4 (l.expect + hold * 2 ^ 20)) (updLink n (fun l => { l with ackOn := false, accCount := 0 }) d)

/-- A strand is accepted for sequence (R303, rows 6 and 7; R306). -/
def linkAccept (n : Nat) (d : Dev) : Dev :=
  let d := updLink n (fun l =>
    { l with expect := (l.expect + 1) % 2 ^ 20, lastAcc := some d.clk, accCount := l.accCount + 1, ackOn := true }) d
  let d := count (LINK n + 0x118) d
  if fld d (LINK n + 0x020) 0 6 ≤ (port d n).link.accCount then linkAckSend n d else d

/-- A LINK_ACK frame arrives (R308, R311) (DEDUCED, log 55). -/
def linkAckIn (n : Nat) (body : Bytes) (d : Dev) : Dev :=
  let l := (port d n).link
  let v := leNat body
  let ack := bitsOf v 0 20
  let hold := bitsOf v 20 10
  let a := (ack + 2 ^ 20 - l.una) % 2 ^ 20
  let sent := (l.rep.filter (·.closed)).length
  if (port d n).state = 0 ∨ a = 0 then d
  else if sent < a then countErr (LINK n + 0x08C) 1 d
  else
    let sample : Option Nat :=
      match l.rep[a - 1]? with
      | some e => if hold = 1023 ∨ e.replayed then none else some (d.clk - e.tLast - 4 * hold)
      | none => none
    let least (o : Option Nat) : Option Nat := match sample, o with | some s, some x => some (min s x) | some s, none => some s | none, o => o
    let any := least l.rttAny
    updLink n (fun l =>
      { l with
        rep := l.rep.drop a, una := ack, streak := 0
        rttNow := least l.rttNow, rttAny := any
        rtt := if l.rttSeen then l.rtt else any.getD l.rtt }) d

/-- The end of a period of 65,536 ns (R311) (DEDUCED, log 6). -/
def rttPeriodEnd (n : Nat) (d : Dev) : Dev :=
  updLink n (fun l =>
    match l.rttNow with
    | none => l
    | some v => { l with rtt := v, rttSeen := true, rttNow := none }) d

/-! ### Strands under way in the device -/

/-- The port that is sending the strand with a number, if its transmission has begun and has not ended. -/
def sendingPort (d : Dev) (id : Nat) : Option Nat :=
  (d.ports.find? (fun p => p.2.link.rep.any (fun e => !e.closed && decide (e.ent.id = id)))).map (·.1)

/-- Applies a change to an entry that waits, wherever it is. -/
def updWaiting (id : Nat) (g : QEnt → QEnt) (d : Dev) : Dev :=
  let m (l : List QEnt) : List QEnt := l.map (fun e => if e.id = id ∧ e.whole = false then g e else e)
  let s (x : Sched) : Sched := { x with qs := x.qs.map m }
  { d with
    ports := mmap d.ports (fun _ p => { p with out := s p.out, txNext := p.txNext.map (fun e => if e.id = id ∧ e.whole = false then g e else e) })
    hosts := mmap d.hosts (fun _ h => { h with land := s h.land })
    rtr := { d.rtr with core := d.rtr.core.map m } }

/-- Every entry that waits in an output or landing queue. -/
def waitingEnts (d : Dev) : List QEnt :=
  (d.ports.map (fun p => p.2.txNext.toList ++ p.2.out.qs.flatten)).flatten
    ++ (d.hosts.map (fun h => h.2.land.qs.flatten)).flatten ++ d.rtr.core.flatten

/-- An incomplete strand that waits is dropped and its cells are free (R305). -/
def dropWaiting (id : Nat) (d : Dev) : Dev :=
  match (waitingEnts d).find? (fun e => decide (e.id = id) && !e.whole) with
  | none => d
  | some e =>
    let keep (l : List QEnt) : List QEnt := l.filter (fun x => !(decide (x.id = id) && !x.whole))
    let s (x : Sched) : Sched := (List.range 8).foldl Sched.tidy { x with qs := x.qs.map keep }
    freeOf e e.cells { d with
      ports := mmap d.ports (fun _ p => { p with out := s p.out, txNext := p.txNext.filter (fun x => !(decide (x.id = id) && !x.whole)) })
      hosts := mmap d.hosts (fun _ h => { h with land := s h.land })
      rtr := { d.rtr with core := d.rtr.core.map keep } }

/-- A bead of an arriving strand goes on: onto the link that is sending the strand, or to its cell; beads of a
strand that was trimmed or discarded are discarded (R271, R272). -/
def carryBead (id : Nat) (b : Bead) (d : Dev) : Dev :=
  match sendingPort d id with
  | some o => replayFollow o (sendMore o b d)
  | none => updWaiting id (fun e => { e with whole := b.last, st := { e.st with beads := e.st.beads ++ [b] } }) d

/-- A strand is cut short: an output that is sending it ends it with the end bead of R292; one that has not
begun drops it (DEDUCED, log 52). -/
def cutStrand (id : Nat) (d : Dev) : Dev :=
  match sendingPort d id with
  | some o => replayFollow o (sendMore o endBead d)
  | none => dropWaiting id d

/-! ### Receiving (R303 to R305) -/

/-- Row 1 of R303: a bad bead, or framing that breaks R38 (DEDUCED, log 52). -/
def badBead (n : Nat) (d : Dev) : Dev :=
  countErr (LINK n + 0x080) 1 (updLink n (fun l => { l with discard := true }) d)

/-- Sets the strand that a port is receiving. -/
def setCur (n : Nat) (c : Option RxCur) (d : Dev) : Dev := updLink n (fun l => { l with cur := c }) d

/-- The last bead of a strand has arrived: it is accepted for sequence unless a bead was bad. -/
def rxEnd (n : Nat) (d : Dev) : Dev :=
  let ok := ((port d n).link.cur.map (·.ok)).getD false
  let d := setCur n none d
  if ok then linkAccept n d else d

/-- A good or stomped header bead (R303, rows 2 to 7) (DEDUCED, log 52). -/
def headIn (n : PortNo) (b : Bead) (d : Dev) : Dev :=
  let l := (port d n).link
  let h := Hdr.decode b.content
  let dd := (h.lsn.toNat + 2 ^ 20 - l.expect) % 2 ^ 20
  let stomped := isStomped b
  let done (c : RxCur) (d : Dev) : Dev := let d := setCur n (some c) d; if b.last then rxEnd n d else d
  if l.discard ∧ dd ≠ 0 then done {} (countErr (LINK n + 0x084) 1 d)
  else
    let d := if dd = 0 ∧ !stomped then updLink n (fun l => { l with discard := false }) d else d
    if 2 ^ 19 ≤ dd then done {} (count (LINK n + 0x120) (updLink n (fun l => { l with ackOn := true }) d))
    else if dd ≠ 0 then done {} (countErr (LINK n + 0x084) 1 d)
    else if stomped then done { ok := true, stomped := true } (count (LINK n + 0x128) d)
    else
      match fabricIn n { hdr := h, crc := b.crc } b.last d with
      | none => done {} (countErr (LINK n + 0x090) 1 (notAdmitted n d))
      | some (id, d) => done { id := id, keep := true, ok := true } d

/-- A payload bead of the strand that a port is receiving. -/
def payloadIn (n : PortNo) (b : Bead) (c : RxCur) (d : Dev) : Dev :=
  let fin (d : Dev) : Dev := if b.last then rxEnd n d else d
  match b.classify with
  | .good => fin (if c.keep then carryBead c.id b d else d)
  | .stomped =>
    let d := if c.ok ∧ c.stomped = false then count (LINK n + 0x128) d else d
    match c.keep, sendingPort d c.id with
    | true, some _ => fin (carryBead c.id b (setCur n (some { c with stomped := true }) d))
    | true, none => fin (dropWaiting c.id (setCur n (some { c with stomped := true, keep := false }) d))
    | false, _ => fin (setCur n (some { c with stomped := true }) d)
  | .bad =>
    let d := badBead n d
    match c.keep, sendingPort d c.id with
    | true, some _ => fin (carryBead c.id b.stomp (setCur n (some { c with ok := false }) d))
    | true, none => fin (dropWaiting c.id (setCur n (some { c with ok := false, keep := false }) d))
    | false, _ => fin (setCur n (some { c with ok := false }) d)

/-- A bead arrives on a port that is in service. A header bead before the previous strand's T.LAST breaks the
framing of that strand, which is cut short, and begins its own (DEDUCED, log 52). -/
def beadIn (n : PortNo) (b : Bead) (d : Dev) : Dev :=
  let p := port d n
  if p.state = 0 then d
  else
    match p.link.cur with
    | some c =>
      if b.kind then
        let d := setCur n none (badBead n (if c.keep then cutStrand c.id d else d))
        if b.classify = .bad then d else headIn n b d
      else payloadIn n b c d
    | none =>
      if b.classify = .bad then badBead n d
      else if b.kind then headIn n b d
      else d

/-! ### Leaving service (R292, R293, R314) -/

/-- How long a port that went down for a cause stays down. -/
def holdOf (cause : Nat) : PortHold :=
  match cause with
  | 1 => .tenMs | 2 => .tenMs | 3 => .tenMs | 4 => .oneS | 5 => .dieLink | _ => .none

/-- The role in effect takes ROLE_NEXT in DOWN (R27); Kiln enables a port that was UNUSED. -/
def applyRole (n : Nat) (d : Dev) : Dev :=
  let p := port d n
  if p.state ≠ 0 ∨ p.lane.phase ≠ 0 ∨ p.role = p.roleNext then d
  else
    let d' := updPort n (fun p => { p with role := p.roleNext }) d
    if p.role = 2 then
      let d' := if enabled d' (LANE n) then d' else enableWith (LANE n) (checkLane d' n) d'
      if enabled d' (LINK n) then d' else enableWith (LINK n) (checkLink d' n) d'
    else d'

/-- A LANE_RETRAIN that ends without an answer of its peer: its reply comes with outcome 3. -/
def negoDrop (n : Nat) (outcome : Nat) (d : Dev) : Dev :=
  let l := (port d n).lane
  let all := (l.nego.toList ++ l.again).filterMap (·.cmd)
  all.foldl (fun d c => push (.reply c 0x0902 0 0 (toLe 1 outcome)) d)
    (updLane n (fun l => { l with nego := none, again := [] }) d)

/-- What a port loses when it leaves TEST (R343): patterns, loopbacks and what may be injected only there. -/
def testOver (l : Lane) : Lane :=
  if l.phase ≠ 7 then l
  else
    { l with
      loopback := 0, loopMask := 0, remoteAllow := false, remoteLooped := false, gen := 0, chk := 0, patMask := 0, svcChk := false
      inject := l.inject.filter (fun i => i.1 != 2), coldNext := true }

/-- A port goes to DOWN (R333): its lanes' state of this bring-up goes. -/
def laneDown (n : Nat) (hold : PortHold) (d : Dev) : Dev :=
  let d := negoDrop n 3 d
  applyRole n (updLane n (fun l =>
    let l := testOver l
    { l with
      phase := 0, lanes := 0, half := false, peerPhase := 0, peerRxr := 0, hold := hold
      ends := l.ends.map (fun e =>
        { e with req := none, sends := 0, ready := false, locked := false, want := none, lastSeq := none, chkLock := false }) })
    (updPTime n (fun t => { asym := t.asym }) d))

/-- One strand of the replay buffer of a port that left service is re-entered (R293) (DEDUCED, log 54). -/
def rescueOne (n : PortNo) (e : RepEnt) (d : Dev) : Dev :=
  let d := count (RIN n.val + 0x110) (freeOf e.ent e.ent.cells d)
  match admission { e.ent with arr := some n, whole := e.closed, defl := false } d with
  | none => notAdmitted n d
  | some (x, _, d) =>
    if x.st.hdr.trim = false ∧ fld d (RTR + 0x034) 0 3 * 1000 ≤ d.clk - x.age then
      let (x, d) := trimEnt x d
      routeEnt x (count (OSCH n.val + 0x318) d)
    else routeEnt x d

/-- A port that is in service leaves it for a cause (R292, R293, R314) (DEDUCED, log 54). -/
def leaveService (n : PortNo) (cause : Nat) (d : Dev) : Dev :=
  let p := port d n
  if p.state = 0 then d
  else
    let held := p.txNext.toList ++ p.out.qs.flatten
    let d := updPort n (fun p =>
      { p with
        state := 0, neighbour := none, txNext := none
        out := { p.out with qs := List.replicate 8 [], deficit := List.replicate 8 0, active := [], credited := false }
        link := { cause := cause, slot := p.link.slot } }) d
    let d := laneDown n (holdOf cause) d
    let d := held.foldl (fun d e => routeEnt { e with defl := false } (count (OSCH n.val + 0x320) d)) d
    let d := match p.link.cur with
      | some c => if c.keep then cutStrand c.id d else d
      | none => d
    let d := p.link.rep.foldl (fun d e => rescueOne n e d) d
    if cause = 6 then d else raise (srcPort n 0) d

/-- A port goes down from any phase: out of service for the cause, or its bring-up is abandoned (R314) (DEDUCED, log 54). -/
def portDown (n : PortNo) (cause : Nat) (d : Dev) : Dev :=
  if (port d n).state ≠ 0 then leaveService n cause d
  else if (port d n).lane.phase = 0 ∨ (port d n).lane.phase = 7 then d
  else laneDown n (holdOf cause) (updLink n (fun l => { l with cause := cause }) d)

/-! ### Replay timer -/

/-- The replay timer expires (R309). -/
def replayExpire (n : PortNo) (d : Dev) : Dev :=
  let l := (port d n).link
  if l.rep = [] ∨ l.replaying = true ∨ l.replayDue = true ∨ lanesUp (port d n) = false then d
  else
    let s := l.streak + 1
    let d := countErr (LINK n.val + 0x088) 1 (updLink n (fun l => { l with streak := s }) d)
    if fld d (LINK n.val + 0x024) 0 3 ≤ s then leaveService n 1 d else replayStart n d

/-- The last bead of a replay has been sent (R309) (DEDUCED, log 55). -/
def replayDone (n : Nat) (d : Dev) : Dev := updLink n (fun l => { l with replaying := false }) d

end Sys2Proof.Machine
end

