-- ==== Sys2Proof/Machine/Time.lean ====
section
/-! DEFINITION. Fabric time (R351 to R371): counting and steps, clock parents, markers and samples, the
servo, the election, the time services. Times are in units of 2^-16 ns. -/

namespace Sys2Proof.Machine

/-! ### The count -/

/-- Changes the state of fabric time. -/
def updTime (g : TimeSt → TimeSt) (d : Dev) : Dev := { d with time := g d.time }

/-- Units of 2^-16 ns in a ns. -/
def unit16 : Int := 65536

/-- Fabric time in units of 2^-16 ns. -/
def now16 (d : Dev) : Int := d.time.ns * unit16 + d.time.frac

/-- Sets fabric time, a 64-bit count with a 16-bit fraction (R351). -/
def setNow16 (v : Int) (d : Dev) : Dev :=
  let n := (v % ((2 ^ 80 : Nat) : Int)).toNat
  updTime (fun t => { t with ns := n / 65536, frac := n % 65536 }) d

/-- One cycle of TCLK (R351, R362): 1 ns and its share of the correction in hand. -/
def timeTick (d : Dev) : Dev :=
  let t := d.time
  let acc := t.acc + (if t.corrLeft = 0 then 0 else t.corr)
  let d := setNow16 (now16 d + unit16 + acc / unit16) d
  updTime (fun t => { t with acc := acc % unit16, corrLeft := t.corrLeft - 1 }) d

/-- A step (R352). -/
def timeStep (by16 : Int) (d : Dev) : Dev :=
  raise (srcWin 3 2) (updTime (fun t => { t with stepCount := t.stepCount + 1, corrLeft := 0, acc := 0 })
    (setNow16 (now16 d + by16) d))

/-- Changes the time state (R360). -/
def setTimeState (s : TimeState) (d : Dev) : Dev :=
  if d.time.state = s then d
  else raise (srcWin 3 3) (updTime (fun t =>
    { t with state := s, goods := 0, bads := 0, holdSince := if s = .holdover then d.clk else t.holdSince }) d)

/-! ### Clock parents (R330, R331, R357) -/

/-- Is fabric time in ELECT (DEDUCED, log 63). -/
def electMode (d : Dev) : Bool := fld d (TIME + 0x020) 0 1 == 1

/-- The candidates in order. -/
def parentList (d : Dev) : List Nat := if electMode d then d.time.elected else d.time.list

/-- Is a port eligible as clock parent. -/
def parentOk (d : Dev) (n : Nat) : Bool := (port d n).state != 0 && (port d n).lane.clkOk

/-- The first eligible candidate (DEDUCED, log 63). -/
def bestParent (d : Dev) : Option Nat := if d.time.isGm then none else (parentList d).find? (parentOk d)

/-- Both references are lost with no clock parent present (R17). -/
def refLost (d : Dev) : Dev :=
  if !d.boot.refA && !d.boot.refB && d.time.parent.isNone then raise (srcWin 0 6) d else d

/-- Makes a port the clock parent, or none: counts start afresh; without a parent the device holds the
frequency offset and leaves LOCKING or LOCKED (R330, R360). -/
def setParent (p : Option Nat) (d : Dev) : Dev :=
  if d.time.parent = p then d
  else
    let held := match d.time.parent with
      | some o => ((port d o).lane.fclk).getD d.time.heldPpm
      | none => d.time.heldPpm
    let d := updTime (fun t =>
      { t with parent := p, goods := 0, bads := 0, heldPpm := held, parentTq := (p.map (fun n => (port d n).pt.tq)).getD 0 }) d
    let d := refLost d
    if p.isSome ∨ d.time.isGm then d
    else
      match d.time.state with
      | .locked => setTimeState .holdover d
      | .locking => setTimeState .freeRun d
      | _ => d

/-- A candidate may have become eligible: the first eligible one is the parent (DEDUCED, log 63). -/
def parentGain (d : Dev) : Dev :=
  match d.time.parent with
  | none => (match bestParent d with | some p => setParent (some p) d | none => d)
  | some q => if parentOk d q then setParent (bestParent d) d else d

/-- The clock parent is no longer eligible (R331). -/
def parentLoss (d : Dev) : Dev :=
  match d.time.parent with
  | none => d
  | some q => if parentOk d q ∧ (parentList d).contains q then d else setParent (bestParent d) d

/-- The list or the grandmaster changed: the parent is chosen anew. A LOCKED device left without one goes to
HOLDOVER, a LOCKING one to FREE_RUN. -/
def parentAgain (d : Dev) : Dev :=
  let d := setParent (bestParent d) d
  if d.time.isGm ∨ d.time.parent.isSome then d
  else
    match d.time.state with
    | .locked => setTimeState .holdover d
    | .locking => setTimeState .freeRun d
    | _ => d

/-- The device becomes grandmaster or stops being it (R359). -/
def setGm (on : Bool) (d : Dev) : Dev :=
  if d.time.isGm = on then d
  else if on then
    let keep := d.time.state = .locked ∨ d.time.state = .holdover
    let d := updTime (fun t =>
      { t with isGm := true, gmDa := d.rtr.da, gmClass := if keep then 1 else 2, steps := 0, ppsSeen := false, corrLeft := 0 }) d
    setTimeState (if keep then .locked else .freeRun) (setParent none d)
  else updTime (fun t => { t with isGm := false }) d

/-! ### Markers and samples (R354 to R356) -/

/-- A time stamp frame of a port. -/
def sendStamp (n seq : Nat) (t : Int) (event : Bool) (d : Dev) : Dev :=
  let v := t.toNat
  sendFrame n 3 (toLe 2 seq ++ toLe 2 (v % 65536) ++ toLe 8 (v / 65536) ++ toLe 1 (timeQ d + 4 * b2n event)) d

/-- Does a port take part in fabric time: TIME enabled, and from phase IDENTITY onward. -/
def timing (d : Dev) (n : Nat) : Bool :=
  enabled d TIME && decide (2 ≤ (port d n).lane.phase) && (port d n).lane.phase != 7

/-- A port sends its marker and its departure (R354). -/
def markerSend (n : PortNo) (d : Dev) : Dev :=
  if !timing d n || d.flt.fatal.isSome then d
  else
    let s := (port d n).pt.seq
    let t := now16 d
    sendStamp n s t false
      (updPTime n (fun p => { p with seq := (s + 1) % 65536, t1 := some (s, t) }) (emit (.marker n) d))

/-- A peer's marker arrives (R354). -/
def markerIn (n : PortNo) (d : Dev) : Dev :=
  if !timing d n then d
  else
    let s := (port d n).pt.rxSeq
    let t := now16 d
    sendStamp n s t true (updPTime n (fun p => { p with rxSeq := (s + 1) % 65536, t4 := some (s, t) }) d)

/-- ASYM of a port (R355) (DESIGN CHOICE, log 64). -/
def asymOf (d : Dev) (n : Nat) : Int := Config.calAsym n + (port d n).pt.asym * unit16 / 1000

/-- Is a port's D valid (R356). -/
def dValid (p : PTime) : Bool := p.d.isSome && decide (8 ≤ p.accepted)

/-- The servo's correction of an offset (R362) (DEDUCED, log 62). -/
def correct (theta : Int) (d : Dev) : Dev :=
  let lim := if d.time.state = .locked then 4 * unit16 else 1024 * unit16
  updTime (fun t => { t with corr := max (-lim) (min lim (theta / 4)), corrLeft := 65536, acc := 0 }) d

/-- Thresholds in units of 2^-16 ns. -/
def lockTh (d : Dev) : Int := fld d (TIME + 0x024) 0 8 * unit16
def unlockTh (d : Dev) : Int := fld d (TIME + 0x024) 8 8 * unit16
def stepTh (d : Dev) : Int := fld d (TIME + 0x024) 16 8 * 100 * unit16

/-- A valid theta arrives (R360, R362) (DEDUCED, log 62). -/
def validTheta (theta : Int) (d : Dev) : Dev :=
  let a : Int := theta.natAbs
  let d := updTime (fun t => { t with theta := theta }) d
  let small : Bool := decide (a ≤ lockTh d)
  match d.time.state with
  | .locking =>
    if stepTh d < a then timeStep theta (updTime (fun t => { t with goods := 0 }) d)
    else
      let d := updTime (fun t => { t with goods := if small then t.goods + 1 else 0 }) d
      correct theta (if 16 ≤ d.time.goods then setTimeState .locked d else d)
  | .locked =>
    let d := updTime (fun t => { t with bads := if unlockTh d < a then t.bads + 1 else 0 }) d
    correct theta (if 4 ≤ d.time.bads then setTimeState .locking d else d)
  | _ =>
    let d := setTimeState .locking d
    if stepTh d < a then timeStep theta d else correct theta d

/-- A sample of a port is complete (R355, R356) (DEDUCED, log 62). -/
def sample (n : Nat) (t1 t2 t3 t4 : Int) (d : Dev) : Dev :=
  let dd := ((t4 - t1) - (t3 - t2)) / 2
  let theta := ((t2 - t1) - (t4 - t3) + asymOf d n) / 2
  let p := (port d n).pt
  let far : Bool := match p.d with | none => false | some x => decide (4 * unit16 < ((dd - x).natAbs : Int)) && decide (p.runDiscards < 16)
  if far then
    updPTime n (fun p => { p with discarded := p.discarded + 1, runDiscards := p.runDiscards + 1 }) d
  else
    let new := match p.d with | none => dd | some x => if 16 ≤ p.runDiscards then dd else x + (dd - x) / 16
    let d := updPTime n (fun p => { p with d := some new, accepted := p.accepted + 1, runDiscards := 0, lastD := dd, lastTheta := theta }) d
    if d.time.parent = some n ∧ dValid (port d n).pt = true ∧ d.time.isGm = false ∧ enabled d TIME = true then validTheta theta d else d

/-- Forms the sample that waits, if the departure it needs is known. -/
def trySample (n : Nat) (d : Dev) : Dev :=
  match (port d n).pt.t2, (port d n).pt.t3 with
  | some (t2, t1, s4, t4), some (s3, t3) =>
    if s3 = s4 then sample n t1 t2 t3 t4 (updPTime n (fun p => { p with t2 := none }) d) else d
  | _, _ => d

/-- A TIME_STAMP frame arrives (R355). -/
def stampIn (n : PortNo) (body : Bytes) (d : Dev) : Dev :=
  if !timing d n then d
  else
    let s := leAt body 0 2
    let t : Int := leAt body 4 8 * unit16 + leAt body 2 2
    let q := bitsOf (leAt body 12 1) 0 2
    let d := updPTime n (fun p => { p with tq := q }) d
    let d := if d.time.parent = some n.val then updTime (fun t => { t with parentTq := q }) d else d
    if bitOf (leAt body 12 1) 2 then
      match (port d n).pt.t1, (port d n).pt.t4 with
      | some (s1, t1), some (s4, t4) =>
        if s1 = s then trySample n (updPTime n (fun p => { p with t2 := some (t, t1, s4, t4) }) d) else d
      | _, _ => d
    else
      let fix (p : PTime) : PTime :=
        { p with t3 := some (s, t), rxSeq := (s + 1) % 65536, t4 := p.t4.map (fun x => (s, x.2))
                 t2 := p.t2.map (fun x => match p.t4 with | some (s4, _) => if x.2.2.1 = s4 then (x.1, x.2.1, s, x.2.2.2) else x | none => x) }
      trySample n (updPTime n fix d)

/-! ### State changes by time (R360) -/

/-- 10 ms without a valid theta while a parent exists (DEDUCED, log 62). -/
def noTheta (d : Dev) : Dev :=
  if d.time.state = .locked ∧ d.time.parent.isSome then setTimeState .locking d else d

/-- HOLDOVER_LIMIT passes without a parent. -/
def holdoverEnd (d : Dev) : Dev :=
  if d.time.state = .holdover ∧ d.time.parent.isNone then setTimeState .freeRun d else d

/-! ### Election (R358) -/

/-- GM_CLASS that the device would have as grandmaster (R359). -/
def ownClass (d : Dev) : Nat :=
  if d.time.isGm then d.time.gmClass else if d.time.state = .locked ∨ d.time.state = .holdover then 1 else 2

/-- An unsequenced management strand of this device on VN_RSP, TC 0 (R358). Its ENTROPY, drawn from `n`, is left open. -/
def mgmtHdr (d : Dev) (n dst op opw : Nat) : Hdr :=
  { entropy := BitVec.ofNat 16 n, ttl := BitVec.ofNat 5 (fld d (XPORT + 0x020) 8 5), vn := true, epoch := d.rtr.inj, kind := 9
    dstDa := BitVec.ofNat 17 dst, srcDa := BitVec.ofNat 17 d.rtr.da, op := BitVec.ofNat 8 op
    flags := 0x80, opw := BitVec.ofNat 128 opw }

/-- A strand that this device makes enters the output queue of one port. -/
def sendOn (n : Nat) (h : Hdr) (cs : List Chunk) (d : Dev) : Dev :=
  let (id, d) := newId d
  let e : QEnt := { st := mkStrand h cs, id := id, cells := cellsOf h, general := true, age := d.clk }
  enterOut n e (takeGeneral (cellsOf h) d)

/-- Sends the announcement on each in-service LOCAL or GLOBAL port (R358) (DEDUCED, log 63). -/
def announce (d : Dev) : Dev :=
  if !electMode d || !enabled d TIME then d
  else
    let opw := d.time.gmDa + d.time.gmPrio * 2 ^ 24 + d.time.gmClass * 2 ^ 32 + d.time.steps * 2 ^ 36
    d.ports.foldl (fun d p =>
      match p.2.state, p.2.neighbour with
      | 0, _ => d
      | _, none => d
      | _, some (da, _) =>
        if p.2.role < 2 then
          let (n, d) := fresh d
          sendOn p.1 (mgmtHdr d n da 0xA0 opw) [] d
        else d) d

/-- An announcement of a neighbour is consumed (R358). -/
def announceIn (n : PortNo) (st : Strand) (d : Dev) : Dev :=
  let h := st.hdr
  if h.kind ≠ 9 ∨ h.op ≠ 0xA0 then d
  else updPTime n (fun p => { p with offer := some (h.opwf 24 8, h.opwf 32 2, h.opwf 0 17, h.opwf 36 4, d.clk) }) d

/-- Is an offer lower in (GM_PRIO, GM_CLASS, GM_DA). -/
def offerLt (a b : Nat × Nat × Nat) : Bool :=
  decide (a.1 < b.1) || (a.1 == b.1 && (decide (a.2.1 < b.2.1) || (a.2.1 == b.2.1 && decide (a.2.2 < b.2.2))))

/-- The evaluation of the election (R358) (DEDUCED, log 63). -/
def elect (d : Dev) : Dev :=
  if !electMode d || !enabled d TIME then d
  else
    let offers : List (Nat × (Nat × Nat × Nat) × Nat) := d.ports.filterMap (fun p =>
      match p.2.pt.offer with
      | some (pr, c, da, st, at_) => if st ≤ 14 ∧ d.clk - at_ ≤ 3000000 then some (p.1, (pr, c, da), st) else none
      | none => none)
    let prio := fld d (TIME + 0x020) 8 8
    let own : Nat × Nat × Nat := (prio, ownClass d, d.rtr.da)
    let all := offers.map (·.2.1) ++ (if prio < 255 then [own] else [])
    match all with
    | [] => parentAgain (setGm false (updTime (fun t => { t with elected := [] }) d))
    | x :: xs =>
      let best := xs.foldl (fun b o => if offerLt o b then o else b) x
      if prio < 255 ∧ best = own then
        let d := setGm true (updTime (fun t => { t with elected := [] }) d)
        updTime (fun t => { t with gmPrio := prio, gmDa := d.rtr.da, steps := 0 }) d
      else
        let naming := offers.filter (fun o => decide (o.2.1 = best))
        let s : Nat := (naming.map (fun o => o.2.2)).foldl min 15
        let cs := ((naming.filter (fun (o : Nat × (Nat × Nat × Nat) × Nat) => decide (o.2.2 = s))).map (·.1)).take 4
        parentAgain (updTime (fun t =>
          { t with elected := cs, steps := s + 1, gmDa := best.2.2, gmPrio := best.1, gmClass := best.2.1 }) (setGm false d))

/-! ### Time services -/

/-- A delay in ps in units of 2^-16 ns. -/
def ps16 (v : Nat) : Int := toSigned 32 v * unit16 / 1000

/-- The error of a time from the nearest second (R369). -/
def secondError (t : Int) : Int :=
  let s := 1000000000 * unit16
  let r := t % s
  if 2 * r < s then r else r - s

/-- A rising edge of PPS_IN (R369). -/
def ppsIn (d : Dev) : Dev :=
  if fld d (TIME + 0x050) 2 1 = 0 then d
  else if (match d.time.ppsLast with | some t => decide (d.clk - t < 500000000) | none => false) then
    updTime (fun t => { t with ppsIgnored := t.ppsIgnored + 1 }) d
  else
    let t := now16 d - ps16 d.time.inDelay
    let d := setReg (TIME + 0x058) (BitVec.ofNat 64 (t / unit16).toNat) (updTime (fun x => { x with ppsLast := some d.clk }) d)
    if fld d (TIME + 0x050) 3 1 = 1 ∧ d.time.isGm = true then
      let err := secondError t
      let first := d.time.ppsSeen = false
      let d := updTime (fun x => { x with ppsSeen := true, gmClass := 0 }) d
      if first then (if stepTh d < (err.natAbs : Int) then timeStep (-err) d else d)
      else
        let d := if d.time.state = .locked then correct (-err) d else d
        let (v, d) := fresh d
        updTime (fun x => { x with freqPpb := ((v % 20001 : Nat) : Int) - 10000 }) d
    else d

/-- 3 s without an edge of PPS_IN on a disciplined grandmaster (R359). -/
def ppsTimeout (d : Dev) : Dev :=
  if d.time.isGm = true ∧ d.time.gmClass = 0 then updTime (fun t => { t with gmClass := 1 }) d else d

/-- Is PPS_OUT driven (R368). -/
def ppsDriven (d : Dev) : Bool :=
  fld d (TIME + 0x050) 0 1 == 1 && (timeQ d == 3 || fld d (TIME + 0x050) 1 1 == 1)

/-- PPS_OUT rises at a second (R368); it stays high for OUT_WIDTH ms. -/
def ppsOut (d : Dev) : Dev :=
  if ppsDriven d then
    emit (.pin "PPS_OUT" 0 1) (updTime (fun t => { t with ppsFall := some (d.clk + fld d (TIME + 0x050) 8 8 * 1000000) }) d)
  else d

/-- PPS_OUT falls when its time has come. -/
def ppsFallTick (d : Dev) : Dev :=
  match d.time.ppsFall with
  | some t => if t ≤ d.clk then emit (.pin "PPS_OUT" 0 0) (updTime (fun x => { x with ppsFall := none }) d) else d
  | none => d

/-- ASCII of a string of 8-bit characters. -/
def ascii (s : String) : Bytes := s.toList.map (fun c => BitVec.ofNat 8 c.toNat)

/-- One uppercase hexadecimal digit. -/
def hexDigit (n : Nat) : Byte := BitVec.ofNat 8 (if n % 16 < 10 then 48 + n % 16 else 55 + n % 16)

/-- The decimal digits of a number; `fuel` bounds them. -/
def decDigits : Nat → Nat → Bytes
  | 0, _ => []
  | fuel + 1, n => (if n < 10 then [] else decDigits fuel (n / 10)) ++ [BitVec.ofNat 8 (48 + n % 10)]

/-- A signed number in decimal. -/
def decInt (v : Int) : Bytes := (if v < 0 then ascii "-" else []) ++ decDigits 30 v.natAbs

/-- The time-of-day line (R370). -/
def todLine (d : Dev) : Bytes :=
  let g := d.time.gmDa
  let body := ascii "OSNT," ++ decDigits 30 (d.time.ns / 1000000000) ++ ascii "," ++ decInt (toSigned 16 d.time.utc) ++ ascii ","
    ++ decDigits 2 (timeQ d) ++ ascii "," ++ [hexDigit (g / 65536), hexDigit (g / 4096), hexDigit (g / 256), hexDigit (g / 16), hexDigit g]
  let cc := (body.foldl (fun c b => c ^^^ b) 0).toNat
  ascii "$" ++ body ++ ascii "*" ++ [hexDigit (cc / 16), hexDigit cc, 13, 10]

/-- Sends the time-of-day line (R370). -/
def todSend (d : Dev) : Dev :=
  if fld d (TIME + 0x050) 4 1 = 1 ∧ ppsDriven d = true then emit (.tod (todLine d)) d else d

/-- Writes the next slot of a mirror (R367). -/
def mirrorWrite (k : Nat) (d : Dev) : Dev :=
  match mget d.time.mirrors k with
  | none => d
  | some m =>
    let a := m.addr + 32 * ((m.seq + 1) % 2)
    let s := toLe 4 m.seq
    let mid := toLe 8 d.time.ns ++ toLe 2 d.time.frac ++ toLe 1 (timeQ d) ++ toLe 1 0 ++ toLe 4 d.time.gmDa ++ toLe 2 d.time.utc ++ zeros 6
    let d := hostWrite m.f a s false false d
    let d := hostWrite m.f (a + 4) mid false false d
    let d := hostWrite m.f (a + 28) s false false d
    updTime (fun t => { t with mirrors := mset t.mirrors k { m with seq := (m.seq + 1) % 2 ^ 32 } }) d

end Sys2Proof.Machine
end

