-- ==== Sys2Proof/Machine/Lane.lean ====
section
/-! DEFINITION. Lanes: bring-up, equalisation and alignment (R333 to R337), negotiated changes (R338 to R340),
service frames (R325 to R328), link health (R315), test modes (R343 to R345), cages and the indicator scan bus
(R347, R348). -/

namespace Sys2Proof.Machine

/-! ### Frames this device sends -/

/-- KEY of a port (R328). -/
def keyOf (d : Dev) (n : Nat) : Nat := d.rtr.da * 128 + n

/-- Lanes on which the device transmits (TXA). -/
def txaOf (l : Lane) : Nat := if l.phase = 3 ∨ l.phase = 4 ∨ l.phase = 5 then l.lanes else 0

/-- Receiver readiness (RXR): equalised lanes in EQUALISE, deskewed ones from ALIGN on. -/
def rxrOf (l : Lane) : Nat :=
  let bit (p : LaneEnd → Bool) (i : Nat) : Nat := if bitOf l.lanes i && p (lget l.ends i {}) then 2 ^ i else 0
  if l.phase = 3 then bit (·.ready) 0 + bit (·.ready) 1
  else if l.phase = 4 ∨ l.phase = 5 then
    (if bit (·.locked) 0 + bit (·.locked) 1 = l.lanes then l.lanes else 0)
  else 0

/-- Sends TRAIN_STATE (R327, R328). -/
def sendState (n : Nat) (d : Dev) : Dev :=
  let l := (port d n).lane
  sendFrame n 6 (toLe 1 (l.phase + rxrOf l * 16 + b2n l.half * 64) ++ toLe 1 (txaOf l)) d

/-- A change of what TRAIN_STATE shows, of a port in service, is sent at once (R327). -/
def stateChanged (n : Nat) (d : Dev) : Dev := if (port d n).state = 0 then d else sendState n d

/-- Sends IDENTITY (R328, R335). -/
def sendIdentity (n : Nat) (d : Dev) : Dev :=
  let p := port d n
  sendFrame n 8
    (toLe 3 (d.rtr.da + n * 2 ^ 17)
      ++ toLe 1 (p.role + 4 * b2n d.rtr.daValid + 8 * fld d (LANE n + 0x020) 0 1 + 16 * (1 - fld d (LANE n + 0x020) 1 1))
      ++ toLe 1 (fld d (GLB + 0x020) 0 8) ++ toLe 1 0 ++ toLe 8 d.nv.serial) d

/-- Sends NEGOTIATE (R328) (DESIGN CHOICE, log 56). -/
def sendNego (n msg kind lane seq : Nat) (d : Dev) : Dev :=
  sendFrame n 7 (toLe 1 (msg + kind * 16 + lane * 128) ++ toLe 3 (keyOf d n) ++ toLe 1 seq) d

/-- Sends the hint of R280 on a port: the largest depth of each virtual network over the other ports. -/
def sendHint (n : Nat) (d : Dev) : Dev :=
  let deep (vn : Nat) : Nat :=
    (d.ports.filter (fun p => decide (p.1 ≠ n))).foldl (fun m p =>
      (List.range 4).foldl (fun m i => max m (portDepth d p.1 (4 * vn + i))) m) 0
  sendFrame n 2 (toLe 1 (min 15 (deep 0 / 256) + 16 * min 15 (deep 1 / 256))) d

/-- A hint on every in-service port (R280). -/
def sendHints (d : Dev) : Dev := d.ports.foldl (fun d p => if p.2.state = 0 then d else sendHint p.1 d) d

/-! ### Equalisation (R336, R337) -/

/-- Changes one lane end of a port. -/
def updEnd (n l : Nat) (g : LaneEnd → LaneEnd) (d : Dev) : Dev :=
  updLane n (fun x => { x with ends := lset x.ends l (g (lget x.ends l {})) }) d

/-- The least and largest value of each tap. -/
def tapRange : List (Int × Int) := [(-8, 8), (-24, 0), (24, 64), (-24, 0), (-8, 8), (-8, 8)]

/-- The transmitter presets. -/
def presets : List (List Int) :=
  [[0, 0, 64, 0, 0, 0], [0, 0, 56, -8, 0, 0], [0, -4, 52, -8, 0, 0], [0, -8, 48, -8, 0, 0],
   [0, 0, 48, -16, 0, 0], [2, -8, 42, -12, 0, 0], [0, -6, 40, -16, 2, 0], [0, -12, 36, -16, 0, 0]]

/-- Sends a request of the receiver of a lane, the first time it is sent (DESIGN CHOICE, log 56). -/
def sendReq (n l : Nat) (head : Nat) (cmds : List Nat) (d : Dev) : Dev :=
  let e := lget (port d n).lane.ends l {}
  let c (i : Nat) : Nat := lget cmds i 0
  let body := [head + l, c 0 + c 1 * 4 + c 2 * 16 + c 3 * 64, c 4 + c 5 * 4, e.reqSeq].map (BitVec.ofNat 8)
  sendFrame n 4 body (updEnd n l (fun e => { e with req := some body, sends := 1, reqSeq := (e.reqSeq + 1) % 256 }) d)

/-- The next request toward the wanted taps of a warm start: one unit a tap, the precoding with it; none once
they are reached. Before the first response nothing is known of the far taps, and every tap holds (DEDUCED, log 58). -/
def warmNext (n l : Nat) (d : Dev) : Dev :=
  let e := lget (port d n).lane.ends l {}
  match e.want with
  | none => d
  | some (taps, pre) =>
    if e.far = taps ∧ e.farPre = pre then updEnd n l (fun e => { e with want := none }) d
    else
      let cmd (i : Nat) : Nat :=
        match e.far[i]?, taps[i]? with
        | some f, some t => if f < t then 1 else if t < f then 2 else 0
        | _, _ => 0
      sendReq n l (32 * b2n pre) ((List.range 6).map cmd) d

/-- Enters EQUALISE with the lanes and baud set: warm toward given taps, or cold (R337). -/
def enterEqualise (n : Nat) (warm : Option (List (List Int × Bool))) (d : Dev) : Dev :=
  let d := updLane n (fun x =>
    { x with
      phase := 3, warm := warm.isSome
      ends := x.ends.zipIdx.map (fun (e, i) =>
        { e with ready := false, locked := false, req := none, sends := 0, far := []
                 want := warm.bind (fun w => w[i]?) }) }) d
  let d := count (LANE n + (if warm.isSome then 0x130 else 0x138)) d
  let d := stateChanged n d
  (List.range 2).foldl (fun d i =>
    if !bitOf (port d n).lane.lanes i then d
    else if warm.isSome then warmNext n i d
    else sendReq n i (2 + 4 * fld d (LANE n + 0x020) 4 3 + 32 * b2n (lget (port d n).lane.ends i {}).farPre) [] d) d

/-- The taps and precoding of the far ends as last answered. -/
def farTaps (l : Lane) : List (List Int × Bool) := l.ends.map (fun e => (e.far, e.farPre))

/-- Bring-up fails (R337); a negotiated change that cannot train takes the port out of service. -/
def failBringup (n : PortNo) (d : Dev) : Dev :=
  if (port d n).state ≠ 0 then leaveService n 3 d
  else laneDown n .tenMs (countErr (LANE n.val + 0x094) 1 d)

/-- Adds a signed command to a tap within its range: the tap and its status (R336) (DEDUCED, log 58). -/
def tapMove (t : Int) (r : Int × Int) (cmd : Nat) : Int × Nat :=
  match cmd with
  | 1 => if t < r.2 then (t + 1, 0) else (t, 1)
  | 2 => if r.1 < t then (t - 1, 0) else (t, 2)
  | _ => (t, 0)

/-- Applies the tap commands of a request (R336): a sum of more than 64 leaves every tap and reports it at the
taps that would have moved (DEDUCED, log 58). -/
def applyCmds (taps : List Int) (cmds : List Nat) : List Int × List Nat :=
  let moved := (List.range 6).map (fun i => tapMove (lget taps i 0) (lget tapRange i (0, 0)) (lget cmds i 0))
  let sum := sumOf (moved.map (fun m => m.1.natAbs))
  if sum ≤ 64 then (moved.map (·.1), moved.map (·.2))
  else (taps, (moved.zip taps).map (fun m => if m.1.1 = m.2 then m.1.2 else 3))

/-- A TRAIN_REQ arrives at the transmitter of a lane (R336). -/
def trainReqIn (n : PortNo) (body : Bytes) (d : Dev) : Dev :=
  let l := (port d n).lane
  if l.phase < 2 ∨ l.phase = 7 then d
  else
    let b0 := leAt body 0 1
    let i := b0 % 2
    let seq := leAt body 3 1
    let e := lget l.ends i {}
    if e.lastSeq = some seq then sendFrame n 5 e.lastRsp d
    else
      let c := leAt body 1 2
      let (taps, st) :=
        if bitOf b0 1 then (lget presets (bitsOf b0 2 3) [], [0, 0, 0, 0, 0, 0])
        else applyCmds e.taps ((List.range 6).map (fun k => bitsOf c (2 * k) 2))
      let pre := bitOf b0 5
      let status := sumOf (st.zipIdx.map (fun p => p.1 * 4 ^ p.2))
      let rsp := toLe 1 (i + 2 * b2n pre) ++ toLe 1 seq ++ toLe 2 status ++ taps.map (fun t => BitVec.ofNat 8 (ofSigned 8 t))
      sendFrame n 5 rsp (updEnd n i (fun e => { e with taps := taps, pre := pre, lastSeq := some seq, lastRsp := rsp }) d)

/-- A TRAIN_RSP arrives at the receiver of a lane (R336). -/
def trainRspIn (n : PortNo) (body : Bytes) (d : Dev) : Dev :=
  let i := leAt body 0 1 % 2
  let e := lget (port d n).lane.ends i {}
  match e.req with
  | none => d
  | some r =>
    if leAt r 3 1 ≠ leAt body 1 1 then d
    else
      let taps := (List.range 6).map (fun k => toSigned 8 (leAt body (4 + k) 1))
      let stuck := leAt body 2 2 % 4096 ≠ 0
      let d := updEnd n i (fun e =>
        { e with req := none, sends := 0, far := taps, farPre := bitOf (leAt body 0 1) 1
                 want := if stuck then none else e.want }) d
      warmNext n i d

/-- A request has had no response for 5 µs (R336). -/
def trainResend (n : PortNo) (i : Nat) (d : Dev) : Dev :=
  let e := lget (port d n).lane.ends i {}
  match e.req with
  | none => d
  | some r =>
    if 8 ≤ e.sends then failBringup n d
    else sendFrame n 4 r (updEnd n i (fun e => { e with sends := e.sends + 1 }) d)

/-! ### Bring-up (R333 to R335) -/

/-- May a port be brought up. In RETIRED no port is (R477). -/
def mayBringup (d : Dev) (n : Nat) : Bool :=
  let p := port d n
  d.nv.lc != 5 && p.state == 0 && p.lane.phase == 0 && p.role != 2 && p.lane.hold == .none
    && enabled d (LANE n) && enabled d (LINK n) && enabled d RTR

/-- SYNC ends once the service lane has sync and the clock is in tolerance (R334). -/
def syncGo (n : Nat) (d : Dev) : Dev :=
  let l := (port d n).lane
  if l.phase = 1 ∧ l.svcSync = true ∧ l.clkOk = true then sendIdentity n (updLane n (fun l => { l with phase := 2 }) d) else d

/-- Starts bring-up if the port may be brought up. -/
def bringup (n : Nat) (d : Dev) : Dev :=
  let d := applyRole n d
  if mayBringup d n then syncGo n (updLane n (fun l => { l with phase := 1, failedFull := false }) d) else d

/-- Starts the bring-up of every port that may be brought up. -/
def bringupAll (d : Dev) : Dev := (List.range 128).foldl (fun d n => bringup n d) d

/-- A hold in DOWN ends (R314, R335, R337). -/
def holdEnd (n : PortNo) (h : PortHold) (d : Dev) : Dev :=
  if (port d n).lane.hold = h ∧ (port d n).lane.phase = 0 then bringup n (updLane n (fun l => { l with hold := .none }) d) else d

/-- The identity exchange fails (R28, R335, R340). -/
def failIdentity (n : PortNo) (d : Dev) : Dev :=
  if (port d n).state ≠ 0 then leaveService n 4 d
  else
    let d := countErr (LANE n.val + 0x094) 1 (updLink n (fun l => { l with cause := 4 }) d)
    raise (srcPort n 0) (laneDown n .oneS d)

/-- Does an identity fail the checks of R28, of the keys or of DA_VALID (DEDUCED, log 59). -/
def identityBad (d : Dev) (n da pn : Nat) (valid : Bool) : Bool :=
  let own := d.rtr.da
  let sameGroup := decide (da / 64 = own / 64)
  (match (port d n).role with
    | 0 => !sameGroup || decide (da = own)
    | 1 => sameGroup || decide (da = own)
    | _ => decide (da ≠ own))
  || decide (da * 128 + pn = keyOf d n) || !valid || !d.rtr.daValid

/-- The training history of a port that a warm start may use (R337). -/
def warmHist (d : Dev) (n : Nat) : Option TrainHist :=
  let l := (port d n).lane
  if fld d (LANE n + 0x020) 3 1 = 0 ∨ l.coldNext = true then none
  else
    match mget d.nv.hist n, (port d n).neighbour with
    | some h, some (da, pn) => if h.da = da ∧ h.port = pn ∧ h.serial = l.peerSerial then some h else none
    | _, _ => none

/-- An IDENTITY frame arrives (R335). -/
def identityIn (n : PortNo) (body : Bytes) (d : Dev) : Dev :=
  if (port d n).lane.phase ≠ 2 then d
  else
    let w := leAt body 0 3
    let f := leAt body 3 1
    let da := bitsOf w 0 17
    let pn := bitsOf w 17 7
    if identityBad d n da pn (bitOf f 2) then failIdentity n d
    else
      let one := fld d (LANE n.val + 0x020) 1 1 = 1
      let sel := 2 ^ fld d (LANE n.val + 0x020) 2 1
      let peerTwo := bitOf f 4
      let byPeer : Bool := !peerTwo && !(decide one && decide (keyOf d n < da * 128 + pn))
      let lanes := if byPeer then 1 else if one then sel else 3
      let d := updPort n (fun p => { p with neighbour := some (da, pn) }) d
      let d := updLane n (fun l =>
        { l with peerHalfOk := bitOf f 3, peerTwo := peerTwo, peerSerial := leAt body 6 8
                 lanes := lanes, onePeer := byPeer, half := false }) d
      let h := warmHist d n
      enterEqualise n (h.map (fun h => h.taps.zip h.pre)) (updLane n (fun l => { l with coldNext := false }) d)

/-- EQUALISE ends when both ends are ready on every lane in use (R334). -/
def equaliseGo (n : Nat) (d : Dev) : Dev :=
  let l := (port d n).lane
  if l.phase = 3 ∧ l.lanes ≠ 0 ∧ rxrOf l = l.lanes ∧ ((l.peerPhase = 3 ∧ l.peerRxr &&& l.lanes = l.lanes) ∨ l.peerPhase = 4) then
    stateChanged n (updLane n (fun l => { l with phase := 4, ends := l.ends.map (fun e => { e with locked := false }) }) d)
  else d

/-- A TRAIN_STATE frame arrives (R334, R335). -/
def trainStateIn (n : PortNo) (body : Bytes) (d : Dev) : Dev :=
  let b := leAt body 0 1
  let txa := leAt body 1 1 % 4
  let l := (port d n).lane
  if l.phase = 0 then d
  else
    let d := updLane n (fun l => { l with peerPhase := b % 16, peerRxr := bitsOf b 4 2 }) d
    let d := if l.onePeer ∧ l.phase = 3 ∧ (txa = 1 ∨ txa = 2) ∧ l.lanes ≠ txa then
        enterEqualise n none (updLane n (fun l => { l with lanes := txa }) d)
      else d
    equaliseGo n d

/-- The PRBS31 checker of a lane has counted the errors of 2^32 bits (R336) (DEDUCED, log 58). -/
def laneReady (n : PortNo) (i errors : Nat) (d : Dev) : Dev :=
  let l := (port d n).lane
  if l.phase = 3 ∧ bitOf l.lanes i = true ∧ errors ≤ 4294 then
    equaliseGo n (stateChanged n (updEnd n i (fun e => { e with ready := true }) d))
  else d

/-- A lane locks to the alignment codewords (R337) (DEDUCED, log 58). -/
def alignLock (n : PortNo) (i : Nat) (d : Dev) : Dev :=
  let l := (port d n).lane
  if l.phase = 4 ∧ bitOf l.lanes i = true then stateChanged n (updEnd n i (fun e => { e with locked := true }) d) else d

/-- A lane is not ready within EQ_LIMIT (R337). -/
def eqLimit (n : PortNo) (d : Dev) : Dev :=
  let l := (port d n).lane
  if l.phase ≠ 3 ∨ rxrOf l = l.lanes then d
  else if l.half then failBringup n d
  else
    let d := updLane n (fun l => { l with failedFull := true }) d
    if fld d (LANE n.val + 0x020) 0 1 = 1 ∧ l.peerHalfOk = true then
      enterEqualise n none (updLane n (fun l => { l with half := true }) d)
    else failBringup n d

/-! ### Negotiated changes (R338 to R340) -/

/-- The configuration of the lanes after a change. -/
def negoLanes (d : Dev) (n : Nat) (g : Nego) : Nat × Bool :=
  let l := (port d n).lane
  match g.kind with
  | 1 => (2 ^ g.lane, l.half)
  | 2 => (3, l.half)
  | 3 => (l.lanes, false)
  | 4 => (l.lanes, true)
  | _ => (l.lanes, l.half)

/-- A change that stops the data lanes goes on once the strand being sent has ended (R313, R338): the receiver
enters discard mode and training starts warm from the taps in use. -/
def quiesceGo (n : Nat) (d : Dev) : Dev :=
  let p := port d n
  match p.lane.nego with
  | none => d
  | some g =>
    if p.lane.phase ≠ 6 ∨ p.link.txOpen.isSome then d
    else
      let d := match p.link.cur with
        | some c => setCur n none (if c.keep then cutStrand c.id d else d)
        | none => d
      let (lanes, half) := negoLanes d n g
      let far := farTaps p.lane
      let d := updLink n (fun l => { l with discard := true }) (updLane n (fun l => { l with lanes := lanes, half := half }) d)
      enterEqualise n (some far) d

/-- Enters QUIESCE (R338). -/
def quiesce (n : Nat) (d : Dev) : Dev :=
  quiesceGo n (stateChanged n (updLane n (fun l => { l with phase := 6, peerPhase := 0, peerRxr := 0 }) d))

/-- Proposes a change (R338). -/
def propose (n kind lane : Nat) (cmd : Option AdminCtx) (d : Dev) : Dev :=
  let l := (port d n).lane
  if l.phase ≠ 5 ∨ l.nego.isSome then d
  else
    let g : Nego := { kind := kind, lane := lane, seq := l.negSeq, mine := true, cmd := cmd }
    sendNego n 1 kind lane g.seq (updLane n (fun l => { l with nego := some g, negSeq := (g.seq + 1) % 256 }) d)

/-- The reply of the LANE_RETRAIN that asked for a proposal: 0 accepted, 1 rejected, 2 superseded, 3 failed. -/
def negoReply (g : Nego) (outcome : Nat) (d : Dev) : Dev :=
  match g.cmd with
  | some c => push (.reply c 0x0902 0 0 (toLe 1 outcome)) d
  | none => d

/-- Can an end not carry a kind of change (R338, step 2). -/
def cannot (d : Dev) (n kind : Nat) : Bool :=
  let l := (port d n).lane
  match kind with
  | 0 => false
  | 1 => l.lanes != 3
  | 2 => fld d (LANE n + 0x020) 1 1 == 1
  | 3 => l.failedFull
  | 4 => fld d (LANE n + 0x020) 0 1 == 0
  | _ => true

/-- A PROPOSE arrives (R338, R340) (DEDUCED, log 57). -/
def proposeIn (n : PortNo) (kind lane key seq : Nat) (d : Dev) : Dev :=
  let p := port d n
  let answer (d : Dev) : Dev :=
    if cannot d n kind then sendNego n 3 kind lane seq d
    else
      let g : Nego := { kind := kind, lane := lane, seq := seq, mine := false, accepted := true }
      quiesce n (updLane n (fun l => { l with nego := some g }) (sendNego n 2 kind lane seq d))
  if p.state = 0 ∧ key ≠ keyOf d n then d
  else if key = keyOf d n then failIdentity n d
  else
    match p.lane.nego with
    | none => if p.lane.phase = 5 then answer d else d
    | some g =>
      if g.accepted then (if g.mine = false ∧ g.seq = seq then sendNego n 2 kind lane seq d else d)
      else if keyOf d n < key then d
      else
        let d := updLane n (fun l =>
          { l with nego := none, again := if g.cmd.isNone then l.again ++ [g] else l.again }) (negoReply g 2 d)
        answer d

/-- An ACCEPT arrives (R338) (DEDUCED, log 57). -/
def acceptIn (n : PortNo) (seq : Nat) (d : Dev) : Dev :=
  match (port d n).lane.nego with
  | some g =>
    if g.mine ∧ g.accepted = false ∧ g.seq = seq then
      quiesce n (negoReply g 0 (updLane n (fun l => { l with nego := some { g with accepted := true, cmd := none } }) d))
    else d
  | none => d

/-- A REJECT arrives (R339). -/
def rejectIn (n : PortNo) (seq : Nat) (d : Dev) : Dev :=
  match (port d n).lane.nego with
  | some g =>
    if g.mine ∧ g.accepted = false ∧ g.seq = seq then negoReply g 1 (updLane n (fun l => { l with nego := none }) d) else d
  | none => d

/-- The lane with the lower score, lane 0 on a tie (R338). -/
def keptLane (l : Lane) : Nat := if lget l.score 1 0 < lget l.score 0 0 then 1 else 0

/-- Does the cause of a withdrawn automatic proposal still hold (R340). -/
def stillCause (d : Dev) (n : Nat) (g : Nego) : Bool :=
  let p := port d n
  if g.kind = 1 then p.lane.lanes == 3 && decide (100 * fld d (LINK n + 0x024) 24 8 ≤ p.link.rate)
  else !p.lane.clkOk

/-- After DONE, a withdrawn automatic proposal is made again (R340) (DEDUCED, log 57). -/
def doneIn (n : PortNo) (d : Dev) : Dev :=
  let l := (port d n).lane
  if l.phase ≠ 5 ∨ l.nego.isSome then d
  else
    let d := updLane n (fun l => { l with again := [] }) d
    match l.again.find? (stillCause d n) with
    | some g => propose n g.kind g.lane none d
    | none => d

/-- A NEGOTIATE frame, by its MSG. -/
def negoIn (n : PortNo) (body : Bytes) (d : Dev) : Dev :=
  let b := leAt body 0 1
  let seq := leAt body 4 1
  match b % 16 with
  | 1 => proposeIn n (bitsOf b 4 3) (bitsOf b 7 1) (leAt body 1 3) seq d
  | 2 => acceptIn n seq d
  | 3 => rejectIn n seq d
  | 4 => doneIn n d
  | _ => d

/-- An unanswered proposal is sent again (R338) (DEDUCED, log 57). -/
def proposeAgain (n : PortNo) (d : Dev) : Dev :=
  match (port d n).lane.nego with
  | some g => if g.mine ∧ g.accepted = false then sendNego n 1 g.kind g.lane g.seq d else d
  | none => d

/-- A proposal unanswered for 1 ms is abandoned (R338). -/
def proposeDrop (n : PortNo) (d : Dev) : Dev :=
  match (port d n).lane.nego with
  | some g =>
    if g.mine ∧ g.accepted = false then negoReply g 3 (updLane n (fun l => { l with nego := none }) d) else d
  | none => d

/-- An accepted change is not ACTIVE within its bound (R339) (DEDUCED, log 57). -/
def retrainLate (n : PortNo) (d : Dev) : Dev :=
  match (port d n).lane.nego with
  | some g => if g.accepted then leaveService n 3 d else d
  | none => d

/-! ### ACTIVE (R300, R313, R334) -/

/-- The bead stream begins: the port enters service, or a negotiated change ends and what is not acknowledged is
replayed. -/
def portActive (n : PortNo) (d : Dev) : Dev :=
  let p := port d n
  let l := p.lane
  if l.phase ≠ 4 ∨ rxrOf l ≠ l.lanes ∨ (l.peerRxr &&& l.lanes ≠ l.lanes) ∨ l.peerPhase < 4 then d
  else if p.state = 0 then
    let d := updPort n (fun p =>
      { p with state := 1, inSince := d.clk, dimmed := false, link := { slot := p.link.slot }, lane := { p.lane with phase := 5, score := [0, 0] } }) d
    parentGain d
  else
    let d := stateChanged n (updLane n (fun l => { l with phase := 5, nego := none }) d)
    let d := match l.nego with
      | some g =>
        let d := sendNego n 4 g.kind g.lane g.seq d
        let d := if g.kind = 1 ∧ (g.mine = false ∨ p.link.narrowed = true) then updLink n (fun l => { l with narrowed := true }) d else d
        count (LANE n.val + (if g.kind = 0 then 0x120 else 0x128)) d
      | none => d
    doneIn n (replayStart n d)

/-- 64 µs after entering service a LEARNING port becomes ACTIVE (R278). -/
def learned (n : PortNo) (d : Dev) : Dev :=
  if (port d n).state = 1 then updPort n (fun p => { p with state := 2 }) d else d

/-- The port's training history is written if it changed (R337). -/
def histWrite (n : PortNo) (d : Dev) : Dev :=
  let p := port d n
  match p.neighbour with
  | none => d
  | some (da, pn) =>
    if p.state = 0 then d
    else
      let h : TrainHist := { da := da, port := pn, serial := p.lane.peerSerial, half := p.lane.half
                             taps := p.lane.ends.map (·.far), pre := p.lane.ends.map (·.farPre) }
      if mget d.nv.hist n = some h then d else { d with nv := { d.nv with hist := mset d.nv.hist n h } }

/-! ### Sync and clock -/

/-- The service lane acquires sync (R323). -/
def syncGain (n : PortNo) (d : Dev) : Dev := syncGo n (updLane n (fun l => { l with svcSync := true }) d)

/-- The service lane loses sync (R323, R314) (DEDUCED, log 59). -/
def syncLoss (n : PortNo) (d : Dev) : Dev :=
  if (port d n).lane.svcSync then
    let d := countErr (LANE n.val + 0x090) 1 (updLane n (fun l => { l with svcSync := false }) d)
    leaveService n 2 d
  else d

/-- The forwarded clock leaves tolerance (R332): a retrain is proposed (R322). -/
def clkLoss (n : PortNo) (d : Dev) : Dev :=
  propose n 0 0 none (updLane n (fun l => { l with clkOk := false, fclk := none }) d)

/-- The forwarded clock comes back (R332); its offset in 1/100 ppm is measured. -/
def clkGain (n : PortNo) (d : Dev) : Dev :=
  let (v, d) := fresh d
  parentGain (syncGo n (updLane n (fun l => { l with clkOk := true, fclk := some (((v % 40001 : Nat) : Int) - 20000) }) d))

/-- A lane loses codeword lock (R322). -/
def lockLoss (n : PortNo) (d : Dev) : Dev := propose n 0 0 none d

/-! ### Health (R315, R338) -/

/-- A LINK_HEALTH frame of the peer feeds the score (R338). -/
def healthIn (n : PortNo) (body : Bytes) (d : Dev) : Dev :=
  let s0 := leAt body 0 3 + 16 * (leAt body 6 1 % 16)
  let s1 := leAt body 3 3 + 16 * (leAt body 6 1 / 16)
  updLane n (fun l => { l with score := [lget l.score 0 0 + s0, lget l.score 1 0 + s1] }) d

/-- Sends LINK_HEALTH; no command reports a corrected symbol, so the counts are zero (DESIGN CHOICE, log 60). -/
def healthSend (n : PortNo) (e0 e1 : Nat) (d : Dev) : Dev :=
  if (port d n).state = 0 then d else sendFrame n 9 (zeros 7 ++ toLe 1 (e0 % 128) ++ toLe 1 (e1 % 128)) d

/-- The end of a health period (R315). -/
def healthPeriod (n : PortNo) (d : Dev) : Dev :=
  let p := port d n
  let first := p.link.firstBeads
  let d := updLink n (fun l => { l with firstBeads := 0, replayedBeads := 0 }) d
  let clear (d : Dev) : Dev := updLane n (fun l => { l with score := [0, 0] }) d
  if p.state = 0 ∨ first < 1000000 then clear d
  else
    let rate := p.link.replayedBeads * 1000000 / first
    let dimTh := fld d (LINK n.val + 0x024) 16 8
    let narTh := fld d (LINK n.val + 0x024) 24 8
    let low := if p.dimmed ∧ rate < 5 * dimTh then p.link.lowRuns + 1 else 0
    let high := if 100 * narTh ≤ rate then p.link.highRuns + 1 else 0
    let d := updLink n (fun l => { l with rate := min 65535 rate, lowRuns := low, highRuns := high }) d
    let d := if 10 * dimTh ≤ rate ∧ p.dimmed = false then raise (srcPort n 1) (updPort n (fun p => { p with dimmed := true }) d) else d
    let d := if p.dimmed ∧ 3 ≤ low then
        raise (srcPort n 1) (updLink n (fun l => { l with lowRuns := 0 }) (updPort n (fun p => { p with dimmed := false }) d))
      else d
    let d := if 3 ≤ high ∧ p.lane.lanes = 3 ∧ fld d (LINK n.val + 0x024) 3 1 = 1 ∧ p.lane.phase = 5 ∧ p.lane.nego.isNone then
        raise (srcPort n 1) (propose n 1 (keptLane p.lane) none (updLink n (fun l => { l with highRuns := 0, narrowed := true }) d))
      else d
    clear d

/-! ### Frames that arrive (R325) -/

/-- The body length of a frame type; none for a reserved type. -/
def frameLen (t : Nat) : Option Nat :=
  match t with
  | 1 => some 4 | 2 => some 1 | 3 => some 13 | 4 => some 4 | 5 => some 10 | 6 => some 2
  | 7 => some 5 | 8 => some 14 | 9 => some 9 | 10 => some 1 | _ => none

/-- A hint arrives (R280). -/
def hintIn (n : PortNo) (body : Bytes) (d : Dev) : Dev :=
  let b := leAt body 0 1
  if (port d n).state = 0 then d else updPort n (fun p => { p with hintReq := b % 16, hintRsp := b / 16 }) d

/-- A far end asks for loopback (R344) (DEDUCED, log 59). -/
def loopIn (n : PortNo) (body : Bytes) (d : Dev) : Dev :=
  let l := (port d n).lane
  if l.phase = 7 ∧ l.remoteAllow = true then updLane n (fun l => { l with remoteLooped := bitOf (leAt body 0 1) 0 }) d else d

/-- Is the service lane of a port in TEST under a pattern or a loopback (R343). -/
def svcBusy (l : Lane) : Bool :=
  l.phase == 7 && (((l.gen != 0 || l.chk != 0) && bitOf l.patMask 2) || (l.loopback != 0 && bitOf l.loopMask 2))

/-- A service frame arrives (R325): one whose CRC, control characters or length are wrong and one of a reserved
type are discarded and counted. A port in DOWN takes none; in TEST, only LOOPBACK (DEDUCED, log 14; DEDUCED, log 59). -/
def frameIn (n : PortNo) (fr : Frame) (d : Dev) : Dev :=
  let t := fr.typ.toNat
  let ph := (port d n).lane.phase
  if ph = 0 ∨ svcBusy (port d n).lane = true then d
  else if fr.crc ≠ crc16 (fr.typ :: fr.body) ∨ fr.ctl = true then countErr (LANE n.val + 0x088) 1 d
  else
    match frameLen t with
    | none => countErr (LANE n.val + 0x08C) 1 d
    | some k =>
      if fr.body.length ≠ k then countErr (LANE n.val + 0x088) 1 d
      else if t = 10 then loopIn n fr.body d
      else if ph = 7 then d
      else
        match t with
        | 1 => linkAckIn n fr.body d
        | 2 => hintIn n fr.body d
        | 3 => stampIn n fr.body d
        | 4 => trainReqIn n fr.body d
        | 5 => trainRspIn n fr.body d
        | 6 => trainStateIn n fr.body d
        | 7 => negoIn n fr.body d
        | 8 => identityIn n fr.body d
        | _ => healthIn n fr.body d

/-! ### Frames sent by time -/

/-- TRAIN_STATE every 200 ns outside service and during a retrain (R327). -/
def stateTick (n : PortNo) (d : Dev) : Dev :=
  let p := port d n
  if p.lane.phase = 0 ∨ (p.state ≠ 0 ∧ p.lane.phase = 5) then d else sendState n d

/-- IDENTITY every 1 µs until the peer is seen in EQUALISE (R335). -/
def identityTick (n : PortNo) (d : Dev) : Dev :=
  let l := (port d n).lane
  if l.phase = 2 ∨ (l.phase = 3 ∧ l.peerPhase < 3) then sendIdentity n d else d

/-! ### Test (R343) -/

/-- A PRBS checker locks (R342). Lane 2 is the service lane. -/
def prbsLock (n : PortNo) (i : Nat) (d : Dev) : Dev :=
  let l := (port d n).lane
  if l.phase ≠ 7 ∨ l.chk = 0 ∨ bitOf l.patMask i = false then d
  else if i = 2 then updLane n (fun l => { l with svcChk := true }) d
  else updEnd n i (fun e => { e with chkLock := true }) d

/-! ### Cages (R347, R348) -/

/-- Blinks at `hz` Hz: lit in the first half of each period, counted in scans of 100 µs (DEDUCED, log 61). -/
def blink (scans hz : Nat) : Bool := decide (scans * 2 * hz / 10000 % 2 = 0)

/-- An indicator by its setting (DEDUCED, log 61). -/
def indBit (scans v : Nat) : Bool :=
  match v with | 0 => false | 1 => true | 2 => blink scans 1 | _ => blink scans 4

/-- The four output bits of a cage (DEDUCED, log 61). -/
def cageOut (d : Dev) (n : Nat) : Nat :=
  let p := port d n
  let l := p.lane
  let a := if l.auto then p.state != 0 else indBit d.isb.scans l.indA
  let b := if l.auto then (l.fault || p.dimmed) && blink d.isb.scans 1 else indBit d.isb.scans l.indB
  b2n l.pwrEn + 2 * b2n a + 4 * b2n b

/-- The frame of outputs (R347); a cage with ISB_OK 0 holds its outputs (DEDUCED, log 61). -/
def isbFrame (d : Dev) : BitVec 512 :=
  let out (n : Nat) : Nat := if (port d n).lane.isbOk then cageOut d n else bitsOf d.isb.last.toNat (4 * n) 4
  BitVec.ofNat 512 (sumOf ((List.range 128).map (fun n => out n * 16 ^ n)))

/-- The values of the last `k` scans of one input of a cage, newest first, if they are equal. -/
def steady (ins : List Nat) (bit k : Nat) : Option Bool :=
  let l := (ins.take k).map (fun v => !bitOf v bit)
  match l with
  | [] => none
  | x :: _ => if l.length = k ∧ l.all (· == x) then some x else none

/-- The inputs of a cage are taken (R348). -/
def cageTake (n v : Nat) (d : Dev) : Dev :=
  let l := (port d n).lane
  let ins := (v :: l.cageIn).take 3
  let pres := (steady ins 0 3).getD l.present
  let fault := (steady ins 1 2).getD l.fault
  let but := (steady ins 2 3).getD l.button
  let lock := (l.faultLock || fault) && !(!fault && !pres)
  let pwr := if l.autoPwr then (if pres && !l.present then true else if !pres && l.present then false else l.pwrEn) else l.pwrEn
  let d := updLane n (fun l =>
    { l with cageIn := ins, present := pres, fault := fault, button := but, faultLock := lock, pwrEn := pwr && !lock }) d
  if pres != l.present || fault != l.fault || but != l.button then raise (srcPort n 2) d else d

/-- One scan of the bus (R347, R348): a chain fault clears ISB_OK and holds the outputs. -/
def isbScan (din : BitVec 512) (d : Dev) : Dev :=
  let bad := (List.range 128).any (fun n => !din.getLsbD (4 * n + 3))
  let frame := if bad then d.isb.last else isbFrame d
  let d := { d with isb := { last := frame, scans := d.isb.scans + 1 } }
  let d := emit (.isb frame) d
  if bad then raise (srcWin 0 2) ((List.range 128).foldl (fun d n => updLane n (fun l => { l with isbOk := false }) d) d)
  else (List.range 128).foldl (fun d n => cageTake n (bitsOf din.toNat (4 * n) 4) d) d

/-! ### Draining (R296, R299) -/

/-- PORT_DRAIN: drain, or undrain to LEARNING or ACTIVE by the time in service (R278). -/
def drainPort (n : PortNo) (on : Bool) (d : Dev) : Dev :=
  updPort n (fun p =>
    if on then { p with state := 3 } else { p with state := if d.clk - p.inSince < 64000 then 1 else 2 }) d

end Sys2Proof.Machine
end

