-- ==== Sys2Proof/Machine/HostPort.lean ====
section
/-! DEFINITION. Host ports: destruction of objects, host-loss processing, slots, resets from the host, power
states and wake (R373 to R403). -/

namespace Sys2Proof.Machine

/-! ### Destruction of objects (R396) -/

/-- Destroys an endpoint with its matching context (R168, R396). -/
def destroyEp (e : Nat) (d : Dev) : Dev :=
  let d := tagStop e d
  let d := { d with ept := { d.ept with eps := mdel d.ept.eps e }, mt := { d.mt with ctxs := mdel d.mt.ctxs e } }
  push (.unpark e) (updColl (fun c => { c with binds := c.binds.filter (fun p => decide (p.1 / 2 ≠ e)) }) d)

/-- Destroys a lock domain: its records are freed and their waiters answered (R143, R396). -/
def destroyDomain (n : Nat) (d : Dev) : Dev :=
  let rs := d.clasp.recs.filter (fun p => p.2.domain == n)
  let d := rs.foldl (fun d p =>
    let d := p.2.queue.foldl (fun d c => lockRemoved p.1 0x23 c d) d
    let d := p.2.pend.foldl (fun d rx => refuseRequest rx 0x26 d) d
    lockFree p.1 d) d
  updClasp (fun c => { c with domains := mdel c.domains n }) d

/-- Destroys a collective group. -/
def destroyGroup (g : Nat) (d : Dev) : Dev :=
  let is := (d.coll.insts.filter (fun p => p.2.group == g)).map (·.1)
  updColl (fun c => { c with groups := mdel c.groups g }) (is.foldl (fun d i => instFree i d) d)

/-- Frees a range of counters with its bindings and arming. -/
def freeRange (first count : Nat) (d : Dev) : Dev :=
  let inside (i : Nat) : Bool := decide (first ≤ i) && decide (i < first + count)
  updColl (fun c => { c with
    ranges := mdel c.ranges first
    values := c.values.filter (fun p => !inside p.1)
    armed := c.armed.filter (fun p => !inside p.1)
    binds := c.binds.filter (fun p => !inside p.2) }) d

/-- Destroys a job slot with its segments, cached translations, domains, groups and counters, and stops the DMA
channels that use it (R104, R396, R406). -/
def destroySlot (s : Nat) (d : Dev) : Dev :=
  let d := ((d.clasp.domains.filter (fun p => p.2.slot == s)).map (·.1)).foldl (fun d n => destroyDomain n d) d
  let d := ((d.coll.groups.filter (fun p => p.2.slot == s)).map (·.1)).foldl (fun d g => destroyGroup g d) d
  let d := (d.coll.ranges.filter (fun p => p.2.slot == s)).foldl (fun d p => freeRange p.1 p.2.count d) d
  let d := xlatDrop (fun t => t == s) d
  dmaSlotGone s (updXl (fun x => { x with slots := mdel x.slots s }) d)

/-- The endpoints of functions that satisfy a test. -/
def epsOf (d : Dev) (p : Func → Bool) : List Nat :=
  (d.ept.eps.filter (fun e => (epFunc d e.1).any p)).map (·.1)

/-- Destroys every object of functions that satisfy a test (R396). -/
def destroyObjects (p : Func → Bool) (d : Dev) : Dev :=
  let d := (epsOf d p).foldl (fun d e => destroyEp e d) d
  let d := { d with ept := { d.ept with
    cqs := d.ept.cqs.filter (fun c => !p c.2.f)
    blocks := d.ept.blocks.filter (fun b => !p b.2.f) } }
  let d := ((d.xl.slots.filter (fun s => p s.2.f)).map (·.1)).foldl (fun d s => destroySlot s d) d
  { d with time := { d.time with mirrors := d.time.mirrors.filter (fun m => !p m.2.f) } }

/-! ### Slots and indicators (R391 to R393, R399) -/

/-- The value of a slot state (R392). -/
def SlotState.code : SlotState → Nat
  | .empty => 0
  | .off => 1
  | .powering => 2
  | .on => 3
  | .removing => 4
  | .fault => 5

/-- The value of a loss cause (R394). -/
def LossCause.code : LossCause → Nat
  | .presenceLost => 1
  | .linkDown => 2
  | .powerFault => 3
  | .removed => 4
  | .perst => 5
  | .hotReset => 6
  | .contained => 7
  | .flr => 8
  | .vfDisable => 9

/-- A level of an indicator: 0 dark, 1 lit, 2 blinking at 1 Hz (R393): attention and power. -/
def indicators (x : HostPort) : Nat × Nat :=
  if x.auto then
    (if x.slot = .fault then 1 else 0, if x.slot = .on then 1 else if x.slot = .powering ∨ x.slot = .removing then 2 else 0)
  else (x.attnInd, x.pwrInd)

/-- Changes a slot and drives the pins that change with it. -/
def slotSet (h : Nat) (g : HostPort → HostPort) (d : Dev) : Dev :=
  let a := host d h
  let d := updHost h g d
  let b := host d h
  let d := if a.pwrEn = b.pwrEn then d else emit (.pin "HP_PWREN" h (b2n b.pwrEn)) d
  let d := if (indicators a).1 = (indicators b).1 then d else emit (.pin "HP_ATNIND" h (indicators b).1) d
  if (indicators a).2 = (indicators b).2 then d else emit (.pin "HP_PWRIND" h (indicators b).2) d

/-- Posts a HOST_SLOT event (R399) (DEDUCED, log 75). -/
def slotEvent (h cause fnNum : Nat) (d : Dev) : Dev :=
  let detail := cause + (host d h).slot.code * 2 ^ 8 + fnNum * 2 ^ 16
  (List.range 8).foldl (fun d m =>
    let f := pf (hostNo m)
    if bitOf (host d h).notify m && (host d m).loss.isNone && (eq? d f 0).isSome then eqPost f 0 (event d 8 h detail) d else d) d

/-- A wake condition of a host port (R386) (DEDUCED, log 75). -/
def wake (h : Nat) (d : Dev) : Dev :=
  let p := fn d (mkFunc h 0)
  let d := raise (srcHost h 14) d
  if !p.pmeEn then d
  else if p.d3 then emit (.pme (mkFunc h 0)) (updFn (mkFunc h 0) (fun x => { x with pmeStatus := true }) d)
  else if (host d h).perst then
    let d := updFn (mkFunc h 0) (fun x => { x with pmeStatus := true }) d
    if (host d h).wake then d else emit (.pin "HP_WAKE_N" h 0) (updHost h (fun x => { x with wake := true }) d)
  else d

/-! ### Host-loss processing (R394 to R397) -/

/-- TALLY stops where the function of its ring is lost or may not write (R530). -/
def tallyLost (p : Func → Bool) (d : Dev) : Dev :=
  if fld d (TALLY + 0x020) 0 1 = 1 ∧ p d.tally.f = true then raise (srcWin 5 3) (setFld (TALLY + 0x020) 0 1 0 d) else d

/-- Admin rings of functions stop with cause 0x04; what they have fetched and not begun never begins (R436). -/
def ringsLost (p : Func → Bool) (d : Dev) : Dev :=
  let mine (q : Path) : Bool := match q with
    | .ring f => p f
    | .mailbox => false
  let d := { d with adm := { d.adm with fetched := d.adm.fetched.filter (fun c => !mine c.path) } }
  { d with fns := mmap d.fns (fun k x =>
      if p ⟨hostNo (k / 32), fnNo (k % 32)⟩ && x.adm.en then { x with adm := { x.adm with error := true, cause := 4 } } else x) }

/-- The contents that endpoints of lost functions send: those not released are discarded, the others can be sent
only as their headers (R395). -/
def contentsLost (p : Func → Bool) (d : Dev) : Dev :=
  let mine (c : Content) : Bool := (epFunc d c.ep).any p
  let unsent := (d.xp.contents.filter (fun c => mine c.2 && !c.2.sent)).map (·.1)
  let d := updXp (fun x => { x with contents := mmap x.contents (fun _ c => if mine c then { c with dead := true } else c) }) d
  unsent.foldl (fun d c => dropContent c d) (unqueue unsent d)

/-- Steps 1 to 3 of host-loss processing for the functions that satisfy a test (R395) (DEDUCED, log 75). -/
def lossSteps (p : Func → Bool) (d : Dev) : Dev :=
  let d := tallyLost p (dmaLost p (ringsLost p d))
  let d := npLose p d
  let d := { d with
    ept := { d.ept with cqs := mmap d.ept.cqs (fun _ c => if p c.f then { c with error := true, waiting := [] } else c) }
    fns := mmap d.fns (fun k x =>
      if p ⟨hostNo (k / 32), fnNo (k % 32)⟩ then { x with eqs := mmap x.eqs (fun _ q => { q with error := true, waiting := [] }) } else x) }
  let es := epsOf d p
  let d := es.foldl (fun d e => enterError e 6 d) d
  let d := contentsLost p d
  let d := lockLose (fun a b => isSelf d a && es.contains b) d
  es.foldl (fun d e => sayGone e d) d

/-- The wider of two scopes (R397). -/
def widerScope (a b : LossScope) : LossScope :=
  match a, b with
  | .port, _ => .port
  | _, .port => .port
  | .func v, .func w => if v = w then .func v else if v = 0 ∨ w = 0 then .func 0 else .port
  | .func v, .vfs => if v = 0 then .port else .vfs
  | .vfs, .func w => if w = 0 then .port else .vfs
  | .vfs, .vfs => .vfs

/-- The source that a cause raises (R400). -/
def causeSource (h : Nat) (c : LossCause) (d : Dev) : Dev :=
  match c with
  | .linkDown => raise (srcHost h 0) d
  | .hotReset => raise (srcHost h 0) d
  | .presenceLost => raise (srcHost h 1) d
  | .flr => raise (srcHost h 11) d
  | .vfDisable => raise (srcHost h 11) d
  | .perst => raise (srcHost h 12) d
  | _ => d

/-- Host-loss processing starts, or goes on with a wider scope (R394 to R397): its steps 1 to 3 (DEDUCED, log 75). -/
def lossStart (h : HostNo) (s : LossScope) (c : LossCause) (d : Dev) : Dev :=
  if absentPort d h then d
  else
    let d := causeSource h c d
    let d := match (host d h).loss with
      | none => updHost h (fun x => { x with loss := some ⟨s, c⟩, lastCause := c.code }) d
      | some l => updHost h (fun x => { x with loss := some ⟨widerScope l.scope s, l.cause⟩ }) d
    lossSteps (fun f => decide (f.hp = h) && lostFn d f) d

/-- A function after a reset (R382, R386, R396) (PRESUMED, log 10; DEDUCED, log 75). -/
def fnReset (x : Fn) : Fn := { pmeEn := x.pmeEn, pmeStatus := x.pmeStatus }

/-- The end of a removal (R392): the slot is OFF, and the command that asked for it replies. -/
def removalDone (h : Nat) (d : Dev) : Dev :=
  let x := host d h
  let d := if x.slot = .removing then slotSet h (fun x => { x with slot := .off, pwrEn := false }) d else d
  match x.removal with
  | some (ctx, op) => push (.reply ctx op 0 0 []) (updHost h (fun x => { x with removal := none }) d)
  | none => d

/-- Step 4 of host-loss processing (R395, R396, R399). -/
def lossDestroy (h : HostNo) (d : Dev) : Dev :=
  match (host d h).loss with
  | none => d
  | some l =>
    let p (f : Func) : Bool := decide (f.hp = h) && inScope l.scope f
    let d := destroyObjects p d
    let d := { d with fns := mmap d.fns (fun k x => if p ⟨hostNo (k / 32), fnNo (k % 32)⟩ then fnReset x else x) }
    let wide := match l.scope with
      | .port => true
      | .func v => decide (v = 0)
      | .vfs => false
    let d := updHost h (fun x => { x with loss := none }) d
    let d := if wide then updHost h (fun x => { x with numVfs := 0, vfEn := false, vfBar0 := 0, vfBar2 := 0 }) d else d
    let d := removalDone h d
    let f := match l.cause, l.scope with
      | .flr, .func v => v.val
      | _, _ => 0
    slotEvent h l.cause.code f d

/-! ### Slot events -/

/-- A sled is taken as present (R391, R392). -/
def presenceTaken (h : HostNo) (d : Dev) : Dev :=
  if absentPort d h || (host d h).present then d
  else
    let d := raise (srcHost h 3) (updHost h (fun x => { x with present := true }) d)
    let d := if (host d h).slot = .empty then
        slotSet h (fun x => if x.autoPwr then { x with slot := .powering, pwrEn := true } else { x with slot := .off }) d
      else d
    slotEvent h 0x10 0 d

/-- Absence is taken (R391, R392, R394). -/
def presenceLost (h : HostNo) (d : Dev) : Dev :=
  if absentPort d h || !(host d h).present then d
  else
    let was := (host d h).slot
    let d := raise (srcHost h 3) (updHost h (fun x => { x with present := false, pwrFault := false }) d)
    let d := slotSet h (fun x => { x with slot := .empty, pwrEn := false }) d
    if was = .empty ∨ was = .off then d else lossStart h .port .presenceLost d

/-- A power fault is taken (R391, R392, R394). -/
def powerFaultTaken (h : HostNo) (d : Dev) : Dev :=
  if absentPort d h then d
  else
    let was := (host d h).slot
    let d := raise (srcHost h 2) (updHost h (fun x => { x with pwrFault := true }) d)
    if was = .powering ∨ was = .on ∨ was = .removing then
      lossStart h .port .powerFault (slotSet h (fun x => { x with slot := .fault, pwrEn := false }) d)
    else d

/-- A press of the attention button is taken (R386, R391). -/
def buttonPress (h : HostNo) (d : Dev) : Dev :=
  if absentPort d h then d
  else wake h (slotEvent h 0x11 0 (raise (srcHost h 4) (updHost h (fun x => { x with button := true }) d)))

/-- POWERING has lasted 100 ms without a fault (R392). -/
def poweringDone (h : HostNo) (d : Dev) : Dev :=
  if (host d h).slot = .powering then slotSet h (fun x => { x with slot := .on }) d else d

/-- An ON slot begins its removal (R392, R394). -/
def removalStart (h : HostNo) (ctx : Option (AdminCtx × Nat)) (d : Dev) : Dev :=
  lossStart h .port .removed (slotSet h (fun x => { x with slot := .removing, removal := ctx }) d)

/-! ### Link and resets from the host -/

/-- The link of a host port is down. -/
def linkGone (h : Nat) (d : Dev) : Dev :=
  updHost h (fun x => { x with dl := false, speed := 0, width := 0, flit := false, l1 := false }) d

/-- The data link layer becomes active (R399). -/
def dlActive (h : HostNo) (speed width : Nat) (flit : Bool) (d : Dev) : Dev :=
  if absentPort d h || (host d h).perst then d
  else slotEvent h 0x12 0 (updHost h (fun x => { x with dl := true, speed := speed % 8, width := width % 32, flit := flit }) d)

/-- The data link layer leaves DL_Active (R394). -/
def hostLinkDown (h : HostNo) (d : Dev) : Dev :=
  if absentPort d h || (host d h).perst || !(host d h).dl then d else lossStart h .port .linkDown (linkGone h d)

/-- What a PERST# or Hot Reset does at once (R382, R401, R403): the function configuration set before takes
effect, and every vector is masked (DEDUCED, log 71). -/
def portResetNow (h : HostNo) (d : Dev) : Dev :=
  let d := updHost h (fun x => match x.nextCfg with
    | some (t, p, v) => { x with totalVfs := t, pfVec := p, vfVec := v, nextCfg := none, contained := false }
    | none => { x with contained := false }) d
  let mine (k : Nat) : Bool := decide (k / 32 = h.val)
  linkGone h { d with fns := mmap d.fns (fun k x => if mine k then { x with msix := [] } else x) }

/-- PERST# of a host port is asserted (R385, R394) (DEDUCED, log 75). -/
def perstAssert (h : HostNo) (d : Dev) : Dev :=
  if absentPort d h || (host d h).perst then d
  else portResetNow h (lossStart h .port .perst (updHost h (fun x => { x with perst := true }) d))

/-- PERST# of a host port is deasserted (R386, R398). -/
def perstDeassert (h : HostNo) (d : Dev) : Dev :=
  if absentPort d h || !(host d h).perst then d
  else
    let d := if (host d h).wake then emit (.pin "HP_WAKE_N" h 1) d else d
    updHost h (fun x => { x with perst := false, wake := false }) d

/-- A Hot Reset is received (R394) (DEDUCED, log 75). -/
def hotReset (h : HostNo) (d : Dev) : Dev :=
  if absentPort d h then d else portResetNow h (lossStart h .port .hotReset d)

/-- A function-level reset (R382, R394). -/
def flr (f : Func) (d : Dev) : Dev :=
  if absentPort d f.hp then d
  else updFn f (fun x => { x with msix := [] }) (lossStart f.hp (.func f.fn) .flr d)

/-- VF Enable is cleared (R394). -/
def vfDisable (h : HostNo) (d : Dev) : Dev :=
  if absentPort d h then d else lossStart h .vfs .vfDisable (updHost h (fun x => { x with vfEn := false }) d)

/-- A function enters D3hot (R385) (DESIGN CHOICE, log 11). -/
def d3hotEntry (f : Func) (d : Dev) : Dev :=
  if absentPort d f.hp || (fn d f).d3 then d
  else lossSteps (fun g => decide (g = f)) (updFn f (fun x => { x with d3 := true }) d)

/-- A function returns to D0 (R385) (DESIGN CHOICE, log 11). -/
def returnToD0 (f : Func) (d : Dev) : Dev := updFn f (fun x => { x with d3 := false }) d

/-- Bus Master Enable of a function becomes 0 (R530, R540) (DESIGN CHOICE, log 11). -/
def busMasterDisable (f : Func) (d : Dev) : Dev :=
  tallyLost (fun g => decide (g = f)) (updFn f (fun x => { x with bme := false }) d)

/-- A condition that held back a vector clears (R383). -/
def msixUnmask (f : Func) (v : Nat) (c : MsixCond) (d : Dev) : Dev :=
  let d := match c with
    | .mask => updFn f (fun x => { x with msix := mset x.msix v { (mget x.msix v).getD {} with mask := false } }) d
    | .functionMask => updFn f (fun x => { x with fnMask := false }) d
    | .enable => updFn f (fun x => { x with msixEn := true }) d
    | .busMaster => updFn f (fun x => { x with bme := true }) d
  let vs := if c = .mask then [v] else (fn d f).msix.map (·.1)
  vs.foldl (fun d v => if ((mget (fn d f).msix v).getD {}).pend && !msixBlocked d f v then msixSend f v d else d) d

/-- A correctable link error (R400). -/
def correctableLinkError (h : HostNo) (d : Dev) : Dev :=
  if absentPort d h then d else raise (srcHost h 9) (emit (.aer (pf h) "Correctable Link Error") d)

/-- An uncorrectable error in a host controller's storage (R400). -/
def controllerUncorrectable (h : HostNo) (d : Dev) : Dev :=
  if absentPort d h then d else raise (srcHost h 10) d

/-! ### Registers that show a host port (R374, R402) -/

def hostCfgReg (d : Dev) (h : Nat) : Nat :=
  let x := host d h
  if x.mode = 0 then 0 else x.mode + x.totalVfs * 2 ^ 8

def hostVecReg (d : Dev) (h : Nat) : Nat := (host d h).pfVec + (host d h).vfVec * 2 ^ 16

def hostLinkReg (d : Dev) (h : Nat) : Nat :=
  let x := host d h
  x.speed + b2n x.flit * 8 + x.width * 16 + b2n x.dl * 2 ^ 9 + b2n x.l1 * 2 ^ 10 + b2n x.perst * 2 ^ 11

def hostFuncReg (d : Dev) (h : Nat) : Nat :=
  let x := host d h
  let p := fn d (mkFunc h 0)
  x.numVfs + b2n x.vfEn * 2 ^ 5 + (if p.d3 then 3 else 0) * 2 ^ 6 + b2n p.bme * 2 ^ 8

def hostSlotReg (d : Dev) (h : Nat) : Nat :=
  let x := host d h
  x.slot.code + b2n x.present * 8 + b2n x.pwrEn * 16 + b2n x.pwrFault * 32 + b2n x.button * 64 + x.attnInd * 2 ^ 8
    + x.pwrInd * 2 ^ 10 + b2n x.auto * 2 ^ 12 + b2n x.autoPwr * 2 ^ 13 + x.notify * 2 ^ 16 + x.lastCause * 2 ^ 24

end Sys2Proof.Machine
end

