-- ==== Sys2Proof/Machine/Admin.lean ====
section
/-! DEFINITION. Admin commands: their checks, their beginning and their replies, on every path (R427 to R436). -/

namespace Sys2Proof.Machine

/-- What carrying out a command gives: a reply with its STATUS, REASON and result, or a reply that comes with a
later event (R434). -/
inductive Ans where
  | reply (status reason : Nat) (data : Bytes)
  | later
deriving DecidableEq, Repr, Inhabited

/-- An admin command of the table: its opcode, the longest result if it needs a record, whether a reserved bit of
a structure among its parameters is nonzero (R432, order 2), whether a VF may issue it and the host port that must be its own, the host port that must be a PF path's (R418, R429),
the functions of the objects that it names (none for one that does not exist), the objects that commands in
progress exclude (R433), the refusals of R432, order 5, whether it waits for its objects or answers BUSY (R299), and
its effect (DEDUCED, log 30; DESIGN CHOICE, log 33). -/
structure AdmCmd where
  op : Nat
  recLen : Nat := 0
  rsv : List Nat → Bool := fun _ => false
  vf : Bool := false
  vfPort : List Nat → Option Nat := fun _ => none
  port : List Nat → Dev → Option Nat := fun _ _ => none
  who : List Nat → Dev → List (Option Func) := fun _ _ => []
  objs : List Nat → List (Nat × Nat) := fun _ => []
  mode : Dev → Option (Nat × Nat) := fun _ => none
  waits : Bool := true
  run : AdminJob → Dev → Ans × Dev

/-- The sizes and alignments of a command's parameters (R429). -/
def AdmCmd.sizes (m : AdmCmd) : List (Nat × Nat) := sizesOf m.op

/-- A parameter of a command by its place in the table. -/
def AdminJob.p (j : AdminJob) (i : Nat) : Nat := j.params.getD i 0

/-- "None" in a parameter of a size (R429) (DESIGN CHOICE, log 28). -/
def noneOf (size v : Nat) : Option Nat := if v = 256 ^ size - 1 then none else some v

/-- SUCCESS without a result; with one. -/
def success (d : Dev) : Ans × Dev := (.reply 0 0 [], d)
def result (bs : Bytes) (d : Dev) : Ans × Dev := (.reply 0 0 bs, d)

/-- A refusal that leaves the device unchanged (R432). -/
def refusal (status : Nat) (d : Dev) : Ans × Dev := (.reply status 0 [], d)

/-- CONSISTENCY with its reason (R426). -/
def inconsistent (reason : Nat) (d : Dev) : Ans × Dev := (.reply 6 reason [], d)

/-- The effect of a command unless one of its refusals holds: the first in the order written (R432, orders 7
and 8). -/
def checked (rs : List (Bool × Nat)) (k : Dev → Ans × Dev) (d : Dev) : Ans × Dev :=
  match firstReason rs with
  | some s => refusal s d
  | none => k d

/-! ### Replies -/

/-- The 32 bytes of a reply (R430). -/
def replyBytes (c : AdminCtx) (op status reason : Nat) (res : Bytes) (phase : Bool) : Bytes :=
  toLe 2 op ++ toLe 2 status ++ toLe 4 c.seq ++ toLe 2 (match c.path with | .ring _ => c.index | .mailbox => 0)
    ++ toLe 2 reason ++ padTo 16 res ++ zeros 3 ++ toLe 1 (if phase then 0x80 else 0)

/-- Counts a reply on its path (R440). -/
def countReply (p : Path) (status : Nat) (d : Dev) : Dev :=
  let s := (aget d.adm.stats p).getD (0, 0)
  { d with adm := { d.adm with stats := aset d.adm.stats p (s.1 + 1, s.2 + b2n (status != 0)) } }

/-- A command is no longer in progress. -/
def jobGone (c : AdminCtx) (op : Nat) (d : Dev) : Dev :=
  match d.adm.running.find? (fun j => decide (j.ctx = c) && decide (j.op = op)) with
  | none => d
  | some j => { d with adm := { d.adm with running := d.adm.running.erase j } }

/-- Hands a strand of this device's own to routing (R284): its cells, its place in the Hearth (DEDUCED, log 35). -/
def sendOwn (st : Strand) (d : Dev) : Dev :=
  let n := cellsOf st.hdr
  let (i, d) := newId (takeGeneral n d)
  routeEnt { st := st, id := i, t0 := d.clk, age := d.clk, cells := n } d

/-- Answers a management strand of header `h` (R441, R443): unsequenced, on VN_RSP, in the class of what it answers. -/
def mgmtAnswer (h : Hdr) (op opw : Nat) (data : Bytes) (d : Dev) : Dev :=
  let (n, d) := fresh d
  let hdr := { mgmtHdr d n h.srcDa.toNat op opw with tc := h.tc, len := BitVec.ofNat 13 data.length }
  sendOwn (mkStrand hdr (if data = [] then [] else [⟨data, false⟩])) d

/-- The mailbox takes a reply (R439); a remote command's goes to its sender as well (R443) (DEDUCED, log 26). -/
def mailboxReply (bs : Bytes) (d : Dev) : Dev :=
  let d := { d with mnt := { d.mnt with rsp := bs, busy := false, done := true } }
  match d.mnt.remote with
  | none => d
  | some h => mgmtAnswer h 0x81 0 bs { d with mnt := { d.mnt with remote := none } }

/-- May a ring's writes still be made (R430, R436). -/
def ringWrites (d : Dev) (f : Func) : Bool :=
  let a := (fn d f).adm
  a.live && !lostFn d f && !(a.error && a.cause == 4)

/-- Stops an admin ring with ERROR (R436) (DEDUCED, log 32). -/
def ringStop (f : Func) (cause : Nat) (d : Dev) : Dev :=
  updFn f (fun x => if x.adm.error then x else { x with adm := { x.adm with error := true, cause := cause } }) d

/-- Writes a reply on a ring (R429, R430): the record first, then bytes 0 to 30, then byte 31 (DEDUCED, log 26). -/
def ringReply (f : Func) (c : AdminCtx) (op status reason : Nat) (data : Bytes) (d : Dev) : Dev :=
  let a := (fn d f).adm
  let big := decide (16 < data.length)
  let bs := replyBytes c op status reason (if big then [] else data) (decide (a.replied / 2 ^ a.lSize % 2 = 0))
  let at_ := a.lRsp + 32 * (a.replied % 2 ^ a.lSize)
  let ok := (fn d f).bme
  let d := if big then hostWrite f c.replyData data false false d else d
  let d := hostWrite f (at_ + 31) (bs.drop 31) false false (hostWrite f at_ (bs.take 31) false false d)
  if !ok then ringStop f 2 d
  else
    let d := updFn f (fun x => { x with adm := { x.adm with replied := (x.adm.replied + 1) % 2 ^ 32 } }) d
    if c.intr && a.lVecEn then msixRequest f a.lVec d else d

/-- The reply of a command (R430, R436, R439) (DEDUCED, log 26). -/
def replyOut (c : AdminCtx) (op status reason : Nat) (data : Bytes) (d : Dev) : Dev :=
  let d := countReply c.path status (jobGone c op d)
  match c.path with
  | .mailbox =>
    let big := decide (16 < data.length)
    let d := if big then { d with mnt := { d.mnt with data := cellsWrite d.mnt.data c.replyData data } } else d
    mailboxReply (replyBytes c op status reason (if big then [] else data) true) d
  | .ring f => if ringWrites d f then ringReply f c op status reason data d else d

/-! ### Checks (R432) -/

/-- Does a path exist: the mailbox, or a function of a host port that is not absent (R376). -/
def pathExists (d : Dev) (p : Path) : Bool :=
  match p with
  | .mailbox => true
  | .ring f => !absentPort d f.hp && decide (f.fn.val ≤ (host d f.hp).totalVfs)

/-- Order 3: is the command, with the objects it names, within the rights of the path (DEDUCED, log 30). -/
def permitted (m : AdmCmd) (j : AdminJob) (d : Dev) : Bool :=
  match j.ctx.path with
  | .mailbox => true
  | .ring f =>
    (match m.port j.params d with | some h => decide (h = f.hp.val) | none => true)
      && (decide (f.fn = 0) || (m.vf && (m.vfPort j.params).all (fun h => decide (h = f.hp.val)) && (m.who j.params d).all (fun g => decide (g = some f))))

/-- The opcodes that the Kiln ROM serves (R468). -/
def romServes (op : Nat) : Bool :=
  op / 256 == 0x01 || op / 256 == 0x0E || (decide (0x0801 ≤ op) && decide (op ≤ 0x0813)) || op == 0x0F01 || op == 0x0F10

/-- The opcodes served on the fatal path (R520). -/
def fatalServes (op : Nat) : Bool := op == 0x0101 || op == 0x0E01 || op == 0x0E31 || op == 0x0F01 || op == 0x0F10

/-- Order 5 (DEDUCED, log 25). -/
def modeRefusal (m : AdmCmd) (d : Dev) : Option (Nat × Nat) :=
  if d.flt.fatal.isSome && !fatalServes m.op then some (5, 0)
  else if curMode d == 3 && !d.boot.image && !romServes m.op then some (5, 0)
  else m.mode d

/-- Order 6: does REPLY_DATA break R429 for a command that needs a record. -/
def recordBad (m : AdmCmd) (c : AdminCtx) (d : Dev) : Bool :=
  m.recLen != 0 && (c.replyData == 0 || c.replyData % 8 != 0 ||
    (match c.path with
      | .mailbox => decide (0x10000 < c.replyData + m.recLen)
      | .ring f => hitsBar d f.hp c.replyData m.recLen))

/-- Does the command name an object of a scope whose host-loss processing runs, from outside it (R397) (DEDUCED, log 30). -/
def namesLost (m : AdmCmd) (j : AdminJob) (d : Dev) : Bool :=
  (m.who j.params d).any (fun g => match g with
    | some f => lostFn d f && decide (j.ctx.path ≠ .ring f)
    | none => false)

/-- Carries out a command that begins (R432) (DEDUCED, log 25). -/
def adminBegin (m : AdmCmd) (j : AdminJob) (d : Dev) : Dev :=
  let d := { d with adm := { d.adm with running := d.adm.running ++ [j] } }
  let r : Ans × Dev :=
    if m.rsv j.params then refusal 2 d
    else if !permitted m j d then refusal 5 d
    else match modeRefusal m d with
      | some (s, why) => (.reply s why [], d)
      | none => if recordBad m j.ctx d then refusal 2 d else if namesLost m j d then refusal 4 d else m.run j d
  match r.1 with
  | .reply s why data => push (.reply j.ctx m.op s why data) r.2
  | .later => r.2

/-! ### Beginning in order (R433) -/

/-- The bytes of a command (R428). -/
def commandBytes (m : AdmCmd) (c : AdminCtx) (ps : List Nat) : Bytes :=
  let body := ((packOffsets 8 m.sizes).zip ps).foldl (fun bs p => patch bs p.1.1 (toLe p.1.2 p.2)) (zeros 64)
  patch (patch (patch (patch body 0 (toLe 2 m.op)) 2 (toLe 1 (2 * b2n c.intr))) 4 (toLe 4 c.seq)) 56 (toLe 8 c.replyData)

/-- Are a path's and the device's bounds on commands in progress reached (R433). -/
def tooMany (d : Dev) (p : Path) : Bool :=
  decide (64 ≤ d.adm.running.length) || decide (8 ≤ (d.adm.running.filter (fun j => decide (j.ctx.path = p))).length)

/-- May a command begin: no command in progress names one of its objects (DEDUCED, log 25; DEDUCED, log 31). -/
def clashes (cmds : List AdmCmd) (m : AdmCmd) (ps : List Nat) (d : Dev) : Bool :=
  m.waits && d.adm.running.any (fun j =>
    match cmds.find? (fun x => decide (x.op = j.op)) with
    | none => false
    | some x => (x.objs j.params).any (fun o => (m.objs ps).contains o))

/-- The parameters as their fields hold them (DESIGN CHOICE, log 28). -/
def fieldsOf (m : AdmCmd) (ps : List Nat) : List Nat := (m.sizes.zip ps).map (fun p => p.2 % 256 ^ p.1.1)

/-- The fields of a command's other parts as they are held. -/
def ctxOf (c : AdminCtx) : AdminCtx :=
  { c with seq := c.seq % 2 ^ 32, index := c.index % 2 ^ 16, replyData := c.replyData % 2 ^ 64 }

/-- A row of the table: the command is carried out at once, or waits as a fetched command while one in progress
names the same object or a bound is reached (R433). A path that does not exist carries none (DEDUCED, log 25). -/
def adminRow (cmds : List AdmCmd) (m : AdmCmd) (c : AdminCtx) (ps : List Nat) (d : Dev) : Dev :=
  let ps := fieldsOf m ps
  let c := ctxOf c
  if !pathExists d c.path then d
  else if tooMany d c.path || clashes cmds m ps d then
    { d with adm := { d.adm with fetched := d.adm.fetched ++ [{ path := c.path, index := c.index, bytes := commandBytes m c ps }] } }
  else adminBegin m { ctx := c, op := m.op, params := ps } d

/-- The parts of a command of 64 bytes that every opcode has. -/
def fetchedCtx (x : Fetched) : AdminCtx :=
  { path := x.path, seq := leAt x.bytes 4 4, index := x.index, intr := bitOf (leAt x.bytes 2 1) 1, replyData := leAt x.bytes 56 8 }

/-- Is a reserved bit or byte of a command nonzero (R428, R429) (DEDUCED, log 32). -/
def reservedBytes (m : AdmCmd) (bs : Bytes) : Bool :=
  let os := packOffsets 8 m.sizes
  decide (4 ≤ leAt bs 2 1) || leAt bs 3 1 != 0 ||
    (bs.take 56).zipIdx.any (fun p => decide (8 ≤ p.2) && p.1 != 0 && !os.any (fun o => decide (o.1 ≤ p.2) && decide (p.2 < o.1 + o.2)))

/-- A fetched command begins: orders 1 and 2 of R432, then the rest (DEDUCED, log 32). -/
def fetchedGo (cmds : List AdmCmd) (x : Fetched) (d : Dev) : Dev :=
  let c := fetchedCtx x
  let op := leAt x.bytes 0 2
  match cmds.find? (fun m => decide (m.op = op)) with
  | none => push (.reply c op 1 0 []) d
  | some m =>
    if reservedBytes m x.bytes then push (.reply c op 2 0 []) d
    else adminBegin m { ctx := c, op := op, params := (packOffsets 8 m.sizes).map (fun o => leAt x.bytes o.1 o.2) } d

/-- The first fetched command of a path and the others. -/
def takeFetched (d : Dev) (p : Path) : Option Fetched × Dev :=
  match d.adm.fetched.find? (fun x => decide (x.path = p)) with
  | none => (none, d)
  | some x => (some x, { d with adm := { d.adm with fetched := d.adm.fetched.erase x } })

/-- ADMIN_COMMAND_BEGIN (R433): the first fetched command of a path begins if it may; none does before step 8 of boot
(R467). -/
def commandBegin (cmds : List AdmCmd) (p : Path) (d : Dev) : Dev :=
  match takeFetched d p with
  | (none, _) => d
  | (some x, d') =>
    let early := decide (fld d (GLB + 0x028) 0 3 < 4)
    let fence := bitOf (leAt x.bytes 2 1) 0 && d.adm.running.any (fun j => decide (j.ctx.path = p))
    let clash := match cmds.find? (fun m => decide (m.op = leAt x.bytes 0 2)) with
      | none => false
      | some m => clashes cmds m ((packOffsets 8 m.sizes).map (fun o => leAt x.bytes o.1 o.2)) d
    if early || fence || clash || tooMany d p then d else fetchedGo cmds x d'

/-- ADMIN_TIMEOUT (R434): the first fetched command of a path could not begin within 1 ms. -/
def commandTimeout (p : Path) (d : Dev) : Dev :=
  match takeFetched d p with
  | (none, _) => d
  | (some x, d) => push (.reply (fetchedCtx x) (leAt x.bytes 0 2) 7 0 []) d

/-! ### Admin rings and the mailbox (R435, R436, R439) -/

/-- A ring is enabled (R435): it latches BASE and CFG, and checks SIZE and VECTOR. -/
def ringEnable (f : Func) (d : Dev) : Dev :=
  let a := (fn d f).adm
  let size := bitsOf a.cfg 0 4
  let vec := bitsOf a.cfg 8 11
  let vecEn := bitOf a.cfg 19
  let most := if f.fn = 0 then (host d f.hp).pfVec else (host d f.hp).vfVec
  let bad := decide (size < 4) || decide (12 < size) || (vecEn && decide (most ≤ vec))
  updFn f (fun x => { x with adm := { x.adm with
    en := true, lCmd := a.cmdBase, lRsp := a.rspBase, lSize := size, lVec := vec, lVecEn := vecEn
    tail := 0, rspHead := 0, fetched := 0, replied := 0, error := bad, cause := if bad then 3 else 0
    live := x.adm.live || !bad } }) d

/-- A ring is disabled (R436): fetching stops and the error is cleared. -/
def ringDisable (f : Func) (d : Dev) : Dev :=
  updFn f (fun x => { x with adm := { x.adm with en := false, error := x.adm.error && x.adm.cause == 4, cause := if x.adm.error && x.adm.cause == 4 then 4 else 0 } }) d

/-- Are commands fetched now (R466, R468, R520). -/
def fetching (d : Dev) (f : Func) : Bool :=
  decide (4 ≤ fld d (GLB + 0x028) 0 3) && !frozen d && (decide (f.fn = 0) || d.boot.image)

/-- ADMIN_COMMAND_FETCH (R435) (DEDUCED, log 32). -/
def commandFetch (f : Func) (d : Dev) : Dev :=
  let a := (fn d f).adm
  let ahead := toSigned 16 ((a.tail + 2 ^ 16 - a.fetched % 2 ^ 16) % 2 ^ 16)
  let used := (a.replied % 2 ^ 16 + 2 ^ 16 - a.rspHead) % 2 ^ 16
  if !a.en || a.error || !fetching d f || decide (ahead ≤ 0) || decide (2 ^ a.lSize ≤ used) then d
  else
    let d := updFn f (fun x => { x with adm := { x.adm with fetched := (x.adm.fetched + 1) % 2 ^ 16 } }) d
    hostRead f (a.lCmd + 64 * (a.fetched % 2 ^ a.lSize)) 64 (.adminFetch f (a.fetched % 2 ^ 16)) d

/-- The read of a command returns (R436). -/
def fetchDone (f : Func) (i : Nat) (r : HRead) (d : Dev) : Dev :=
  let a := (fn d f).adm
  if r.status = .ok then
    if a.error && a.cause == 4 then d
    else { d with adm := { d.adm with fetched := d.adm.fetched ++ [{ path := .ring f, index := i % 2 ^ a.lSize, bytes := r.bytes }] } }
  else if lostFn d f then d
  else ringStop f 1 d

/-- MBX_GO (R439). -/
def mailboxGo (d : Dev) : Dev :=
  if d.mnt.busy then { d with mnt := { d.mnt with ignored := d.mnt.ignored + 1 } }
  else
    { d with
      mnt := { d.mnt with busy := true }
      adm := { d.adm with fetched := d.adm.fetched ++ [{ path := .mailbox, index := 0, bytes := d.mnt.cmd }] } }

/-- Reads what a command needs from the path's host port or from MBX.DATA (R299, R439, R489); `k` proceeds when
the data is there. On the mailbox the range must lie within MBX.DATA. -/
def adminRead (j : AdminJob) (addr len : Nat) (k : AdminJob → Option Bytes → Dev → Ans × Dev) (tag : Nat) (d : Dev) : Ans × Dev :=
  match j.ctx.path with
  | .mailbox => if 0x10000 < addr + len then refusal 2 d else k j (some (cellsRead d.mnt.data addr len)) d
  | .ring f => (.later, hostRead f addr len (.admin j tag) d)

end Sys2Proof.Machine
end

