-- ==== Sys2Proof/Machine/AdmEp.lean ====
section
/-! DEFINITION. The admin commands of endpoints, CQs, EQs and translation (R92, R93, R116). -/

namespace Sys2Proof.Machine

/-- The function that a function byte names (R429). -/
def byteFunc (b : Nat) : Func := mkFunc (b / 32) (b % 32)

/-- Does a function exist (R374, R376): its host port is not absent and has that VF. -/
def funcExists (d : Dev) (h v : Nat) : Bool := !absentPort d h && decide (v ≤ (host d h).totalVfs) && decide (v < 32)

/-- Is a bus address of 52 bits and aligned (DEDUCED, log 29). -/
def busOk (a align : Nat) : Bool := a % align == 0 && decide (a < 2 ^ 52)

/-- A Bool parameter out of its range (DESIGN CHOICE, log 28). -/
def notFlag (v : Nat) : Bool := decide (1 < v)

/-! ### Endpoint blocks -/

/-- EP_BLOCK_ASSIGN (R56, R92). -/
def epBlockAssignDo (j : AdminJob) (d : Dev) : Ans × Dev :=
  checked
    [(decide (16384 ≤ j.p 0), 2), (!funcExists d (j.p 1) (j.p 2), 2), (!busOk (j.p 4) 16384, 2),
     (hitsBar d (j.p 1) (j.p 4) 16384, 2), (mhas d.ept.blocks (j.p 0), 4)]
    (fun d => success { d with ept := { d.ept with
      blocks := mset d.ept.blocks (j.p 0) { f := mkFunc (j.p 1) (j.p 2), job := j.p 3, backing := j.p 4 } } }) d

def epBlockAssignCmd : AdmCmd :=
  { op := 0x0201, vf := true, who := fun ps _ => [if ps.getD 1 0 < 8 ∧ ps.getD 2 0 < 32 then some (mkFunc (ps.getD 1 0) (ps.getD 2 0)) else none]
    run := epBlockAssignDo }

/-- EP_BLOCK_RELEASE (R92). -/
def epBlockReleaseDo (j : AdminJob) (d : Dev) : Ans × Dev :=
  checked [(!mhas d.ept.blocks (j.p 0), 2), (d.ept.eps.any (fun p => decide (p.1 / 64 = j.p 0)), 5)]
    (fun d => success { d with ept := { d.ept with blocks := mdel d.ept.blocks (j.p 0) } }) d

def epBlockReleaseCmd : AdmCmd :=
  { op := 0x0202, vf := true, who := fun ps d => [(mget d.ept.blocks (ps.getD 0 0)).map (·.f)], run := epBlockReleaseDo }

/-! ### Endpoints -/

/-- The function of an existing endpoint. -/
def epWho (ps : List Nat) (d : Dev) : List (Option Func) :=
  [if (ep? d (ps.getD 0 0)).isSome then epFunc d (ps.getD 0 0) else none]

/-- The endpoint that a command names, as its object. -/
def epObj (ps : List Nat) : List (Nat × Nat) := [(0, ps.getD 0 0)]

/-- EP_CREATE and EP_ENABLE are not permitted in RECOVERY (R476). -/
def notInRecovery (d : Dev) : Option (Nat × Nat) := if curMode d = 3 then some (5, 0) else none

/-- Does a CQ of a function exist. -/
def cqOf (d : Dev) (c : Nat) (f : Func) : Bool := (cq? d c).any (fun x => decide (x.f = f))

/-- Is the receive ring of EP_CREATE "none" (R64, R429). -/
def noRing (base n : Nat) : Bool := base == 2 ^ 64 - 1 && n == 255

/-- A ring's base and size are out of range (R64) (DEDUCED, log 29). -/
def ringBad (base n : Nat) : Bool := base % 4096 != 0 || decide (n < 4) || decide (16 < n)

/-- EP_CREATE (R59, R64, R79, R85, R88, R92) (DEDUCED, log 29). -/
def epCreateDo (j : AdminJob) (d : Dev) : Ans × Dev :=
  let e := j.p 0
  let none_ := noRing (j.p 4) (j.p 5)
  match blockOf d e with
  | none => refusal 2 d
  | some b =>
    checked
      [(decide (2 ^ 20 ≤ e), 2), (decide (1 < j.p 1), 2), (ringBad (j.p 2) (j.p 3), 2),
       (!none_ && ringBad (j.p 4) (j.p 5), 2), (notFlag (j.p 9) || notFlag (j.p 10), 2),
       (!cqOf d (j.p 6) b.f || !cqOf d (j.p 7) b.f, 2), ((eq? d b.f 0).isNone || (eq? d b.f (j.p 8)).isNone, 2),
       ((ep? d e).isSome, 4), (j.p 9 == 1 && decide (49152 ≤ pinnedCount d), 3),
       (j.p 10 == 1 && decide (4096 ≤ (d.ept.eps.filter (fun p => p.2.poll)).length), 3)]
      (fun d =>
        let x : Ep := { typ := j.p 1, send := { base := j.p 2, n := j.p 3 }
                        recv := if none_ then none else some { base := j.p 4, n := j.p 5 }
                        sCq := j.p 6, rCq := j.p 7, eq := j.p 8, pin := j.p 9 == 1, poll := j.p 10 == 1, used := d.clk }
        let d := makeRoom d
        success { d with ept := { d.ept with eps := mset d.ept.eps e x } }) d

def epCreateCmd : AdmCmd :=
  { op := 0x0210, vf := true, who := fun ps d => [epFunc d (ps.getD 0 0)], objs := epObj, mode := notInRecovery, run := epCreateDo }

/-- A command on an existing endpoint in one of the states that permit it (R61). -/
def onEp (j : AdminJob) (ok : EpState → Bool) (k : Nat → Ep → Dev → Ans × Dev) (d : Dev) : Ans × Dev :=
  match ep? d (j.p 0) with
  | none => refusal 2 d
  | some x => if ok x.state then k (j.p 0) x d else refusal 5 d

/-- EP_ENABLE (R61). -/
def epEnableDo (j : AdminJob) (d : Dev) : Ans × Dev :=
  onEp j (· == .reset) (fun e _ d => success (updEp e (fun x => { x with state := .ready }) d)) d

def epEnableCmd : AdmCmd := { op := 0x0211, vf := true, who := epWho, objs := epObj, mode := notInRecovery, run := epEnableDo }

/-- EP_DISABLE (R61, R92): it replies when DRAINING is entered. -/
def epDisableDo (j : AdminJob) (d : Dev) : Ans × Dev :=
  onEp j (fun s => s == .ready || s == .active)
    (fun e _ d => success (updEp e (fun x => { x with state := .draining, bellPend := false }) d)) d

def epDisableCmd : AdmCmd := { op := 0x0212, vf := true, who := epWho, objs := epObj, run := epDisableDo }

/-- Are completions of an endpoint waiting for room in its CQs (R61, R83). -/
def flushPending (d : Dev) (e : Nat) : Bool := d.ept.cqs.any (fun c => c.2.waiting.any (fun w => decide (w.ep = e)))

/-- EP_RESET (R61, R63): once every FLUSHED completion has been written, the notices go out and the endpoint is
in RESET. -/
def epResetDo (j : AdminJob) (d : Dev) : Ans × Dev :=
  onEp j (· == .error) (fun e _ d => if flushPending d e then (.later, d) else success (drained e (sayGone e d))) d

def epResetCmd : AdmCmd := { op := 0x0213, vf := true, who := epWho, objs := epObj, run := epResetDo }

/-- EP_DESTROY (R61, R63, R168). -/
def epDestroyDo (j : AdminJob) (d : Dev) : Ans × Dev :=
  onEp j (· == .reset) (fun e _ d => success (destroyEp e (sayGone e d))) d

def epDestroyCmd : AdmCmd := { op := 0x0214, vf := true, who := epWho, objs := epObj, run := epDestroyDo }

/-- The value of an endpoint state (R60). -/
def EpState.code : EpState → Nat
  | .reset => 0
  | .ready => 1
  | .active => 2
  | .draining => 3
  | .error => 4

/-- EP_QUERY (R92): state, cause, latched ring index (none: all ones), the heads and passes of the send and the
receive ring, residency (DESIGN CHOICE, log 27). -/
def epQueryDo (j : AdminJob) (d : Dev) : Ans × Dev :=
  onEp j (fun _ => true) (fun _ x d =>
    let headOf (r : Option Ring) : Nat := ((r.map (fun r => r.head % 2 ^ r.n)).getD 0xFFFF)
    let passOf (r : Option Ring) : Nat := ((r.map (fun r => r.head / 2 ^ r.n % 2 ^ 32)).getD 0xFFFFFFFF)
    result (packVals [(1, x.state.code), (1, x.cause), (2, (x.latched.map (· % 2 ^ 16)).getD 0xFFFF),
      (2, headOf (some x.send)), (4, passOf (some x.send)), (2, headOf x.recv), (4, passOf x.recv),
      (1, b2n x.resident)]) d) d

def epQueryCmd : AdmCmd := { op := 0x0215, recLen := 24, vf := true, who := epWho, objs := epObj, run := epQueryDo }

/-! ### Completion queues -/

def cqWho (ps : List Nat) (d : Dev) : List (Option Func) := [(cq? d (ps.getD 0 0)).map (·.f)]
def cqObj (ps : List Nat) : List (Nat × Nat) := [(1, ps.getD 0 0)]

/-- The host port of a function byte at a place (R429). -/
def bytePort (i : Nat) (ps : List Nat) (_ : Dev) : Option Nat := some (ps.getD i 0 / 32)

/-- CQ_CREATE (R79, R84, R85, R88, R92) (DEDUCED, log 29). -/
def cqCreateDo (j : AdminJob) (d : Dev) : Ans × Dev :=
  let f := byteFunc (j.p 1)
  let eq := noneOf 2 (j.p 5)
  checked
    [(!funcExists d (j.p 1 / 32) (j.p 1 % 32), 2), (!busOk (j.p 2) 4096, 2), (decide (j.p 3 < 6) || decide (20 < j.p 3), 2),
     (!busOk (j.p 4) 4, 2), (notFlag (j.p 6) || notFlag (j.p 7), 2), ((eq? d f 0).isNone, 2),
     (eq.any (fun q => (eq? d f q).isNone), 2), ((cq? d (j.p 0)).isSome, 4), (decide (49152 ≤ pinnedCount d), 3)]
    (fun d =>
      let x : Cq := { f := f, base := j.p 2, n := j.p 3, head := j.p 4, eq := eq, armed := j.p 6 == 1, whole := j.p 7 == 1 }
      let d := makeRoom d
      success { d with ept := { d.ept with cqs := mset d.ept.cqs (j.p 0) x } }) d

def cqCreateCmd : AdmCmd :=
  { op := 0x0220, vf := true, port := bytePort 1, who := fun ps _ => [some (byteFunc (ps.getD 1 0))], objs := cqObj, run := cqCreateDo }

/-- CQ_RESET (R93). -/
def cqResetDo (j : AdminJob) (d : Dev) : Ans × Dev :=
  let c := j.p 0
  checked
    [((cq? d c).isNone, 2),
     ((epsOfCq d c).any (fun e => (ep? d e).any (fun x => x.state == .ready || x.state == .active || x.state == .draining)), 5)]
    (fun d => success (updCq c (fun x => { x with wr := 0, cached := 0, error := false, reading := false, waiting := [] }) d)) d

def cqResetCmd : AdmCmd := { op := 0x0221, vf := true, who := cqWho, objs := cqObj, run := cqResetDo }

/-- CQ_DESTROY (R92). -/
def cqDestroyDo (j : AdminJob) (d : Dev) : Ans × Dev :=
  checked [((cq? d (j.p 0)).isNone, 2), (epsOfCq d (j.p 0) != [], 5)]
    (fun d => success { d with ept := { d.ept with cqs := mdel d.ept.cqs (j.p 0) } }) d

def cqDestroyCmd : AdmCmd := { op := 0x0222, vf := true, who := cqWho, objs := cqObj, run := cqDestroyDo }

/-! ### Event queues -/

/-- The function of an existing EQ. -/
def eqWho (ps : List Nat) (d : Dev) : List (Option Func) :=
  [if (eq? d (byteFunc (ps.getD 0 0)) (ps.getD 1 0)).isSome then some (byteFunc (ps.getD 0 0)) else none]
def eqObj (ps : List Nat) : List (Nat × Nat) := [(2, ps.getD 0 0 * 256 + ps.getD 1 0)]

/-- The vectors of a function (R382). -/
def vectorsOf (d : Dev) (f : Func) : Nat := if f.fn = 0 then (host d f.hp).pfVec else (host d f.hp).vfVec

/-- MOD_COUNT or MOD_TIME out of range (R86). -/
def modBad (count time : Nat) : Bool := count == 0 || decide (255 < count) || decide (1023 < time)

/-- EQ_CREATE (R85, R86, R88, R92) (DEDUCED, log 29). -/
def eqCreateDo (j : AdminJob) (d : Dev) : Ans × Dev :=
  let f := byteFunc (j.p 0)
  checked
    [(!funcExists d (j.p 0 / 32) (j.p 0 % 32), 2), (!busOk (j.p 2) 4096, 2), (decide (j.p 3 < 6) || decide (16 < j.p 3), 2),
     (!busOk (j.p 4) 4, 2), (modBad (j.p 6) (j.p 7), 2), (j.p 1 != 0 && (eq? d f 0).isNone, 2),
     ((eq? d f (j.p 1)).isSome, 4), (decide (vectorsOf d f ≤ j.p 5), 2), (decide (49152 ≤ pinnedCount d), 3)]
    (fun d =>
      let x : Eq := { base := j.p 2, n := j.p 3, head := j.p 4, vector := j.p 5, modCount := j.p 6, modTime := j.p 7 }
      success (updFn f (fun y => { y with eqs := mset y.eqs (j.p 1) x }) (makeRoom d))) d

def eqCreateCmd : AdmCmd :=
  { op := 0x0230, vf := true, port := bytePort 0, who := fun ps _ => [some (byteFunc (ps.getD 0 0))], objs := eqObj, run := eqCreateDo }

/-- EQ_MODERATE (R86). -/
def eqModerateDo (j : AdminJob) (d : Dev) : Ans × Dev :=
  let f := byteFunc (j.p 0)
  checked [((eq? d f (j.p 1)).isNone, 2), (modBad (j.p 2) (j.p 3), 2)]
    (fun d => success (updEq f (j.p 1) (fun x => { x with modCount := j.p 2, modTime := j.p 3 }) d)) d

def eqModerateCmd : AdmCmd := { op := 0x0231, vf := true, port := bytePort 0, who := eqWho, objs := eqObj, run := eqModerateDo }

/-- EQ_DESTROY (R92). -/
def eqDestroyDo (j : AdminJob) (d : Dev) : Ans × Dev :=
  let f := byteFunc (j.p 0)
  let q := j.p 1
  checked
    [((eq? d f q).isNone, 2),
     (d.ept.cqs.any (fun c => decide (c.2.f = f) && decide (c.2.eq = some q)), 5),
     (d.ept.eps.any (fun e => decide (e.2.eq = q) && decide (epFunc d e.1 = some f)), 5),
     (q == 0 && (fn d f).eqs.any (fun p => p.1 != 0), 5)]
    (fun d => success (updFn f (fun y => { y with eqs := mdel y.eqs q }) d)) d

def eqDestroyCmd : AdmCmd := { op := 0x0232, vf := true, port := bytePort 0, who := eqWho, objs := eqObj, run := eqDestroyDo }

/-- The commands of R92. -/
def epCmds : List AdmCmd :=
  [ epBlockAssignCmd, epBlockReleaseCmd, epCreateCmd, epEnableCmd, epDisableCmd, epResetCmd, epDestroyCmd, epQueryCmd,
    cqCreateCmd, cqResetCmd, cqDestroyCmd, eqCreateCmd, eqModerateCmd, eqDestroyCmd ]

/-! ### Translation (R116) -/

def slotWho (ps : List Nat) (d : Dev) : List (Option Func) := [(slot? d (ps.getD 0 0)).map (·.f)]
def slotObj (ps : List Nat) : List (Nat × Nat) := [(3, ps.getD 0 0)]

/-- JOB_SLOT_CREATE (R94, R113, R116). Which free number is taken is left open. -/
def jobSlotCreateDo (j : AdminJob) (d : Dev) : Ans × Dev :=
  let f := mkFunc (j.p 1) (j.p 2)
  checked
    [(!funcExists d (j.p 1) (j.p 2), 2), (decide (4096 ≤ d.xl.slots.length), 3), ((slotOf d (j.p 0) f).isSome, 4),
     (!busOk (j.p 3) 4096 || !busOk (j.p 4) 4096, 2), (decide (j.p 5 < 4) || decide (24 < j.p 5), 2)]
    (fun d =>
      let (n, d) := fresh d
      let s := (n + (firstFree (fun i => !mhas d.xl.slots ((n + i) % 4096)) 4096 0).getD 0) % 4096
      let x : JobSlot := { job := j.p 0, f := f, root := j.p 3, mrBase := j.p 4, m := j.p 5 }
      result (toLe 2 s) (updXl (fun y => { y with slots := mset y.slots s x }) d)) d

def jobSlotCreateCmd : AdmCmd :=
  { op := 0x0301, vf := true, who := fun ps _ => [if ps.getD 1 0 < 8 ∧ ps.getD 2 0 < 32 then some (mkFunc (ps.getD 1 0) (ps.getD 2 0)) else none]
    run := jobSlotCreateDo }

/-- A command on an existing job slot. -/
def onSlot (j : AdminJob) (k : Nat → JobSlot → Dev → Ans × Dev) (d : Dev) : Ans × Dev :=
  match slot? d (j.p 0) with
  | none => refusal 2 d
  | some x => k (j.p 0) x d

/-- JOB_SLOT_DESTROY (R104, R116). -/
def jobSlotDestroyDo (j : AdminJob) (d : Dev) : Ans × Dev :=
  onSlot j (fun s x d =>
    checked [(d.ept.blocks.any (fun b => decide (b.2.job = x.job) && decide (b.2.f = x.f)), 5)]
      (fun d => success (destroySlot s d)) d) d

def jobSlotDestroyCmd : AdmCmd := { op := 0x0302, vf := true, who := slotWho, objs := slotObj, run := jobSlotDestroyDo }

/-- Forgets the reads of memory-region entries that a slot's caches wait for (R111, R114). -/
def dropRegionReads (p : Nat × Nat → Bool) (d : Dev) : Dev :=
  updXl (fun x => { x with
    regions := x.regions.filter (fun e => !p e.1), regionReads := x.regionReads.filter (fun e => !p e) }) d

/-- ROOT_SET (R104, R111, R116). -/
def rootSetDo (j : AdminJob) (d : Dev) : Ans × Dev :=
  onSlot j (fun s _ d =>
    checked [(!busOk (j.p 1) 4096, 2)]
      (fun d =>
        let d := updXl (fun y => { y with slots := mupd y.slots s (fun x => { x with root := j.p 1 }) }) d
        let d := dropRegionReads (fun e => e.1 == s) (xlatDrop (fun t => t == s) d)
        (.later, invalStart j.ctx 0x0303 s (fun a => decide (a.st = .data) && (a.pages != [] || a.key.isSome)) d)) d) d

def rootSetCmd : AdmCmd := { op := 0x0303, vf := true, who := slotWho, objs := slotObj, run := rootSetDo }

/-- A valid segment's bounds are violated (R96). -/
def segBad (iova size bus : Nat) : Bool :=
  iova % 4096 != 0 || decide (2 ^ 48 ≤ iova) || size == 0 || size % 4096 != 0 || decide (2 ^ 48 < iova + size)
    || bus % 4096 != 0 || decide (2 ^ 52 < bus + size)

/-- SEG_SET (R96, R97, R111, R116). -/
def segSetDo (j : AdminJob) (d : Dev) : Ans × Dev :=
  onSlot j (fun s x d =>
    let v := bitOf (j.p 5) 0
    let g := j.p 1
    checked
      [(decide (8 ≤ g), 2), (v && segBad (j.p 2) (j.p 3) (j.p 4), 2),
       (v && x.segs.zipIdx.any (fun q => q.2 != g && q.1.v && overlaps q.1.iova q.1.size (j.p 2) (j.p 3)), 2),
       (v && hitsBar d x.f.hp (j.p 4) (j.p 3), 2)]
      (fun d =>
        let old := lget x.segs g {}
        let new : Segment := { iova := j.p 2, size := j.p 3, bus := j.p 4, v := v
                               r := bitOf (j.p 5) 1, w := bitOf (j.p 5) 2, a := bitOf (j.p 5) 3 }
        let d := updXl (fun y => { y with slots := mupd y.slots s (fun x => { x with segs := lset x.segs g new }) }) d
        (.later, invalStart j.ctx 0x0310 s
          (fun a => old.v && decide (a.st = .data) && overlaps a.iova a.len old.iova old.size) d)) d) d

def segSetCmd : AdmCmd :=
  { op := 0x0310, rsv := fun ps => decide (16 ≤ ps.getD 5 0) || ps.getD 6 0 != 0, vf := true, who := slotWho, objs := slotObj
    run := segSetDo }

/-- XLAT_INVALIDATE (R110, R111). -/
def xlatInvalidateDo (j : AdminJob) (d : Dev) : Ans × Dev :=
  onSlot j (fun s _ d =>
    checked
      [(j.p 1 % 4096 != 0, 2), (j.p 2 == 0 || decide (2 ^ 36 < j.p 2), 2), (notFlag (j.p 3), 2),
       (decide (2 ^ 48 < j.p 1 + j.p 2 * 4096), 2)]
      (fun d => (.later, invalStart j.ctx 0x0320 s (usedRange (j.p 1) (j.p 2 * 4096))
        (invalRange s (j.p 1) (j.p 2 * 4096) (j.p 3 == 1) d))) d) d

def xlatInvalidateCmd : AdmCmd := { op := 0x0320, vf := true, who := slotWho, objs := slotObj, run := xlatInvalidateDo }

/-- XLAT_INVALIDATE_SLOT (R111, R116). -/
def xlatInvalidateSlotDo (j : AdminJob) (d : Dev) : Ans × Dev :=
  onSlot j (fun s _ d =>
    (.later, invalStart j.ctx 0x0321 s (usedRange 0 (2 ^ 48)) (invalRange s 0 (2 ^ 48) true d))) d

def xlatInvalidateSlotCmd : AdmCmd := { op := 0x0321, vf := true, who := slotWho, objs := slotObj, run := xlatInvalidateSlotDo }

/-- MR_INVALIDATE (R111, R114). -/
def mrInvalidateDo (j : AdminJob) (d : Dev) : Ans × Dev :=
  onSlot j (fun s x d =>
    checked [(j.p 1 == 0 || decide (2 ^ x.m ≤ j.p 1), 2)]
      (fun d => (.later, invalStart j.ctx 0x0330 s (fun a => decide (a.key.map (· / 256) = some (j.p 1)))
        (dropRegionReads (fun e => e == (s, j.p 1)) d))) d) d

def mrInvalidateCmd : AdmCmd := { op := 0x0330, vf := true, who := slotWho, objs := slotObj, run := mrInvalidateDo }

/-- XLAT_PROBE (R116): an access of one byte that looks for its address alone (DEDUCED, log 83). -/
def xlatProbeDo (j : AdminJob) (d : Dev) : Ans × Dev :=
  onSlot j (fun s x d =>
    (.later, access { slot := some s, f := x.f, key := none, remote := false, iova := j.p 1, len := 1, right := .r
                      region := .any, act := .find, use := .admin j 0, probe := true } d)) d

/-- The reply of XLAT_PROBE: outcome, bus address, rights, page size, CONT and what answered (0 none, 1 segment,
2 ATC, 3 walk). A range on a BAR has the outcome of check 8 (DESIGN CHOICE, log 27). -/
def xlatProbeEnd (j : AdminJob) (res : AccRes) (d : Dev) : Dev :=
  let i (n : Nat) : Nat := res.info.getD n 0
  let bar := match slot? d (j.p 0) with
    | some x => decide (res.status = 0) && hitsBar d x.f.hp (i 0) 1
    | none => false
  push (.reply j.ctx 0x0340 0 0
    (packVals [(1, if bar then 0x12 else res.status), (8, i 0), (1, i 1), (8, i 2), (1, i 3), (1, i 4)])) d

def xlatProbeCmd : AdmCmd := { op := 0x0340, recLen := 34, vf := true, who := slotWho, objs := slotObj, run := xlatProbeDo }

/-- The commands of R116. -/
def xlatCmds : List AdmCmd :=
  [ jobSlotCreateCmd, jobSlotDestroyCmd, rootSetCmd, segSetCmd, xlatInvalidateCmd, xlatInvalidateSlotCmd, mrInvalidateCmd,
    xlatProbeCmd ]

end Sys2Proof.Machine
end

