-- ==== Sys2Proof/Machine/AdmColl.lean ====
section
/-! DEFINITION. The admin commands of Clasp locks, matching, collectives and counters (R145, R171, R213). -/

namespace Sys2Proof.Machine

/-! ### Clasp locks (R145) -/

/-- The function of a job slot, of a domain's slot, of a record's domain's slot. -/
def slotFunc (d : Dev) (s : Nat) : Option Func := (slot? d s).map (·.f)
def domainFunc (d : Dev) (n : Nat) : Option Func := (mget d.clasp.domains n).bind (fun x => slotFunc d x.slot)
def recordFunc (d : Dev) (i : Nat) : Option Func := (lock? d i).bind (fun r => domainFunc d r.domain)
def recordWho (ps : List Nat) (d : Dev) : List (Option Func) := [recordFunc d (ps.getD 0 0)]
def domainObj (ps : List Nat) : List (Nat × Nat) := [(4, ps.getD 0 0)]

/-- CLASP_DOMAIN_CREATE (R135, R145). -/
def claspDomainCreateDo (j : AdminJob) (d : Dev) : Ans × Dev :=
  checked
    [(decide (4096 ≤ j.p 0), 2), (notFlag (j.p 2), 2), ((mget d.clasp.domains (j.p 0)).isSome, 4),
     (j.p 2 == 1 && decide (256 < j.p 3), 2), (j.p 3 == 0 || decide (65536 < j.p 3), 2), ((slot? d (j.p 1)).isNone, 2)]
    (fun d => success (updClasp (fun c => { c with
      domains := mset c.domains (j.p 0) { slot := j.p 1, ranked := j.p 2 == 1, members := j.p 3 } }) d)) d

def claspDomainCreateCmd : AdmCmd :=
  { op := 0x0401, vf := true, who := fun ps d => [slotFunc d (ps.getD 1 0)], objs := domainObj, run := claspDomainCreateDo }

/-- CLASP_DOMAIN_DESTROY (R145). -/
def claspDomainDestroyDo (j : AdminJob) (d : Dev) : Ans × Dev :=
  checked [((mget d.clasp.domains (j.p 0)).isNone, 2), (d.clasp.recs.any (fun p => p.2.domain == j.p 0), 5)]
    (fun d => success (destroyDomain (j.p 0) d)) d

def claspDomainDestroyCmd : AdmCmd :=
  { op := 0x0402, vf := true, who := fun ps d => [domainFunc d (ps.getD 0 0)], objs := domainObj, run := claspDomainDestroyDo }

/-- The value of a lock state (R134). -/
def LockState.code : LockState → Nat
  | .free => 0
  | .held => 1
  | .abandoned => 2
  | .forced => 3

/-- The result of CLASP_QUERY (R145): an absent holder and unused waiters are none (DESIGN CHOICE, log 68). -/
def lockRecord (r : LockRec) : Bytes :=
  let claim (c : Option Claim) : List (Nat × Nat) :=
    match c with
    | some c => [(4, c.da), (4, c.ep), (1, c.prio)]
    | none => [(4, 2 ^ 32 - 1), (4, 2 ^ 32 - 1), (1, 255)]
  packVals ([(1, r.state.code), (2, r.domain)] ++ claim r.holder ++ [(1, r.reported), (4, r.seq), (4, r.queue.length)]
    ++ claim r.queue[0]? ++ claim r.queue[1]? ++ claim r.queue[2]? ++ claim r.queue[3]?)

/-- CLASP_QUERY (R145): by record index, or by job slot and IOVA, whose bus address XLAT finds (DEDUCED, log 83). -/
def claspQueryDo (j : AdminJob) (d : Dev) : Ans × Dev :=
  match noneOf 4 (j.p 0) with
  | some i =>
    match lock? d i with
    | some r => result (lockRecord r) d
    | none => refusal 2 d
  | none =>
    match slot? d (j.p 1) with
    | none => refusal 2 d
    | some x => (.later, access { slot := some (j.p 1), f := x.f, key := none, remote := false, iova := j.p 2, len := 8, right := .a
                                  region := .any, act := .find, use := .admin j 0, probe := true } d)

/-- The bus address of a queried lock word is known. -/
def claspQueryEnd (j : AdminJob) (res : AccRes) (d : Dev) : Dev :=
  let h := ((slot? d (j.p 1)).map (fun x => x.f.hp.val)).getD 0
  let found := if res.status = 0 then (res.pieces.head?).bind (fun p => lockAt d h p.1) else none
  match found with
  | some (_, r) => push (.reply j.ctx 0x0410 0 0 (lockRecord r)) d
  | none => push (.reply j.ctx 0x0410 2 0 []) d

def claspQueryCmd : AdmCmd :=
  { op := 0x0410, recLen := 76, vf := true
    who := fun ps d => [if ps.getD 0 0 = 2 ^ 32 - 1 then slotFunc d (ps.getD 1 0) else recordFunc d (ps.getD 0 0)], run := claspQueryDo }

/-- CLASP_FORCE_RELEASE (R140). -/
def claspForceReleaseDo (j : AdminJob) (d : Dev) : Ans × Dev :=
  match lock? d (j.p 0) with
  | none => refusal 2 d
  | some _ =>
    match lockForce (j.p 0) d with
    | (true, d) => success d
    | (false, _) => refusal 5 d

def claspForceReleaseCmd : AdmCmd := { op := 0x0411, vf := true, who := recordWho, run := claspForceReleaseDo }

/-- CLASP_WAITER_REMOVE (R143, R145). -/
def claspWaiterRemoveDo (j : AdminJob) (d : Dev) : Ans × Dev :=
  match lockRemove (j.p 0) (j.p 1) (j.p 2) 0x26 d with
  | (true, d) => success d
  | (false, _) => refusal 2 d

def claspWaiterRemoveCmd : AdmCmd := { op := 0x0412, vf := true, who := recordWho, run := claspWaiterRemoveDo }

/-- The commands of R145. -/
def claspCmds : List AdmCmd :=
  [ claspDomainCreateCmd, claspDomainDestroyCmd, claspQueryCmd, claspForceReleaseCmd, claspWaiterRemoveCmd ]

/-! ### Matching (R171) -/

/-- MATCH_CTX_CREATE (R150, R171). -/
def matchCtxCreateDo (j : AdminJob) (d : Dev) : Ans × Dev :=
  let e := j.p 0
  match ep? d e, epFunc d e with
  | some x, some f =>
    let len := 32 * 2 ^ ((x.recv.map (·.n)).getD 0)
    checked
      [(!x.pin || x.recv.isNone, 2), (!busOk (j.p 1) 4096 || !busOk (j.p 2) 4096 || !busOk (j.p 4) 4096, 2),
       (decide (j.p 3 < 17) || decide (30 < j.p 3) || decide (j.p 5 < 10) || decide (20 < j.p 5), 2),
       (hitsBar d f.hp (j.p 1) len || hitsBar d f.hp (j.p 2) (2 ^ j.p 3) || hitsBar d f.hp (j.p 4) (64 * 2 ^ j.p 5), 2),
       ((mctx? d e).isSome, 4), (decide (16384 ≤ d.mt.ctxs.length), 3)]
      (fun d =>
        let c : MCtx := { recBase := j.p 1, uBase := j.p 2, b := j.p 3, spBase := j.p 4, s := j.p 5 }
        success { d with mt := { d.mt with ctxs := mset d.mt.ctxs e c } }) d
  | _, _ => refusal 2 d

def matchCtxCreateCmd : AdmCmd := { op := 0x0501, vf := true, who := epWho, objs := epObj, run := matchCtxCreateDo }

/-- A command on an existing matching context. -/
def onMctx (j : AdminJob) (k : Nat → MCtx → Dev → Ans × Dev) (d : Dev) : Ans × Dev :=
  match mctx? d (j.p 0) with
  | none => refusal 2 d
  | some c => k (j.p 0) c d

/-- MATCH_CTX_DESTROY (R171). -/
def matchCtxDestroyDo (j : AdminJob) (d : Dev) : Ans × Dev :=
  onMctx j (fun e _ d =>
    checked [((ep? d e).any (fun x => x.state != .reset), 5)]
      (fun d =>
        let d := tagStop e d
        success { d with mt := { d.mt with ctxs := mdel d.mt.ctxs e } }) d) d

def matchCtxDestroyCmd : AdmCmd := { op := 0x0502, vf := true, who := epWho, objs := epObj, run := matchCtxDestroyDo }

/-- Is a posted receive specific (R148). -/
def specific (r : Recv) : Bool := leAt r.desc 30 1 == 0

/-- MATCH_QUERY (R171): path (0 hardware, 1 SPILLED), posted specific and wildcard receives, unexpected
messages, spilled entries, bytes of the unexpected-data area in use, outstanding rendezvous. -/
def matchQueryDo (j : AdminJob) (d : Dev) : Ans × Dev :=
  onMctx j (fun e c d =>
    let sp := (c.posted.filter (fun q => specific q.recv)).length
    result (packVals [(1, b2n c.spilled), (4, sp), (4, c.posted.length - sp), (4, c.unexp.length),
      (4, (spillSlots d c).length), (8, sumOf ((reservations d e).map (·.2))), (4, rndvOut d (fun x => x == e))]) d) d

def matchQueryCmd : AdmCmd := { op := 0x0510, recLen := 36, vf := true, who := epWho, objs := epObj, run := matchQueryDo }

/-- The fields of a receive that MATCH_PROBE names (R147). -/
def probeFields (comm rank tag low : Nat) (any : Bool) : Bytes :=
  patch (zeros 64) 16 (toLe 8 tag ++ toLe 4 rank ++ toLe 2 comm ++ toLe 1 (low + 128 * b2n any))

/-- MATCH_PROBE (R153, R171): the first unexpected message that the fields accept: envelope (TAG, SRC_RANK, COMM),
MSG_LEN, protocol (0 eager, 1 rendezvous), source DA and endpoint; none: all ones (DEDUCED, log 83). -/
def matchProbeDo (j : AdminJob) (d : Dev) : Ans × Dev :=
  onMctx j (fun _ c d =>
    checked [(decide (64 < j.p 4), 2), (notFlag (j.p 5), 2)]
      (fun d =>
        let q := probeFields (j.p 1) (j.p 2) (j.p 3) (j.p 4) (j.p 5 == 1)
        match (c.unexp.filterMap (tagMsg? d)).find? (fun m => acceptsMsg q m.hdr) with
        | some m =>
          let v := envOf m.hdr
          result (packVals [(8, v.2.2), (4, v.2.1), (2, v.1), (4, m.len), (1, b2n m.rndv), (4, m.hdr.srcDa.toNat), (4, m.hdr.srcEp.toNat)]) d
        | none => result (List.replicate 32 255) d) d) d

def matchProbeCmd : AdmCmd := { op := 0x0511, recLen := 32, vf := true, who := epWho, objs := epObj, run := matchProbeDo }

/-- The commands of R171. -/
def matchCmds : List AdmCmd := [ matchCtxCreateCmd, matchCtxDestroyCmd, matchQueryCmd, matchProbeCmd ]

/-! ### Groups (R172 to R174, R213) -/

def groupWho (ps : List Nat) (d : Dev) : List (Option Func) := [(mget d.coll.groups (ps.getD 0 0)).map (·.f)]
def groupObj (ps : List Nat) : List (Nat × Nat) := [(5, ps.getD 0 0)]

/-- The refusals of COLL_GROUP_CREATE before the member table is read. -/
def groupRefusals (j : AdminJob) (d : Dev) : List (Bool × Nat) :=
  let h := ((slot? d (j.p 2)).map (fun x => x.f.hp.val)).getD 0
  [(decide (4096 ≤ j.p 0), 2), ((mget d.coll.groups (j.p 0)).isSome || d.coll.groups.any (fun g => decide (g.2.key = j.p 1)), 4),
   ((slot? d (j.p 2)).isNone, 2), (j.p 3 == 0 || decide (1048576 < j.p 3), 2), (!busOk (j.p 4) 4096 || !busOk (j.p 5) 4096, 2),
   (decide (j.p 6 < 4096) || decide (2 ^ 30 < j.p 6), 2), (hitsBar d h (j.p 4) (8 * j.p 3) || hitsBar d h (j.p 5) (j.p 6), 2)]

/-- COLL_GROUP_CREATE (R172 to R174): the member table is read. -/
def collGroupCreateDo (j : AdminJob) (d : Dev) : Ans × Dev :=
  checked (groupRefusals j d)
    (fun d =>
      match slot? d (j.p 2) with
      | none => refusal 2 d
      | some x => (.later, hostRead x.f (j.p 4) (8 * j.p 3) (.admin j 0) d)) d

/-- The entries of a member table (R173). -/
def tableOf : Nat → Bytes → List (Nat × Nat)
  | 0, _ => []
  | n + 1, bs => (bitsOf (leAt bs 0 8) 0 17, bitsOf (leAt bs 0 8) 17 20) :: tableOf n (bs.drop 8)

/-- Is a reserved bit of a member table set. -/
def tableBad : Nat → Bytes → Bool
  | 0, _ => false
  | n + 1, bs => leAt bs 0 8 / 2 ^ 37 != 0 || tableBad n (bs.drop 8)

/-- The member table has been read (R173). A table that cannot be read is refused as an invalid one. -/
def collGroupCreateEnd (j : AdminJob) (data : Option Bytes) (d : Dev) : Ans × Dev :=
  match data, slot? d (j.p 2) with
  | some bs, some x =>
    checked (groupRefusals j d ++ [(tableBad (j.p 3) bs, 2)])
      (fun d =>
        let g : Group := { key := j.p 1, slot := j.p 2, f := x.f, n := j.p 3, scratch := j.p 5, size := j.p 6, table := tableOf (j.p 3) bs }
        success (updColl (fun c => { c with groups := mset c.groups (j.p 0) g }) d)) d
  | _, _ => refusal 2 d

def collGroupCreateCmd : AdmCmd :=
  { op := 0x0601, vf := true, who := fun ps d => [slotFunc d (ps.getD 2 0)], objs := groupObj, run := collGroupCreateDo }

/-- A command on an existing group. -/
def onGroup (j : AdminJob) (k : Nat → Group → Dev → Ans × Dev) (d : Dev) : Ans × Dev :=
  match mget d.coll.groups (j.p 0) with
  | none => refusal 2 d
  | some g => k (j.p 0) g d

/-- COLL_GROUP_DESTROY (R213). -/
def collGroupDestroyDo (j : AdminJob) (d : Dev) : Ans × Dev :=
  onGroup j (fun g _ d =>
    checked [(d.coll.insts.any (fun p => p.2.group == g), 5)] (fun d => success (destroyGroup g d)) d) d

def collGroupDestroyCmd : AdmCmd := { op := 0x0602, vf := true, who := groupWho, objs := groupObj, run := collGroupDestroyDo }

/-- The value of an instance state, in the order of the table of R178; 3 (DONE) where there is no instance. -/
def instCode : Option InstState → Nat
  | some .waiting => 0
  | some .running => 1
  | some .releasing => 2
  | none => 3
  | some .aborted => 4

/-- The instance of a local member that has gone furthest. -/
def memberInst (d : Dev) (g e : Nat) : Option Inst :=
  let xs := (d.coll.insts.filter (fun p => p.2.group == g && p.2.ep == e)).map (·.2)
  match xs.find? (fun x => x.state != .waiting) with
  | some x => some x
  | none => xs.head?

/-- COLL_GROUP_QUERY (R201, R213): key, N, the number of local members, and for each of them endpoint, rank,
INSTANCE count, instance state and the last abort record (cause, step, rank, INSTANCE; none: all ones). A record
of 4 KiB holds the first 170 (DESIGN CHOICE, log 27). -/
def collGroupQueryDo (j : AdminJob) (d : Dev) : Ans × Dev :=
  onGroup j (fun gi g d =>
    let ms := localMembers d g
    let row (m : Nat × Nat) : List (Nat × Nat) :=
      let a := (mget g.aborts m.2).getD (255, 0xFFFF, 2 ^ 32 - 1, 0xFFFF)
      [(4, m.2), (4, m.1), (2, (mget g.counts m.2).getD 0), (1, instCode ((memberInst d gi m.2).map (·.state))),
       (1, a.1), (2, a.2.1), (4, a.2.2.1), (2, a.2.2.2)]
    result (padTo 16 (packVals [(4, g.key), (4, g.n), (4, ms.length)])
      ++ ((ms.take 170).map (fun m => padTo 24 (packVals (row m)))).flatten) d) d

def collGroupQueryCmd : AdmCmd := { op := 0x0603, recLen := 4096, vf := true, who := groupWho, objs := groupObj, run := collGroupQueryDo }

/-! ### Ricks (R186, R187) -/

def rickObj (ps : List Nat) : List (Nat × Nat) := [(7, ps.getD 0 0)]

/-- The image has been read (R187). -/
def collRickLoadEnd (j : AdminJob) (data : Option Bytes) (d : Dev) : Ans × Dev :=
  match data with
  | none => inconsistent 0x1310 d
  | some bs =>
    match rickLoad bs (j.p 2) with
    | .inl why => inconsistent why d
    | .inr r => success (updColl (fun c => { c with ricks := mset c.ricks (j.p 0) r }) d)

/-- COLL_RICK_LOAD (R186, R187). The largest image that can pass has 4,160 bytes, and no more are read (DEDUCED, log 29). -/
def collRickLoadDo (j : AdminJob) (d : Dev) : Ans × Dev :=
  checked
    [(decide (1024 ≤ j.p 0), 2), (decide (j.ctx.path = .mailbox) && decide (0x10000 < j.p 1 + j.p 2), 2),
     ((mget d.coll.ricks (j.p 0)).isSome, 4)]
    (fun d => if j.p 2 = 0 then inconsistent 0x1310 d else adminRead j (j.p 1) (min (j.p 2) 4160) collRickLoadEnd 0 d) d

def collRickLoadCmd : AdmCmd := { op := 0x0610, objs := rickObj, run := collRickLoadDo }

/-- COLL_RICK_UNLOAD (R213). -/
def collRickUnloadDo (j : AdminJob) (d : Dev) : Ans × Dev :=
  checked [((mget d.coll.ricks (j.p 0)).isNone, 2), (d.coll.insts.any (fun p => p.2.rick == j.p 0), 5)]
    (fun d => success (updColl (fun c => { c with ricks := mdel c.ricks (j.p 0) }) d)) d

def collRickUnloadCmd : AdmCmd := { op := 0x0611, objs := rickObj, run := collRickUnloadDo }

/-- COLL_RICK_QUERY (R186, R213): the fields of the header, laid out as in the image. -/
def collRickQueryDo (j : AdminJob) (d : Dev) : Ans × Dev :=
  match mget d.coll.ricks (j.p 0) with
  | none => refusal 2 d
  | some r =>
    result (toLe 4 0x4B434952 ++ toLe 2 1 ++ toLe 2 r.steps.length ++ toLe 1 r.slots ++ toLe 1 r.flags ++ zeros 2
      ++ toLe 4 r.minM ++ toLe 4 r.maxM ++ toLe 8 r.build ++ toLe 4 r.crc) d

def collRickQueryCmd : AdmCmd := { op := 0x0612, recLen := 32, objs := rickObj, run := collRickQueryDo }

/-! ### Counters (R203 to R209) -/

def counterFunc (d : Dev) (i : Nat) : Option Func := (cntRange d i).map (·.2.f)
def counterWho (ps : List Nat) (d : Dev) : List (Option Func) := [counterFunc d (ps.getD 0 0)]

/-- First indices at which a range of counters fits: at the start or behind another range. -/
def counterPlaces (d : Dev) (n : Nat) : List Nat :=
  (0 :: d.coll.ranges.map (fun r => r.1 + r.2.count)).filter
    (fun o => decide (o + n ≤ 2 ^ 18) && !d.coll.ranges.any (fun r => overlaps o n r.1 r.2.count))

/-- COLL_COUNTER_ALLOC (R203, R205). Which range is taken is left open. -/
def collCounterAllocDo (j : AdminJob) (d : Dev) : Ans × Dev :=
  match slot? d (j.p 0) with
  | none => refusal 2 d
  | some x =>
    let m := noneOf 8 (j.p 2)
    checked
      [(j.p 1 == 0 || decide (65536 < j.p 1), 2), (counterPlaces d (j.p 1) == [], 3),
       (m.any (fun a => !busOk a 8 || hitsBar d x.f.hp a (8 * j.p 1)), 2)]
      (fun d =>
        match pickFree (counterPlaces d (j.p 1)) d with
        | (none, d) => refusal 3 d
        | (some o, d) =>
          let d := updColl (fun c => { c with
            ranges := mset c.ranges o { count := j.p 1, slot := j.p 0, f := x.f, mirror := m } }) d
          let d := match m with
            | some a => hostWrite x.f a (zeros (8 * j.p 1)) false false d
            | none => d
          result (toLe 4 o) d) d

def collCounterAllocCmd : AdmCmd := { op := 0x0620, vf := true, who := slotWho, run := collCounterAllocDo }

/-- Is a counter of a range in use (R213): bound, armed, awaited by a descriptor, named by an instance. -/
def rangeUsed (d : Dev) (first count : Nat) : Bool :=
  let inside (i : Nat) : Bool := decide (first ≤ i) && decide (i < first + count)
  d.coll.binds.any (fun p => inside p.2) || d.coll.armed.any (fun p => inside p.1)
    || d.xp.ops.any (fun p => p.2.trig && p.2.state == .waiting && p.2.ext.any (fun x => inside x.1))
    || d.coll.insts.any (fun p => inside (csCounter (instDesc d p.2)))

/-- COLL_COUNTER_FREE (R213). -/
def collCounterFreeDo (j : AdminJob) (d : Dev) : Ans × Dev :=
  checked
    [(!((mget d.coll.ranges (j.p 0)).any (fun r => r.count == j.p 1)), 2), (rangeUsed d (j.p 0) (j.p 1), 5)]
    (fun d => success (freeRange (j.p 0) (j.p 1) d)) d

def collCounterFreeCmd : AdmCmd :=
  { op := 0x0621, vf := true, who := counterWho, objs := fun ps => [(6, ps.getD 0 0)], run := collCounterFreeDo }

/-- COLL_COUNTER_READ (R213). -/
def collCounterReadDo (j : AdminJob) (d : Dev) : Ans × Dev :=
  checked [((cntRange d (j.p 0)).isNone, 2)] (fun d => result (toLe 8 (cntValue d (j.p 0))) d) d

def collCounterReadCmd : AdmCmd := { op := 0x0622, vf := true, who := counterWho, run := collCounterReadDo }

/-- COLL_COUNTER_WRITE (R203). -/
def collCounterWriteDo (j : AdminJob) (d : Dev) : Ans × Dev :=
  checked [((cntRange d (j.p 0)).isNone, 2)] (fun d => success (cntSet (j.p 0) (j.p 1) d)) d

def collCounterWriteCmd : AdmCmd := { op := 0x0623, vf := true, who := counterWho, run := collCounterWriteDo }

/-- COLL_COUNTER_BIND (R204). -/
def collCounterBindDo (j : AdminJob) (d : Dev) : Ans × Dev :=
  let k := j.p 0 * 2 + j.p 1
  match noneOf 4 (j.p 2) with
  | none =>
    checked [((ep? d (j.p 0)).isNone, 2), (notFlag (j.p 1), 2)]
      (fun d => success (updColl (fun c => { c with binds := mdel c.binds k }) d)) d
  | some i =>
    checked [((ep? d (j.p 0)).isNone, 2), (notFlag (j.p 1), 2), (!cntOfEp d i (j.p 0), 2)]
      (fun d => success (updColl (fun c => { c with binds := mset c.binds k i }) d)) d

def collCounterBindCmd : AdmCmd :=
  { op := 0x0624, vf := true, objs := epObj, run := collCounterBindDo
    who := fun ps d => epWho ps d ++ (match noneOf 4 (ps.getD 2 0) with | some i => [counterFunc d i] | none => []) }

/-- Arming is refused in NORMAL (R209). -/
def notInNormal (d : Dev) : Option (Nat × Nat) := if curMode d = 0 then some (6, 0x1320) else none

/-- COLL_COUNTER_ARM (R208). -/
def collCounterArmDo (j : AdminJob) (d : Dev) : Ans × Dev :=
  checked [((cntRange d (j.p 0)).isNone, 2)]
    (fun d => success (updColl (fun c => { c with armed := mset c.armed (j.p 0) (j.p 1) }) d)) d

def collCounterArmCmd : AdmCmd := { op := 0x0630, who := counterWho, mode := notInNormal, run := collCounterArmDo }

/-- COLL_COUNTER_DISARM (R209). -/
def collCounterDisarmDo (j : AdminJob) (d : Dev) : Ans × Dev :=
  checked [((mget d.coll.armed (j.p 0)).isNone, 2)]
    (fun d => success (updColl (fun c => { c with armed := mdel c.armed (j.p 0) }) d)) d

def collCounterDisarmCmd : AdmCmd := { op := 0x0631, who := counterWho, run := collCounterDisarmDo }

/-- COLL_ARM_FIRE (R188, R208): the ARM_FIRE strand is sent; the reply comes when it is acknowledged or refused.
Its SRC_EP is 0 (DEDUCED, log 48). -/
def collArmFireDo (j : AdminJob) (d : Dev) : Ans × Dev :=
  checked [(decide (2 ^ 17 ≤ j.p 0), 2), (decide (2 ^ 20 ≤ j.p 1), 2), (decide (2 ^ 18 ≤ j.p 3), 2)]
    (fun d =>
      let desc := patch (toLe 2 (j.p 2) ++ zeros 62) 16 (toLe 4 (j.p 3) ++ toLe 4 (j.p 4) ++ toLe 4 (j.p 5))
      let r := newOp { owner := .fire j.ctx, ep := 0, code := 0xF1, desc := desc, dst := j.p 0, dstEp := j.p 1, ord := 0, len := 0 } d
      (.later, startOp r.1 r.2)) d

def collArmFireCmd : AdmCmd := { op := 0x0632, mode := notInNormal, run := collArmFireDo }

/-- COLL_ABORT (R201, R213). -/
def collAbortDo (j : AdminJob) (d : Dev) : Ans × Dev :=
  onGroup j (fun g x d =>
    match d.coll.insts.find? (fun p => p.2.group == g && p.2.ep == j.p 1 && p.2.state == .running) with
    | some (i, n) => if (rankOf d x (j.p 1)).isNone then refusal 2 d else success (collAbort i 9 n.pc n.rank d)
    | none => refusal 2 d) d

def collAbortCmd : AdmCmd :=
  { op := 0x0640, vf := true, objs := groupObj, run := collAbortDo
    who := fun ps d => groupWho ps d ++ [if (ep? d (ps.getD 1 0)).isSome then epFunc d (ps.getD 1 0) else none] }

/-- The commands of R213. -/
def collCmds : List AdmCmd :=
  [ collGroupCreateCmd, collGroupDestroyCmd, collGroupQueryCmd, collRickLoadCmd, collRickUnloadCmd, collRickQueryCmd,
    collCounterAllocCmd, collCounterFreeCmd, collCounterReadCmd, collCounterWriteCmd, collCounterBindCmd,
    collCounterArmCmd, collCounterDisarmCmd, collArmFireCmd, collAbortCmd ]

end Sys2Proof.Machine
end

