-- ==== Sys2Proof/Machine/AdmSched.lean ====
section
/-! DEFINITION. The admin commands of Braids, congestion and scheduling (R270), and of routes, epochs and ports
(R299). -/

namespace Sys2Proof.Machine

/-! ### Braids -/

/-- A DA that is not 17 bits, or is this device's own. -/
def notPeerDa (d : Dev) (da : Nat) : Bool := decide (2 ^ 17 ≤ da) || isSelf d da

/-- Stream records of a peer, sending and receiving (R233, R234). -/
def peerStreams (d : Dev) (da : Nat) : Nat :=
  (d.xp.sendRecs.filter (fun p => decide (p.1.peer.toNat = da))).length
    + (d.xp.recvRecs.filter (fun p => decide (p.1.peer.toNat = da))).length

/-- The value of a peer state (R215). -/
def PeerState.code : PeerState → Nat
  | .closed => 0
  | .opened => 1
  | .unreachable => 2

/-- BRAID_QUERY (R270) (DESIGN CHOICE, log 27). -/
def braidQueryDo (j : AdminJob) (d : Dev) : Ans × Dev :=
  checked [(notPeerDa d (j.p 0) || notFlag (j.p 1), 2)]
    (fun d =>
      let p := peer d (j.p 0)
      let s := sendHalf p (j.p 1 == 1)
      let r := recvHalf p (j.p 1 == 1)
      let most (v : Nat) : Nat := min v (2 ^ 31 - 1)
      result (packVals [(1, p.state.code), (1, p.txGen.getD 0), (1, p.rxGen), (1, b2n r.synced),
        (4, (s.srtt.map most).getD (2 ^ 32 - 1)), (4, most (rto d s)), (2, s.rate), (2, s.alpha),
        (4, most ((d.clk : Int) - s.lastCut).toNat), (4, s.unacked.length), (1, b2n r.window), (4, peerStreams d (j.p 0))]) d) d

def braidQueryCmd : AdmCmd := { op := 0x0701, recLen := 32, run := braidQueryDo }

/-- BRAID_RATE_SET (R251, R252, R270). -/
def braidRateSetDo (j : AdminJob) (d : Dev) : Ans × Dev :=
  checked [(notPeerDa d (j.p 0) || notFlag (j.p 1) || decide (j.p 2 < 10) || decide (4000 < j.p 2) || decide (1024 < j.p 3), 2)]
    (fun d => success (updRate (j.p 0) (j.p 1 == 1) (fun _ s => { s with rate := j.p 2, alpha := j.p 3 }) d)) d

def braidRateSetCmd : AdmCmd := { op := 0x0702, run := braidRateSetDo }

/-! ### Targets -/

/-- A target that names no fabric port and no host port that is present (R270, R374). -/
def noTarget (d : Dev) (t : Nat) : Bool := decide (136 ≤ t) || (decide (128 ≤ t) && absentPort d (t - 128))

/-- A target as an object of R433. -/
def targetObj (ps : List Nat) : List (Nat × Nat) := [(9, ps.getD 0 0)]

/-- RATE, BURST or RESET_MODE of a shaper out of range. -/
def shapeBad (rate burst mode : Nat) : Bool := decide (40000 < rate) || burst == 0 || decide (4095 < burst) || notFlag mode

/-- A shaper after a command: its tokens start again where RATE or BURST changes (R263). -/
def reshape (s : Shaper) (rate burst : Nat) (zero changed : Bool) (now : Nat) : Shaper :=
  if changed || s.rate != rate || s.burst != burst then mkShaper rate burst zero now else { s with zero := zero }

/-- SCHED_QUEUE_SET (R263). -/
def schedQueueSetDo (j : AdminJob) (d : Dev) : Ans × Dev :=
  let t := j.p 0
  let q := j.p 1
  checked
    [(noTarget d t || q % 4 == 0 || decide (8 ≤ q) || j.p 2 == 0 || shapeBad (j.p 3) (j.p 4) (j.p 5), 2)]
    (fun d =>
      let set (l : List Shaper) : List Shaper := lset l q (reshape (lget l q {}) (j.p 3) (j.p 4) (j.p 5 == 1) false d.clk)
      success
        (if t < 128 then
          let a := OSCH t + 0x040 + 8 * q
          updPort t (fun p => { p with out := { p.out with qshape := set p.out.qshape } })
            (setFld a 36 1 (j.p 5) (setFld a 24 12 (j.p 4) (setFld a 8 16 (j.p 3) (setFld a 0 8 (j.p 2) d))))
        else
          updHost (t - 128) (fun h => { h with weights := lset h.weights q (j.p 2), inj := { h.inj with qshape := set h.inj.qshape } }) d)) d

def schedQueueSetCmd : AdmCmd := { op := 0x0710, objs := targetObj, run := schedQueueSetDo }

/-- SCHED_PORT_SHAPE_SET (R263). -/
def schedPortShapeSetDo (j : AdminJob) (d : Dev) : Ans × Dev :=
  let t := j.p 0
  checked [(noTarget d t || shapeBad (j.p 1) (j.p 2) (j.p 4), 2)]
    (fun d =>
      let set (s : Shaper) (ovh : Nat) : Shaper := reshape s (j.p 1) (j.p 2) (j.p 4 == 1) (ovh != j.p 3) d.clk
      success
        (if t < 128 then
          let a := OSCH t + 0x020
          let ovh := fld d a 28 8
          updPort t (fun p => { p with out := { p.out with pshape := set p.out.pshape ovh } })
            (setFld a 36 1 (j.p 4) (setFld a 28 8 (j.p 3) (setFld a 16 12 (j.p 2) (setFld a 0 16 (j.p 1) d))))
        else
          updHost (t - 128) (fun h => { h with overhead := j.p 3, inj := { h.inj with pshape := set h.inj.pshape h.overhead } }) d)) d

def schedPortShapeSetCmd : AdmCmd := { op := 0x0711, objs := targetObj, run := schedPortShapeSetDo }

/-- SCHED_MARK_SET (R247, R270, R275). -/
def schedMarkSetDo (j : AdminJob) (d : Dev) : Ans × Dev :=
  let t := j.p 0
  let q := j.p 1
  checked
    [(noTarget d t || decide (8 ≤ q) || decide (4095 < j.p 2) || decide (4095 < j.p 3) || decide (j.p 3 < j.p 2), 2)]
    (fun d =>
      success
        (if t < 128 then
          let a := OSCH t + 0x080 + 4 * q
          setFld a 24 8 (j.p 4) (setFld a 12 12 (j.p 3) (setFld a 0 12 (j.p 2) d))
        else
          updHost (t - 128) (fun h =>
            { h with mark := lset ((List.range 8).map (landMark h)) q (j.p 2, j.p 3, j.p 4) }) d)) d

def schedMarkSetCmd : AdmCmd := { op := 0x0712, objs := targetObj, run := schedMarkSetDo }

/-- SCHED_HIST_SELECT (R268): the queue, or 8 for ALL. -/
def schedHistSelectDo (j : AdminJob) (d : Dev) : Ans × Dev :=
  let t := j.p 0
  checked [(noTarget d t || decide (8 < j.p 1), 2)]
    (fun d =>
      success
        (if t < 128 then
          (List.range 16).foldl (fun d i => setReg (OSCH t + 0x200 + 8 * i) 0 d) (setFld (OSCH t + 0x028) 0 4 (j.p 1) d)
        else updHost (t - 128) (fun h => { h with histSel := j.p 1, hist := [] }) d)) d

def schedHistSelectCmd : AdmCmd := { op := 0x0713, objs := targetObj, run := schedHistSelectDo }

/-- SHAPE_GROUP_SET (R263, R264). -/
def shapeGroupSetDo (j : AdminJob) (d : Dev) : Ans × Dev :=
  checked [(absentPort d (j.p 0) || shapeBad (j.p 2) (j.p 3) (j.p 4), 2)]
    (fun d =>
      success (updHost (j.p 0) (fun h =>
        { h with groups := mset h.groups (j.p 1) (reshape (groupOf h (j.p 1)) (j.p 2) (j.p 3) (j.p 4 == 1) false d.clk) }) d)) d

def shapeGroupSetCmd : AdmCmd := { op := 0x0720, objs := fun ps => [(9, 128 + ps.getD 0 0)], run := shapeGroupSetDo }

/-- SHAPE_GROUP_BIND (R264). -/
def shapeGroupBindDo (j : AdminJob) (d : Dev) : Ans × Dev :=
  checked [((ep? d (j.p 0)).isNone, 2)] (fun d => success (updEp (j.p 0) (fun e => { e with group := j.p 1 }) d)) d

def shapeGroupBindCmd : AdmCmd := { op := 0x0721, who := epWho, objs := epObj, run := shapeGroupBindDo }

/-- The depth triples and bins of a target (R267, R268): minimum, mean and maximum of each queue. -/
def targetStats (d : Dev) (t : Nat) : List (Nat × Nat × Nat) × List Nat × Nat :=
  if t < 128 then
    ((List.range 8).map (fun q => let r := fld d (OSCH t + 0x100 + 8 * q); (r 0 20, r 20 20, r 40 20)),
     (List.range 16).map (fun i => fld d (OSCH t + 0x200 + 8 * i) 0 48), fld d (OSCH t + 0x028) 0 4)
  else
    let h := host d (t - 128)
    ((List.range 8).map (fun q => lget h.depth q (0, 0, 0)), (List.range 16).map (fun i => lget h.hist i 0), h.histSel)

/-- SCHED_STATS_READ (R267, R268) (DESIGN CHOICE, log 27; DEDUCED, log 82). -/
def schedStatsReadDo (j : AdminJob) (d : Dev) : Ans × Dev :=
  checked [(noTarget d (j.p 0), 2)]
    (fun d =>
      let (ds, bins, sel) := targetStats d (j.p 0)
      result (packVals (ds.flatMap (fun x => [(4, x.1), (4, x.2.1), (4, x.2.2)]) ++ bins.map (fun b => (8, b)) ++ [(1, sel)])) d) d

def schedStatsReadCmd : AdmCmd := { op := 0x0730, recLen := 225, objs := targetObj, run := schedStatsReadDo }

/-- The commands of R270. -/
def schedCmds : List AdmCmd :=
  [ braidQueryCmd, braidRateSetCmd, schedQueueSetCmd, schedPortShapeSetCmd, schedMarkSetCmd, schedHistSelectCmd,
    shapeGroupSetCmd, shapeGroupBindCmd, schedStatsReadCmd ]

/-! ### The device address and the ports (R299) -/

/-- A command with PERSIST: it is refused with BUSY while the record was written within the last 250 ms, and else
writes it (R482). -/
def persisting (on : Nat) (key : Nat) (vals : Dev → List Nat) (rs : List (Bool × Nat)) (k : Dev → Dev) (d : Dev) : Ans × Dev :=
  checked (rs ++ [(on == 1 && recordBusy d key, 4)])
    (fun d => let d := k d; success (if on = 1 then recordPut key (vals d) d else d)) d

/-- Kiln enables RTR at the first DEVICE_DA_SET after an enable at boot that found no DA (R298). -/
def autoEnableGo (d : Dev) : Dev :=
  if d.rtr.autoEnable then
    let d := updRtr (fun r => { r with autoEnable := false }) d
    bringupAll (enableWith RTR (checkRtr d) d)
  else d

/-- DEVICE_DA_SET (R30, R298, R299) (DEDUCED, log 84). -/
def deviceDaSetDo (j : AdminJob) (d : Dev) : Ans × Dev :=
  persisting (j.p 1) 0 (fun _ => [j.p 0])
    [(decide (2 ^ 17 ≤ j.p 0) || notFlag (j.p 1), 2), (d.ports.any (fun p => decide (p.2.role < 2) && p.2.state != 0), 5)]
    (fun d => autoEnableGo (updRtr (fun r => { r with da := j.p 0, daValid := true }) d)) d

def deviceDaSetCmd : AdmCmd := { op := 0x0801, objs := fun _ => [(12, 0)], run := deviceDaSetDo }

/-- PORT_ROLE_SET (R27). -/
def portRoleSetDo (j : AdminJob) (d : Dev) : Ans × Dev :=
  let n := j.p 0
  persisting (j.p 2) (0x100 + n) (fun _ => [j.p 1]) [(decide (128 ≤ n) || decide (4 ≤ j.p 1) || notFlag (j.p 2), 2)]
    (fun d => bringup n (updPort n (fun p => { p with roleNext := j.p 1 }) d)) d

def portRoleSetCmd : AdmCmd := { op := 0x0802, objs := targetObj, run := portRoleSetDo }

/-- PORT_DRAIN (R278, R296). -/
def portDrainDo (j : AdminJob) (d : Dev) : Ans × Dev :=
  let n := j.p 0
  checked
    [(decide (128 ≤ n) || notFlag (j.p 1), 2), ((port d n).state == 0 || (j.p 1 == 0 && (port d n).state != 3), 5)]
    (fun d => success (drainPort (portNo n) (j.p 1 == 1) d)) d

def portDrainCmd : AdmCmd := { op := 0x0803, objs := targetObj, run := portDrainDo }

/-- The time a port still spends in LEARNING, in ns (R278). -/
def learningLeft (d : Dev) (n : Nat) : Nat := if (port d n).state = 1 then (port d n).inSince + 64000 - d.clk else 0

/-- PORT_QUERY (R299). -/
def portQueryDo (j : AdminJob) (d : Dev) : Ans × Dev :=
  let n := j.p 0
  checked [(decide (128 ≤ n), 2)]
    (fun d =>
      let p := port d n
      let t := if p.neighbour.isSome then trunkOf d n else []
      result (packVals ([(1, p.role), (1, p.roleNext), (1, p.state), (1, b2n p.dimmed)]
        ++ (List.range 128).map (fun i => (1, lget t i 0xFF))
        ++ [(4, (p.neighbour.map (·.1)).getD (2 ^ 32 - 1)), (1, (p.neighbour.map (·.2)).getD 0xFF), (1, p.hintReq), (1, p.hintRsp),
            (4, learningLeft d n)])) d) d

def portQueryCmd : AdmCmd := { op := 0x0804, recLen := 144, objs := targetObj, run := portQueryDo }

/-! ### Routes (R287 to R291, R299) -/

/-- A version as an object of R433. -/
def versionObj (ps : List Nat) : List (Nat × Nat) := [(8, ps.getD 0 0)]

/-- The record of a version: RTR.VER, then each entry that is not 0 with its place (R297, R482). -/
def versionRecord (ver : Nat) (d : Dev) : List Nat :=
  let gs := d.rtr.group.filter (fun p => decide (p.1 / 2048 = ver))
  let ms := d.rtr.member.filter (fun p => decide (p.1 / 64 = ver))
  (reg d (RTR + 0x028 + 4 * ver)).toNat :: (gs.flatMap (fun p => [p.1 % 2048, p.2]) ++ ms.flatMap (fun p => [2048 + p.1 % 64, p.2]))

/-- The entries of a record, put back into a version. -/
def versionPut (ver : Nat) : List Nat → Dev → Dev
  | k :: e :: rest, d => versionPut ver rest (routePut ver (k / 2048) (k % 2048) e d)
  | _, d => d

/-- Restores a version from its record (R297). -/
def versionRestore (ver : Nat) (vals : List Nat) (d : Dev) : Dev :=
  let d := versionPut ver vals.tail (setReg (RTR + 0x028 + 4 * ver) (BitVec.ofNat 64 (vals.headD 0)) d)
  updRtr (fun r => if ver = 0 then { r with loadedA := true } else { r with loadedB := true }) d

/-- The end of ROUTE_LOAD's read: the checks of R291, then every entry (R287). -/
def routeLoadEnd (j : AdminJob) (img : Option Bytes) (d : Dev) : Ans × Dev :=
  let ver := j.p 0
  let d := updRtr (fun r => { r with loading := r.loading.erase ver }) d
  match imageReason d ver (j.p 2) (j.p 3 == 1) img, img with
  | some r, _ => inconsistent r d
  | none, some b =>
    persisting (j.p 4) (0x200 + ver) (versionRecord ver) []
      (fun d => updRtr (fun r => if ver = 0 then { r with loadedA := true } else { r with loadedB := true }) (imagePut ver b d)) d
  | none, none => inconsistent 0x1811 d

/-- ROUTE_LOAD (R290, R291). An image that is longer than any valid one is read as far as a valid one goes (DEDUCED, log 29). -/
def routeLoadDo (j : AdminJob) (d : Dev) : Ans × Dev :=
  let ver := j.p 0
  if notFlag ver || notFlag (j.p 3) || notFlag (j.p 4) then refusal 2 d
  else if d.rtr.loading.contains ver then refusal 4 d
  else if decide (ver = b2n d.rtr.inj) && j.p 3 == 0 then inconsistent 0x1810 d
  else if j.p 2 = 0 then inconsistent 0x1811 d
  else adminRead j (j.p 1) (min (j.p 2) 16960) routeLoadEnd 0 (updRtr (fun r => { r with loading := r.loading ++ [ver] }) d)

def routeLoadCmd : AdmCmd := { op := 0x0810, objs := versionObj, waits := false, run := routeLoadDo }

/-- A version, table or index out of range. -/
def routeIxBad (ver table ix : Nat) : Bool := notFlag ver || notFlag table || decide ((if table = 0 then 2048 else 64) ≤ ix)

/-- ROUTE_ENTRY_SET (R287, R291). -/
def routeEntrySetDo (j : AdminJob) (d : Dev) : Ans × Dev :=
  let ver := j.p 0
  if routeIxBad ver (j.p 1) (j.p 2) || notFlag (j.p 4) || notFlag (j.p 5) then refusal 2 d
  else
    match firstReason
      [(decide (ver = b2n d.rtr.inj) && j.p 4 == 0, 0x1810), (entryBad (j.p 3), 0x1816),
       (ownEntry d (j.p 1) (j.p 2) && entryHas (j.p 3), 0x1817)] with
    | some r => inconsistent r d
    | none => persisting (j.p 5) (0x200 + ver) (versionRecord ver) [] (routePut ver (j.p 1) (j.p 2) (j.p 3)) d

def routeEntrySetCmd : AdmCmd := { op := 0x0811, objs := versionObj, run := routeEntrySetDo }

/-- ROUTE_ENTRY_READ (R299). -/
def routeEntryReadDo (j : AdminJob) (d : Dev) : Ans × Dev :=
  checked [(routeIxBad (j.p 0) (j.p 1) (j.p 2), 2)] (fun d => result (toLe 8 (routeGet d (j.p 0) (j.p 1) (j.p 2))) d) d

def routeEntryReadCmd : AdmCmd := { op := 0x0812, objs := versionObj, run := routeEntryReadDo }

/-- Is a version LOADED. -/
def loaded (d : Dev) (ver : Nat) : Bool := if ver = 0 then d.rtr.loadedA else d.rtr.loadedB

/-- ROUTE_EPOCH_SET (R288, R299). -/
def routeEpochSetDo (j : AdminJob) (d : Dev) : Ans × Dev :=
  if notFlag (j.p 0) || notFlag (j.p 1) then refusal 2 d
  else if !loaded d (j.p 0) then inconsistent 0x1818 d
  else persisting (j.p 1) 0x300 (fun _ => [j.p 0]) [] (updRtr (fun r => { r with inj := j.p 0 == 1 })) d

def routeEpochSetCmd : AdmCmd := { op := 0x0813, objs := versionObj, run := routeEpochSetDo }

/-- ROUTE_DEFL_SET (R284, R299). -/
def routeDeflSetDo (j : AdminJob) (d : Dev) : Ans × Dev :=
  checked [(decide (128 ≤ j.p 0) || decide (8 ≤ j.p 1) || decide (4096 ≤ j.p 2) || j.p 2 == 0, 2)]
    (fun d => success (setFld (OSCH (j.p 0) + 0x0A0 + 4 * j.p 1) 0 12 (j.p 2) d)) d

def routeDeflSetCmd : AdmCmd := { op := 0x0820, objs := targetObj, run := routeDeflSetDo }

/-- ROUTE_PARAM_SET (R281, R286, R299) (DEDUCED, log 84). -/
def routeParamSetDo (j : AdminJob) (d : Dev) : Ans × Dev :=
  checked [(decide (31 < j.p 0) || j.p 3 == 0 || decide (4 < j.p 3), 2)]
    (fun d =>
      success (setFld (RTR + 0x034) 0 3 (j.p 3)
        (setFld (RTR + 0x030) 16 16 (j.p 2) (setFld (RTR + 0x030) 8 8 (j.p 1) (setFld (RTR + 0x030) 0 5 (j.p 0) d))))) d

def routeParamSetCmd : AdmCmd := { op := 0x0821, objs := fun _ => [(12, 1)], run := routeParamSetDo }

/-- ROUTE_LAND_SET (R275, R299). -/
def routeLandSetDo (j : AdminJob) (d : Dev) : Ans × Dev :=
  checked [(absentPort d (j.p 0) || j.p 1 == 0, 2)] (fun d => success (setFld (RTR + 0x040 + 4 * j.p 0) 0 16 (j.p 1) d)) d

def routeLandSetCmd : AdmCmd := { op := 0x0822, objs := fun ps => [(9, 128 + ps.getD 0 0)], run := routeLandSetDo }

/-- The header of a probe: TTL above 0, DEFL 0, TRIM 0 (DEDUCED, log 83). -/
def probeHdr (j : AdminJob) : Hdr :=
  { ttl := 1, dstDa := BitVec.ofNat 17 (j.p 0), srcDa := BitVec.ofNat 17 (j.p 1), epoch := j.p 2 == 1, vn := j.p 3 == 1
    tc := BitVec.ofNat 2 (j.p 4), entropy := BitVec.ofNat 16 (j.p 5), det := j.p 6 == 1 }

/-- The port and outcome of a decision: 0 forward, 1 deflect, 2 trim, 3 no route. -/
def Decision.report : Decision → Nat × Nat
  | .noRoute => (0xFF, 3)
  | .send p => (p, 0)
  | .deflect p => (p, 1)
  | .trim p _ => (p, 2)

/-- ROUTE_PROBE (R284, R299): the entry, up to eight candidates (unused ones none), then the decision (DEDUCED, log 83). -/
def routeProbeDo (j : AdminJob) (d : Dev) : Ans × Dev :=
  let arr := noneOf 1 (j.p 7)
  checked
    [(decide (2 ^ 17 ≤ j.p 0) || decide (2 ^ 17 ≤ j.p 1) || notFlag (j.p 2) || notFlag (j.p 3) || decide (4 ≤ j.p 4) || notFlag (j.p 6)
        || arr.any (fun a => decide (128 ≤ a)), 2)]
    (fun d =>
      let h := probeHdr j
      let cs := (cands d h arr).1 ++ (cands d h arr).2
      let one (i : Nat) : List (Nat × Nat) :=
        match cs[i]? with
        | none => [(1, 0xFF), (4, 2 ^ 32 - 1), (1, 0xFF), (4, 2 ^ 32 - 1), (1, 0xFF)]
        | some c => [(1, c.port), (4, c.depth), (1, if h.vn then (port d c.port).hintRsp else (port d c.port).hintReq), (4, c.cost), (1, (port d c.port).state)]
      let r := (decide284 d h arr).report
      result (packVals ([(8, routeEntry d h)] ++ (List.range 8).flatMap one ++ [(1, r.1), (1, queueOf h), (1, r.2)])) d) d

def routeProbeCmd : AdmCmd := { op := 0x0830, recLen := 168, run := routeProbeDo }

/-- The commands of R299. -/
def routeCmds : List AdmCmd :=
  [ deviceDaSetCmd, portRoleSetCmd, portDrainCmd, portQueryCmd, routeLoadCmd, routeEntrySetCmd, routeEntryReadCmd,
    routeEpochSetCmd, routeDeflSetCmd, routeParamSetCmd, routeLandSetCmd, routeProbeCmd ]

end Sys2Proof.Machine
end

