-- ==== Sys2Proof/Machine/AdmLane.lean ====
section
/-! DEFINITION. The admin commands of lanes, clocks, tests and cages (R350) and of fabric time (R372). -/

namespace Sys2Proof.Machine

/-! ### Packing of signed values -/

/-- A signed value of `n` bytes, saturating (R429). -/
def signedLe (n : Nat) (v : Int) : Nat × Nat :=
  let top : Int := ((2 ^ (8 * n - 1) : Nat) : Int)
  (n, ofSigned (8 * n) (max (-top) (min (top - 1) v)))

/-- A time in units of 2^-16 ns, in ps. -/
def toPs (v : Int) : Int := v * 1000 / unit16

/-! ### Lanes -/

/-- Is a parameter no fabric port. -/
def notPort (n : Nat) : Bool := decide (128 ≤ n)

/-- LANE.STATE.PRECODE: precoding of the received lanes. -/
def rxPrecode (l : Lane) : Nat := b2n ((l.ends[0]?).any (·.farPre)) + 2 * b2n ((l.ends[1]?).any (·.farPre))

/-- The clock offset as LANE.FCLK shows it (DESIGN CHOICE, log 60). -/
def fclkVals (l : Lane) : List (Nat × Nat) := [signedLe 2 (l.fclk.getD 0), (1, b2n l.fclk.isSome)]

/-- Six taps, or six bytes of none where they are not known. -/
def tapVals (t : List Int) : List (Nat × Nat) :=
  (List.range 6).map (fun i => match t[i]? with | some v => signedLe 1 v | none => (1, 0xFF))

/-- LANE_QUERY (R350): phase, lanes, baud, precoding; taps of lanes 0 and 1 at this end and at the far end; corrected
and uncorrectable rates of lanes 0 and 1, which no command raises; clock offset, warm, history present (DESIGN CHOICE, log 60). -/
def laneQueryDo (j : AdminJob) (d : Dev) : Ans × Dev :=
  checked [(notPort (j.p 0), 2)]
    (fun d =>
      let l := (port d (j.p 0)).lane
      let e (i : Nat) : LaneEnd := lget l.ends i {}
      result (packVals ([(1, l.phase), (1, l.lanes), (1, b2n l.half), (1, rxPrecode l)]
        ++ tapVals (e 0).taps ++ tapVals (e 1).taps ++ tapVals (e 0).far ++ tapVals (e 1).far
        ++ [(4, 0), (4, 0), (4, 0), (4, 0)] ++ fclkVals l ++ [(1, b2n l.warm), (1, b2n (mhas d.nv.hist (j.p 0)))])) d) d

def laneQueryCmd : AdmCmd := { op := 0x0901, recLen := 49, objs := targetObj, run := laneQueryDo }

/-- LANE_RETRAIN (R338, R350): it replies when the proposal is answered, withdrawn or abandoned (DEDUCED, log 31; DEDUCED, log 57). -/
def laneRetrainDo (j : AdminJob) (d : Dev) : Ans × Dev :=
  let l := (port d (j.p 0)).lane
  if notPort (j.p 0) || decide (4 < j.p 1) || notFlag (j.p 2) then refusal 2 d
  else if (port d (j.p 0)).state = 0 then refusal 5 d
  else if l.phase ≠ 5 ∨ l.nego.isSome = true then refusal 4 d
  else (.later, propose (j.p 0) (j.p 1) (j.p 2) (some j.ctx) d)

def laneRetrainCmd : AdmCmd := { op := 0x0902, objs := targetObj, run := laneRetrainDo }

/-- LANE_HISTORY_CLEAR of a port, or of all with none (R350, R429). -/
def laneHistoryClearDo (j : AdminJob) (d : Dev) : Ans × Dev :=
  let all := noneOf 1 (j.p 0)
  checked [(all.any notPort, 2)]
    (fun d =>
      let hit (n : Nat) : Bool := match all with | none => true | some m => n == m
      let gone := d.nv.hist.filter (fun p => hit p.1)
      success (gone.foldl (fun d p => wearCount (0x080000 + p.1 * 0x1000) 1 d)
        { d with nv := { d.nv with hist := d.nv.hist.filter (fun p => !hit p.1) } })) d

def laneHistoryClearCmd : AdmCmd := { op := 0x0903, objs := targetObj, run := laneHistoryClearDo }

/-! ### Clock parents -/

/-- CLOCK_PARENT_SET (R330, R357): the list counts in ASSIGN. -/
def clockParentSetDo (j : AdminJob) (d : Dev) : Ans × Dev :=
  let ps := (List.range 4).filterMap (fun i => noneOf 1 (j.p i))
  checked [(ps.any notPort || !decide ps.Nodup, 2)]
    (fun d =>
      let d := updTime (fun t => { t with list := ps }) d
      success (if electMode d then d else parentAgain d)) d

def clockParentSetCmd : AdmCmd := { op := 0x0904, objs := fun _ => [(12, 2)], run := clockParentSetDo }

/-- CLOCK_PARENT_QUERY (R350): candidates, parent (none: holdover), held frequency offset in 0.01 ppm. -/
def clockParentQueryDo (_ : AdminJob) (d : Dev) : Ans × Dev :=
  result (packVals ((List.range 4).map (fun i => (1, lget (parentList d) i 0xFF)) ++ [(1, d.time.parent.getD 0xFF), signedLe 2 d.time.heldPpm])) d

def clockParentQueryCmd : AdmCmd := { op := 0x0905, objs := fun _ => [(12, 2)], run := clockParentQueryDo }

/-! ### Test (R341 to R346) -/

/-- Is a port in TEST. -/
def inTest (d : Dev) (n : Nat) : Bool := (port d n).lane.phase == 7

/-- LANE_TEST_ENTER (R343). -/
def laneTestEnterDo (j : AdminJob) (d : Dev) : Ans × Dev :=
  let n := j.p 0
  checked [(notPort n || notFlag (j.p 1), 2), (enabled d (LINK n), 5)]
    (fun d => success (updLane n (fun l => { l with phase := 7, remoteAllow := j.p 1 == 1 }) d)) d

def laneTestEnterCmd : AdmCmd := { op := 0x0910, objs := targetObj, run := laneTestEnterDo }

/-- LANE_TEST_EXIT (R343). -/
def laneTestExitDo (j : AdminJob) (d : Dev) : Ans × Dev :=
  let n := j.p 0
  checked [(notPort n, 2), (!inTest d n, 5)] (fun d => success (bringup n (laneDown n .none d))) d

def laneTestExitCmd : AdmCmd := { op := 0x0911, objs := targetObj, run := laneTestExitDo }

/-- LANE.PRBS starts from zero. -/
def prbsClear (l : Lane) : Lane :=
  { l with svcChk := false, svcErrors := 0, svcBits := 0, ends := l.ends.map (fun e => { e with chkLock := false, errors := 0, bits := 0 }) }

/-- LANE_PATTERN_SET (R342): bits 0 to 2 of the mask are lane 0, lane 1 and the service lane. -/
def lanePatternSetDo (j : AdminJob) (d : Dev) : Ans × Dev :=
  let n := j.p 0
  checked [(notPort n || decide (7 < j.p 1) || decide (7 < j.p 2) || decide (7 < j.p 3), 2), (!inTest d n, 5)]
    (fun d =>
      success (updLane n (fun l => prbsClear { l with patMask := j.p 1, gen := j.p 2, chk := j.p 3, user := j.p 4 }) d)) d

def lanePatternSetCmd : AdmCmd := { op := 0x0912, objs := targetObj, run := lanePatternSetDo }

/-- LANE_LOOPBACK_SET (R344): bit 3 of the mask is the clock lane, which has serial loopback alone; the far end
loops data lanes alone (R341). A far-end loopback is requested, or its request ended, by a LOOPBACK frame. -/
def laneLoopbackSetDo (j : AdminJob) (d : Dev) : Ans × Dev :=
  let n := j.p 0
  let k := j.p 1
  let m := j.p 2
  checked
    [(notPort n || decide (3 < k) || decide (15 < m) || (bitOf m 3 && k != 2) || (bitOf m 2 && k == 3), 2), (!inTest d n, 5)]
    (fun d =>
      let was := (port d n).lane.loopback
      let d := updLane n (fun l => { l with loopback := k, loopMask := m }) d
      success (if k = 3 then sendFrame n 10 (toLe 1 (1 + 2 * (m % 4))) d else if was = 3 then sendFrame n 10 (toLe 1 0) d else d)) d

def laneLoopbackSetCmd : AdmCmd := { op := 0x0913, objs := targetObj, run := laneLoopbackSetDo }

/-- The range of the count, length or exponent of an injection (R345): one bit, k symbols, a burst, a rate. -/
def injectBad (kind v : Nat) : Bool :=
  match kind with
  | 0 => false
  | 1 => v == 0 || decide (16 < v)
  | 2 => v == 0 || decide (1024 < v)
  | 3 => decide (v < 10) || decide (40 < v)
  | _ => true

/-- LANE_ERR_INJECT (R343, R345). A rate injection goes on until it is stopped; the other kinds happen once, below
what the commands of this model show. -/
def laneErrInjectDo (j : AdminJob) (d : Dev) : Ans × Dev :=
  let n := j.p 0
  let lane := j.p 1
  let stop := j.p 4 == 1
  checked
    [(notPort n || decide (2 < lane) || notFlag (j.p 4) || (!stop && injectBad (j.p 2) (j.p 3)), 2),
     (lane == 2 && !inTest d n, 5), (curMode d == 0 && (port d n).state != 0, 5)]
    (fun d =>
      let others (l : Lane) : List (Nat × Nat × Nat) := l.inject.filter (fun i => i.1 != lane)
      success (updLane n (fun l =>
        { l with inject := if stop then others l else if j.p 2 = 3 then others l ++ [(lane, 3, j.p 3)] else l.inject }) d)) d

def laneErrInjectCmd : AdmCmd := { op := 0x0914, objs := targetObj, run := laneErrInjectDo }

/-- Points of a range with a step; none if the range or step is wrong. -/
def pointsOf (lo hi top : Int) (step : Nat) : Option Nat :=
  if lo < -top ∨ top < hi ∨ hi < lo ∨ step = 0 then none else some ((hi - lo).toNat / step + 1)

/-- Does a scan of `points` points of 2^`dwell` unit intervals exceed 800 µs (R346): 106.25, 53.125 or, on the
service lane, 10.625 unit intervals per ns. -/
def scanLong (l : Lane) (lane points dwell : Nat) : Bool :=
  let perUs := if lane = 2 then 10625 else if l.half then 53125 else 106250
  decide (800 * perUs < points * 2 ^ dwell)

/-- LANE_EYE_SCAN (R346): counts that the spec leaves to the lane, phase-major, written where the command says (DESIGN CHOICE, log 60). -/
def laneEyeScanDo (j : AdminJob) (d : Dev) : Ans × Dev :=
  let n := j.p 0
  let l := (port d n).lane
  match pointsOf (j.p 3) (j.p 4) 63 (j.p 5), pointsOf (toSigned 8 (j.p 6)) (toSigned 8 (j.p 7)) 63 (j.p 8) with
  | some a, some b =>
    let len := 2 * (a * b)
    let bad := match j.ctx.path with
      | .mailbox => decide (0x10000 < j.p 10 + len)
      | .ring f => decide (2 ^ 52 < j.p 10 + len) || hitsBar d f.hp (j.p 10) len
    checked [(notPort n || decide (2 < j.p 1) || decide (2 < j.p 2) || scanLong l (j.p 1) (a * b) (j.p 9) || bad, 2)]
      (fun d =>
        let (v, d) := fresh d
        let bs := toLe len v
        success (match j.ctx.path with
          | .mailbox => { d with mnt := { d.mnt with data := cellsWrite d.mnt.data (j.p 10) bs } }
          | .ring f => hostWrite f (j.p 10) bs false false d)) d
  | _, _ => refusal 2 d

def laneEyeScanCmd : AdmCmd := { op := 0x0915, objs := targetObj, run := laneEyeScanDo }

/-- What a locked checker has counted since it was last read: left open (R342). -/
def checkerCount (locked : Bool) (errors bits : Nat) (d : Dev) : (Nat × Nat) × Dev :=
  if !locked then ((errors, bits), d)
  else
    let (b, d) := fresh d
    let (e, d) := fresh d
    let more := b % 2 ^ 48
    ((min (2 ^ 48 - 1) (errors + e % (more + 1)), min (2 ^ 64 - 1) (bits + more)), d)

/-- The checkers of a port count on (R342) (DESIGN CHOICE, log 60). -/
def prbsCount (n : Nat) (d : Dev) : Dev :=
  let (x, d) := checkerCount ((port d n).lane.ends.headD {}).chkLock ((port d n).lane.ends.headD {}).errors ((port d n).lane.ends.headD {}).bits d
  let e1 := lget (port d n).lane.ends 1 {}
  let (y, d) := checkerCount e1.chkLock e1.errors e1.bits d
  let (z, d) := checkerCount (port d n).lane.svcChk (port d n).lane.svcErrors (port d n).lane.svcBits d
  updEnd n 0 (fun e => { e with errors := x.1, bits := x.2 }) (updEnd n 1 (fun e => { e with errors := y.1, bits := y.2 })
    (updLane n (fun l => { l with svcErrors := z.1, svcBits := z.2 }) d))

/-- LANE_PRBS_READ (R350): errors, bits compared and lock of lane 0, lane 1 and the service lane (DESIGN CHOICE, log 60). -/
def lanePrbsReadDo (j : AdminJob) (d : Dev) : Ans × Dev :=
  let n := j.p 0
  checked [(notPort n, 2)]
    (fun d =>
      let d := prbsCount n d
      let l := (port d n).lane
      let e (i : Nat) : LaneEnd := lget l.ends i {}
      result (packVals [(8, (e 0).errors), (8, (e 1).errors), (8, l.svcErrors), (8, (e 0).bits), (8, (e 1).bits), (8, l.svcBits),
        (1, b2n (e 0).chkLock), (1, b2n (e 1).chkLock), (1, b2n l.svcChk)]) d) d

def lanePrbsReadCmd : AdmCmd := { op := 0x0916, recLen := 51, objs := targetObj, run := lanePrbsReadDo }

/-! ### Cages -/

/-- CAGE_SET (R348, R350): PWR_EN of the command counts where power is not automatic (DEDUCED, log 61). -/
def cageSetDo (j : AdminJob) (d : Dev) : Ans × Dev :=
  let n := j.p 0
  checked
    [(notPort n || notFlag (j.p 1) || notFlag (j.p 2) || notFlag (j.p 3) || decide (3 < j.p 4) || decide (3 < j.p 5), 2),
     (j.p 3 == 1 && (port d n).lane.fault, 5)]
    (fun d =>
      success (updLane n (fun l =>
        { l with
          auto := j.p 1 == 1, autoPwr := j.p 2 == 1, indA := j.p 4, indB := j.p 5, isbOk := true
          pwrEn := (if j.p 2 = 1 then l.pwrEn else j.p 3 == 1) && !l.faultLock }) d)) d

def cageSetCmd : AdmCmd := { op := 0x0920, objs := targetObj, run := cageSetDo }

/-- The commands of R350. -/
def laneCmds : List AdmCmd :=
  [ laneQueryCmd, laneRetrainCmd, laneHistoryClearCmd, clockParentSetCmd, clockParentQueryCmd, laneTestEnterCmd,
    laneTestExitCmd, lanePatternSetCmd, laneLoopbackSetCmd, laneErrInjectCmd, laneEyeScanCmd, lanePrbsReadCmd, cageSetCmd ]

/-! ### Fabric time (R372) -/

/-- The value of a time state (R353). -/
def TimeState.code : TimeState → Nat
  | .freeRun => 0
  | .locking => 1
  | .holdover => 2
  | .locked => 3

/-- theta as TIME.OFFSET shows it: units of 1/256 ns, saturating. -/
def thetaShown (t : Int) : Nat × Nat := signedLe 4 (t / 256)

/-- The time device-wide setting, as an object. -/
def timeObj (_ : List Nat) : List (Nat × Nat) := [(12, 3)]

/-- TIME_QUERY (R372): time in HOLDOVER in ns. -/
def timeQueryDo (_ : AdminJob) (d : Dev) : Ans × Dev :=
  let t := d.time
  let lim (i : Nat) : Nat × Nat := (1, fld d (TIME + 0x024) (8 * i) 8)
  result (packVals ([(1, t.state.code), (1, timeQ d), (1, b2n (electMode d)), (4, t.gmDa), (1, t.gmClass), (1, t.steps),
    (1, t.parent.getD 0xFF), thetaShown t.theta] ++ (List.range 4).map lim
    ++ [(2, t.utc), (8, if t.state = .holdover then d.clk - t.holdSince else 0), (4, t.stepCount)])) d

def timeQueryCmd : AdmCmd := { op := 0x0A01, recLen := 44, vf := true, objs := timeObj, run := timeQueryDo }

/-- The configuration of TIME_CFG_SET takes effect (R357, R359). In ELECT the parent in use stays the candidate until
the next evaluation. -/
def timeCfgApply (vals : List Nat) (d : Dev) : Dev :=
  let v (i : Nat) : Nat := lget vals i 0
  let was := electMode d
  let d := setFld (TIME + 0x020) 8 8 (v 2) (setFld (TIME + 0x020) 1 1 (v 1) (setFld (TIME + 0x020) 0 1 (v 0) d))
  let d := setFld (TIME + 0x024) 24 8 (v 6) (setFld (TIME + 0x024) 16 8 (v 5) (setFld (TIME + 0x024) 8 8 (v 4) (setFld (TIME + 0x024) 0 8 (v 3) d)))
  if v 0 = 0 then parentAgain (setGm (v 1 == 1) d)
  else if was then d
  else updTime (fun t => { t with elected := t.parent.toList }) d

/-- TIME_CFG_SET (R372). -/
def timeCfgSetDo (j : AdminJob) (d : Dev) : Ans × Dev :=
  persisting (j.p 7) 0x400 (fun _ => j.params.take 7)
    [(notFlag (j.p 0) || notFlag (j.p 1) || notFlag (j.p 7) || j.p 3 == 0 || decide (j.p 4 < j.p 3) || j.p 5 == 0 || j.p 6 == 0, 2)]
    (timeCfgApply (j.params.take 7)) d

def timeCfgSetCmd : AdmCmd := { op := 0x0A02, objs := timeObj, run := timeCfgSetDo }

/-- TIME_SET (R352, R359). -/
def timeSetDo (j : AdminJob) (d : Dev) : Ans × Dev :=
  checked [(!d.time.isGm, 5)]
    (fun d =>
      let d := timeStep ((j.p 0 * 65536 + j.p 1 : Nat) - now16 d) d
      success
        (if d.time.state = .freeRun ∧ enabled d TIME = true then
          setTimeState .locked (updTime (fun t => { t with gmClass := 1 }) d)
        else d)) d

def timeSetCmd : AdmCmd := { op := 0x0A03, objs := timeObj, run := timeSetDo }

/-- TIME_UTC_SET (R372). -/
def timeUtcSetDo (j : AdminJob) (d : Dev) : Ans × Dev :=
  persisting (j.p 1) 0x401 (fun _ => [j.p 0]) [(notFlag (j.p 1), 2)] (updTime (fun t => { t with utc := j.p 0 })) d

def timeUtcSetCmd : AdmCmd := { op := 0x0A04, objs := timeObj, run := timeUtcSetDo }

/-- TIME_PORT_QUERY (R372): times in ps, signed (DESIGN CHOICE, log 27). -/
def timePortQueryDo (j : AdminJob) (d : Dev) : Ans × Dev :=
  let n := j.p 0
  checked [(notPort n, 2)]
    (fun d =>
      let p := (port d n).pt
      result (packVals [signedLe 4 (toPs (p.d.getD 0)), (1, b2n (dValid p)), signedLe 4 (toPs p.lastD), signedLe 4 (toPs p.lastTheta),
        signedLe 4 (toPs (asymOf d n)), (4, p.accepted), (4, p.discarded), (2, (p.seq + 65535) % 65536), (2, (p.rxSeq + 65535) % 65536)]) d) d

def timePortQueryCmd : AdmCmd := { op := 0x0A10, recLen := 32, objs := targetObj, run := timePortQueryDo }

/-- TIME_ASYM_SET (R355). -/
def timeAsymSetDo (j : AdminJob) (d : Dev) : Ans × Dev :=
  let n := j.p 0
  persisting (j.p 2) (0x500 + n) (fun _ => [j.p 1]) [(notPort n || notFlag (j.p 2), 2)]
    (updPTime n (fun p => { p with asym := toSigned 16 (j.p 1) })) d

def timeAsymSetCmd : AdmCmd := { op := 0x0A11, objs := targetObj, run := timeAsymSetDo }

/-- The functions that TIME_MIRROR_SET names: the one it is for, and the owner of the mirror. -/
def mirrorWho (ps : List Nat) (d : Dev) : List (Option Func) :=
  (if ps.getD 1 0 < 8 ∧ ps.getD 2 0 < 32 then some (mkFunc (ps.getD 1 0) (ps.getD 2 0)) else none)
    :: ((mget d.time.mirrors (ps.getD 0 0)).map (fun m => some m.f)).toList

/-- TIME_MIRROR_SET (R367) (DEDUCED, log 84). -/
def timeMirrorSetDo (j : AdminJob) (d : Dev) : Ans × Dev :=
  checked
    [(decide (64 ≤ j.p 0) || !funcExists d (j.p 1) (j.p 2) || !busOk (j.p 3) 64 || decide (1000 < j.p 4) || hitsBar d (j.p 1) (j.p 3) 64, 2)]
    (fun d =>
      success (updTime (fun t =>
        { t with mirrors :=
            if j.p 4 = 0 then mdel t.mirrors (j.p 0)
            else mset t.mirrors (j.p 0) { f := mkFunc (j.p 1) (j.p 2), addr := j.p 3, period := j.p 4 } }) d)) d

def timeMirrorSetCmd : AdmCmd :=
  { op := 0x0A20, vf := true, who := mirrorWho, objs := fun ps => [(11, ps.getD 0 0)], run := timeMirrorSetDo }

/-- The settings of TIME_PPS_SET take effect (R368 to R370). -/
def timePpsApply (vals : List Nat) (d : Dev) : Dev :=
  let v (i : Nat) : Nat := lget vals i 0
  let a := TIME + 0x050
  let d := setFld a 3 1 (v 5) (setFld a 2 1 (v 4) (setFld a 1 1 (v 1) (setFld a 0 1 (v 0) d)))
  updTime (fun t => { t with outDelay := v 3, inDelay := v 6 }) (setFld a 8 8 (v 2) (setFld a 4 1 (v 7) d))

/-- TIME_PPS_SET (R372). -/
def timePpsSetDo (j : AdminJob) (d : Dev) : Ans × Dev :=
  persisting (j.p 8) 0x600 (fun _ => j.params.take 8)
    [([0, 1, 4, 5, 7, 8].any (fun i => notFlag (j.p i)) || j.p 2 == 0, 2)] (timePpsApply (j.params.take 8)) d

def timePpsSetCmd : AdmCmd := { op := 0x0A21, objs := timeObj, run := timePpsSetDo }

/-- The commands of R372. -/
def timeCmds : List AdmCmd :=
  [ timeQueryCmd, timeCfgSetCmd, timeSetCmd, timeUtcSetCmd, timePortQueryCmd, timeAsymSetCmd, timeMirrorSetCmd, timePpsSetCmd ]

end Sys2Proof.Machine
end

