-- ==== Sys2Proof/Machine/AdmHost.lean ====
section
/-! DEFINITION. The admin commands of host ports (R403) and of DMA channels (R418). -/

namespace Sys2Proof.Machine

/-! ### Host ports (R403) -/

/-- A host port as an object of R433. -/
def hostObj (ps : List Nat) : List (Nat × Nat) := [(9, 128 + ps.getD 0 0)]

/-- HOST_QUERY (R403): five registers, then per function its D-state and MSI-X Enable; none where there is no such
function. -/
def hostQueryDo (j : AdminJob) (d : Dev) : Ans × Dev :=
  let h := j.p 0
  checked [(absentPort d h, 2)]
    (fun d =>
      let one (v : Nat) : List (Nat × Nat) :=
        if funcExists d h v then
          let x := fn d (mkFunc h v)
          [(1, if x.d3 then 3 else 0), (1, b2n x.msixEn)]
        else [(1, 0xFF), (1, 0xFF)]
      result (packVals ([(4, hostCfgReg d h), (4, hostVecReg d h), (4, hostLinkReg d h), (4, hostFuncReg d h), (4, hostSlotReg d h)]
        ++ (List.range 32).flatMap one)) d) d

def hostQueryCmd : AdmCmd :=
  { op := 0x0B01, recLen := 84, vf := true, vfPort := fun ps => some (ps.getD 0 0), objs := hostObj, run := hostQueryDo }

/-- HOST_FUNC_CONFIG (R382, R403) (DEDUCED, log 84). -/
def hostFuncConfigDo (j : AdminJob) (d : Dev) : Ans × Dev :=
  let h := j.p 0
  persisting (j.p 4) (0x700 + h) (fun _ => [j.p 1, j.p 2, j.p 3])
    [(absentPort d h || decide (31 < j.p 1) || j.p 2 == 0 || decide (2048 < j.p 2) || j.p 3 == 0 || decide (2048 < j.p 3)
        || decide (4096 < j.p 2 + j.p 1 * j.p 3) || notFlag (j.p 4), 2)]
    (updHost h (fun x => { x with nextCfg := some (j.p 1, j.p 2, j.p 3) })) d

def hostFuncConfigCmd : AdmCmd := { op := 0x0B02, objs := hostObj, run := hostFuncConfigDo }

/-- HOST_SPLIT_SET (R373). -/
def hostSplitSetDo (j : AdminJob) (d : Dev) : Ans × Dev :=
  let c := j.p 0
  persisting (j.p 2) (0x710 + c) (fun _ => [j.p 1]) [(decide (4 ≤ c) || notFlag (j.p 1) || notFlag (j.p 2), 2)]
    (updHost (2 * c) (fun x => { x with splitNext := some (j.p 1 == 1) })) d

def hostSplitSetCmd : AdmCmd := { op := 0x0B03, objs := fun ps => [(12, 0x100 + ps.getD 0 0)], run := hostSplitSetDo }

/-- The settings of HOST_SLOT_SET other than PWR_EN. -/
def slotApply (h : Nat) (vals : List Nat) (d : Dev) : Dev :=
  let v (i : Nat) : Nat := lget vals i 0
  slotSet h (fun x => { x with auto := v 0 == 1, autoPwr := v 1 == 1, attnInd := v 3, pwrInd := v 4, notify := v 5 }) d

/-- HOST_SLOT_SET (R392, R393, R403). With PWR_EN = 0 in ON it replies as HOST_SLOT_REMOVE does. -/
def hostSlotSetDo (j : AdminJob) (d : Dev) : Ans × Dev :=
  let h := j.p 0
  let key := 0x720 + h
  checked
    [(absentPort d h || notFlag (j.p 1) || notFlag (j.p 2) || notFlag (j.p 3) || decide (2 < j.p 4) || decide (2 < j.p 5) || notFlag (j.p 7), 2),
     (j.p 3 == 1 && ((host d h).slot == .fault || (host d h).slot == .empty), 5), (j.p 7 == 1 && recordBusy d key, 4)]
    (fun d =>
      let vals := (j.params.drop 1).take 6
      let d := slotApply h vals d
      let d := if j.p 7 = 1 then recordPut key vals d else d
      if j.p 3 = 0 ∧ (host d h).slot = .on then (.later, removalStart (hostNo h) (some (j.ctx, j.op)) d)
      else if j.p 3 = 1 ∧ (host d h).slot = .off then success (slotSet h (fun x => { x with slot := .powering, pwrEn := true }) d)
      else success d) d

def hostSlotSetCmd : AdmCmd := { op := 0x0B10, objs := hostObj, run := hostSlotSetDo }

/-- HOST_SLOT_REMOVE (R392, R403) (DEDUCED, log 31). -/
def hostSlotRemoveDo (j : AdminJob) (d : Dev) : Ans × Dev :=
  let h := j.p 0
  if absentPort d h then refusal 2 d
  else if (host d h).slot ≠ .on then refusal 5 d
  else (.later, removalStart (hostNo h) (some (j.ctx, j.op)) d)

def hostSlotRemoveCmd : AdmCmd := { op := 0x0B11, objs := hostObj, run := hostSlotRemoveDo }

/-- HOST_WAKE (R386). -/
def hostWakeDo (j : AdminJob) (d : Dev) : Ans × Dev :=
  let h := j.p 0
  checked [(absentPort d h, 2), (!(fn d (mkFunc h 0)).d3 && !(host d h).perst, 5)] (fun d => success (wake h d)) d

def hostWakeCmd : AdmCmd := { op := 0x0B12, objs := hostObj, run := hostWakeDo }

/-- The commands of R403. -/
def hostCmds : List AdmCmd :=
  [ hostQueryCmd, hostFuncConfigCmd, hostSplitSetCmd, hostSlotSetCmd, hostSlotRemoveCmd, hostWakeCmd ]

/-! ### DMA channels (R418) -/

def chObj (ps : List Nat) : List (Nat × Nat) := [(10, ps.getD 0 0)]

/-- A PF may name only channels of its own host port. -/
def chPort (ps : List Nat) (d : Dev) : Option Nat := (dmaCh? d (ps.getD 0 0)).map (fun x => x.f.hp.val)

/-- A command on an existing channel. -/
def onCh (j : AdminJob) (k : Nat → DmaCh → Dev → Ans × Dev) (d : Dev) : Ans × Dev :=
  match dmaCh? d (j.p 0) with
  | none => refusal 2 d
  | some x => k (j.p 0) x d

/-- The endpoint of a channel is not DATAGRAM, or not of the slot's job and the host port (R404). -/
def chEpBad (d : Dev) (e h : Nat) (s : JobSlot) : Bool :=
  match ep? d e, blockOf d e with
  | some x, some b => x.typ != 1 || b.job != s.job || b.f.hp.val != h
  | _, _ => true

/-- DMA_CH_CREATE (R404, R407). -/
def dmaChCreateDo (j : AdminJob) (d : Dev) : Ans × Dev :=
  let h := j.p 1
  let b := noneOf 2 (j.p 3)
  let e := noneOf 4 (j.p 6)
  let v := noneOf 2 (j.p 10)
  match slot? d (j.p 2) with
  | none => refusal 2 d
  | some s =>
    checked
      [(decide (64 ≤ j.p 0) || absentPort d h || decide (15 < j.p 7) || decide (3 < j.p 8) || decide (3 < j.p 9)
          || [11, 12, 13].any (fun i => notFlag (j.p i)) || b.any (fun t => (slot? d t).isNone) || e.any (fun i => (ep? d i).isNone), 2),
       ((dmaCh? d (j.p 0)).isSome, 4),
       (b.any (fun t => (slot? d t).any (fun x => x.job != s.job)) || decide (s.f ≠ mkFunc h 0) || e.any (fun i => chEpBad d i h s)
          || j.p 4 % 4096 != 0 || decide (j.p 5 < 3) || decide (16 < j.p 5) || v.any (fun i => decide ((host d h).pfVec ≤ i)), 2)]
      (fun d =>
        let x : DmaCh := { f := mkFunc h 0, slotA := j.p 2, slotB := b, ring := j.p 4, n := j.p 5, ep := e, ord := j.p 7, tc := j.p 8
                           prio := j.p 9, vector := v, half := j.p 11 == 1, full := j.p 12 == 1, err := j.p 13 == 1 }
        success { d with dma := { d.dma with chs := mset d.dma.chs (j.p 0) x } }) d

def dmaChCreateCmd : AdmCmd := { op := 0x0C01, port := fun ps _ => some (ps.getD 1 0), objs := chObj, run := dmaChCreateDo }

/-- DMA_CH_TARGET_SET (R408, R418): DA, endpoint and RKEY none clear the target (DESIGN CHOICE, log 74). -/
def dmaChTargetSetDo (j : AdminJob) (d : Dev) : Ans × Dev :=
  onCh j (fun c x d =>
    let clear := j.p 2 == 2 ^ 32 - 1 && j.p 3 == 2 ^ 32 - 1 && j.p 4 == 2 ^ 32 - 1
    checked [(decide (15 < j.p 1) || (!clear && (decide (2 ^ 17 ≤ j.p 2) || decide (2 ^ 20 ≤ j.p 3))), 2), (x.state != 0, 5)]
      (fun d => success (updCh c (fun x =>
        { x with targets := if clear then mdel x.targets (j.p 1) else mset x.targets (j.p 1) (j.p 2, j.p 3, j.p 4) }) d)) d) d

def dmaChTargetSetCmd : AdmCmd := { op := 0x0C02, port := chPort, objs := chObj, run := dmaChTargetSetDo }

/-- DMA_CH_START (R405). -/
def dmaChStartDo (j : AdminJob) (d : Dev) : Ans × Dev :=
  onCh j (fun c x d => checked [(x.state != 0, 5)] (fun d => success (updCh c (fun x => { x with state := 1, tail := x.head }) d)) d) d

def dmaChStartCmd : AdmCmd := { op := 0x0C03, port := chPort, objs := chObj, run := dmaChStartDo }

/-- DMA_CH_STOP (R405): it replies once every accepted descriptor is written back. -/
def dmaChStopDo (j : AdminJob) (d : Dev) : Ans × Dev :=
  onCh j (fun c x d => if x.state ≠ 1 then refusal 5 d else (.later, dmaStopped c (updCh c (fun x => { x with stop := some j.ctx }) d))) d

def dmaChStopCmd : AdmCmd := { op := 0x0C04, port := chPort, objs := chObj, run := dmaChStopDo }

/-- DMA_CH_RESET (R405) (DESIGN CHOICE, log 74). -/
def dmaChResetDo (j : AdminJob) (d : Dev) : Ans × Dev :=
  onCh j (fun c x d =>
    checked [(x.state == 1, 5)]
      (fun d => success (updCh c (fun x => { x with state := 0, cause := 0, head := 0, tail := 0, jobs := [], scan := none, again := false }) d)) d) d

def dmaChResetCmd : AdmCmd := { op := 0x0C05, port := chPort, objs := chObj, run := dmaChResetDo }

/-- DMA_CH_DESTROY (R405) (DESIGN CHOICE, log 74). -/
def dmaChDestroyDo (j : AdminJob) (d : Dev) : Ans × Dev :=
  onCh j (fun c x d => checked [(x.state == 1, 5)] (fun d => success { d with dma := { d.dma with chs := mdel d.dma.chs c } }) d) d

def dmaChDestroyCmd : AdmCmd := { op := 0x0C06, port := chPort, objs := chObj, run := dmaChDestroyDo }

/-- DMA_CH_QUERY (R418): DMA.CH_STATE, host port, slots A and B, ring and n, endpoint, ORD, TC, vector and enables,
then the sixteen targets; none where there is none. -/
def dmaChQueryDo (j : AdminJob) (d : Dev) : Ans × Dev :=
  onCh j (fun c x d =>
    let none4 : Nat := 2 ^ 32 - 1
    let one (i : Nat) : List (Nat × Nat) :=
      match mget x.targets i with
      | none => [(4, none4), (4, none4), (4, none4)]
      | some (da, e, k) => [(4, da), (4, e), (4, k)]
    result (packVals ([(4, chState d c), (1, x.f.hp.val), (2, x.slotA), (2, x.slotB.getD 0xFFFF), (8, x.ring), (1, x.n), (4, x.ep.getD none4),
      (1, x.ord), (1, x.tc), (2, x.vector.getD 0xFFFF), (1, b2n x.half), (1, b2n x.full), (1, b2n x.err)] ++ (List.range 16).flatMap one)) d) d

def dmaChQueryCmd : AdmCmd := { op := 0x0C07, recLen := 232, port := chPort, objs := chObj, run := dmaChQueryDo }

/-- DMA_CH_PRIO_SET (R416). -/
def dmaChPrioSetDo (j : AdminJob) (d : Dev) : Ans × Dev :=
  onCh j (fun c _ d => checked [(decide (3 < j.p 1), 2)] (fun d => success (updCh c (fun x => { x with prio := j.p 1 }) d)) d) d

def dmaChPrioSetCmd : AdmCmd := { op := 0x0C08, port := chPort, objs := chObj, run := dmaChPrioSetDo }

/-- The commands of R418. -/
def dmaCmds : List AdmCmd :=
  [ dmaChCreateCmd, dmaChTargetSetCmd, dmaChStartCmd, dmaChStopCmd, dmaChResetCmd, dmaChDestroyCmd, dmaChQueryCmd, dmaChPrioSetCmd ]

end Sys2Proof.Machine
end

