-- ==== Sys2Proof/Machine/View.lean ====
section
/-! DEFINITION. What each register shows: those of the plain store as they stand, those that show structured state
computed from it (R538 and the layouts of the subject chapters). -/

namespace Sys2Proof.Machine

/-- Numbers at bit positions added up. -/
def fields (l : List (Nat × Nat)) : Nat := sumOf (l.map (fun p => p.2 * 2 ^ p.1))

/-! ### Ember (R448, R459) -/

/-- The duty of a logical cluster (R448). -/
def dutyOf (l : Nat) : Nat := if l < 16 then l / 4 else 4

/-- The physical cluster that a version of the stop-mapping table names for a logical one. -/
def mapOf (m : List (Nat × Nat)) (l : Nat) : Nat := (mget m l).getD l

/-- The version named by INJ. -/
def mapNow (d : Dev) : List (Nat × Nat) := if d.ember.inj then d.ember.mapB else d.ember.mapA

/-- The physical cluster that serves a logical one. -/
def physOf (d : Dev) (l : Nat) : Nat := mapOf (mapNow d) l

/-- The logical clusters that a physical one serves, in ascending order. -/
def servedBy (d : Dev) (p : Nat) : List Nat := (List.range 64).filter (fun l => decide (physOf d l = p))

/-- Is a physical cluster FENCED. -/
def isFenced (d : Dev) (p : Nat) : Bool := mhas d.ember.fenced p

/-- Is a physical cluster in ACTIVE: it serves a logical cluster and is not FENCED. -/
def isActive (d : Dev) (p : Nat) : Bool := !isFenced d p && servedBy d p != []

/-- Is a physical cluster in SPARE. -/
def isSpare (d : Dev) (p : Nat) : Bool := !isFenced d p && servedBy d p == []

/-- The clusters in SPARE, in ascending order. -/
def spares (d : Dev) : List Nat := (List.range 72).filter (isSpare d)

/-- EMBER.LCL (R459). -/
def lclReg (d : Dev) (l : Nat) : Nat :=
  fields [(0, physOf d l), (8, dutyOf l), (11, b2n (decide (1 < (servedBy d (physOf d l)).length)))]

/-- EMBER.PCL (R459). -/
def pclReg (d : Dev) (p : Nat) : Nat :=
  let f := isFenced d p
  let s := servedBy d p
  fields [(0, if f then 2 else if s = [] then 1 else 0), (8, (mget d.ember.fenced p).getD 0), (16, if f then 0 else s.headD 0),
    (24, (mget d.ember.engines p).getD 0xFF)]

/-! ### Port pages -/

/-- LANE.STATE (R349). -/
def laneStateReg (d : Dev) (n : Nat) : Nat :=
  let l := (port d n).lane
  fields [(0, l.phase), (3, l.lanes), (5, b2n l.half), (6, b2n l.warm), (7, rxPrecode l), (9, b2n l.clkOk), (10, b2n l.svcSync),
    (11, b2n (decide (d.time.parent = some n)))]

/-- LANE.TEST. -/
def laneTestReg (l : Lane) : Nat :=
  fields [(0, l.loopback), (2, b2n l.remoteAllow), (3, b2n l.remoteLooped), (4, l.gen), (8, l.chk),
    (12, b2n (lget l.ends 0 {}).chkLock), (13, b2n (lget l.ends 1 {}).chkLock), (14, b2n l.svcChk)]

/-- LANE.CAGE. -/
def laneCageReg (l : Lane) : Nat :=
  fields [(0, b2n l.present), (1, b2n l.fault), (2, b2n l.button), (3, b2n l.pwrEn), (4, l.indA), (6, l.indB), (8, b2n l.auto),
    (9, b2n l.autoPwr), (10, b2n l.isbOk)]

/-- LANE.TXEQ. -/
def laneTxeqReg (e : LaneEnd) : Nat :=
  fields (((List.range 6).map (fun i => (8 * i, ofSigned 8 (e.taps.getD i 0)))) ++ [(48, b2n e.pre)])

/-- The registers of a LANE page that show structured state. -/
def laneReg (d : Dev) (n off : Nat) : Option Nat :=
  let l := (port d n).lane
  match off with
  | 0x030 => some (laneStateReg d n)
  | 0x034 => some (fields [(0, (signedLe 2 (l.fclk.getD 0)).2), (16, b2n l.fclk.isSome)])
  | 0x038 => some (laneTestReg l)
  | 0x03C => some (laneCageReg l)
  | 0x040 => some (laneTxeqReg (lget l.ends 0 {}))
  | 0x048 => some (laneTxeqReg (lget l.ends 1 {}))
  | 0x180 => some (lget l.ends 0 {}).errors
  | 0x188 => some (lget l.ends 1 {}).errors
  | 0x190 => some l.svcErrors
  | _ => none

/-- The registers of a LINK page that show structured state (R316). -/
def linkReg (d : Dev) (n off : Nat) : Option Nat :=
  let l := (port d n).link
  match off with
  | 0x028 => some l.nextLsn
  | 0x02C => some l.una
  | 0x030 => some (fields [(0, l.expect), (20, b2n l.discard)])
  | 0x034 => some (fields [(0, heldBeads l), (16, l.streak)])
  | 0x038 => some (fields [(0, l.rtt), (16, replayPeriod d n / 10)])
  | 0x03C => some (fields [(0, b2n l.narrowed), (8, l.cause), (16, min 65535 l.rate)])
  | _ => none

/-- The registers of a RIN page (R298). -/
def rinReg (d : Dev) (n off : Nat) : Option Nat :=
  let p := port d n
  match off with
  | 0x020 => some (fields [(0, p.role), (2, p.roleNext), (4, p.state), (6, b2n p.dimmed),
      (8, if p.neighbour.isSome then trunkNo d n else n), (16, p.hintReq), (20, p.hintRsp)])
  | 0x024 => some (match p.neighbour with | none => 0 | some (a, q) => fields [(0, a), (17, q), (31, 1)])
  | _ => none

/-! ### Host pages -/

/-- The admin ring registers of a function (R435). -/
def ringReg (d : Dev) (f : Func) (off : Nat) : Option Nat :=
  let a := (fn d f).adm
  let busy := (d.adm.running.filter (fun j => decide (j.ctx.path = .ring f))).length
  let held := d.adm.fetched.any (fun x => decide (x.path = .ring f))
  match off with
  | 0x100 => some a.cmdBase
  | 0x108 => some a.rspBase
  | 0x110 => some a.cfg
  | 0x114 => some (b2n a.en)
  | 0x118 => some (fields [(0, b2n (a.en && !a.error || held || busy != 0)), (1, b2n a.error), (8, a.cause), (16, busy)])
  | 0x124 => some (fields [(0, a.fetched % 2 ^ 16), (16, a.replied % 2 ^ 16)])
  | _ => none

/-- The registers of a HOST page that show structured state, with the ring of a function (R402, R536). -/
def hostReg (d : Dev) (h v off : Nat) : Option Nat :=
  match off with
  | 0x020 => some (hostCfgReg d h)
  | 0x024 => some (hostVecReg d h)
  | 0x028 => some (hostLinkReg d h)
  | 0x02C => some (hostFuncReg d h)
  | 0x030 => some (hostSlotReg d h)
  | _ => ringReg d (mkFunc h v) off

/-! ### Central and core pages -/

/-- The registers of TIME that show structured state (R372). -/
def timeReg (d : Dev) (off : Nat) : Option Nat :=
  let t := d.time
  match off with
  | 0x030 => some (fields [(0, t.state.code), (2, b2n t.isGm), (3, b2n t.parent.isSome), (4, t.parent.getD 0), (11, t.steps), (15, t.gmDa)])
  | 0x040 => some t.ns
  | 0x048 => some (fields [(0, t.frac), (16, timeQ d)])
  | 0x04C => some (thetaShown t.theta).2
  | _ => none

/-- The registers of FLT that show structured state (R533). -/
def fltReg (d : Dev) (page off : Nat) : Option Nat :=
  match page with
  | 0 =>
    if off = 0x024 then
      some (fields [(0, d.flt.sticky.length), (16, (d.flt.sticky.map (sevOf d)).foldl max 0)])
    else if 0x100 ≤ off ∧ off < 0x180 then
      some (fields ((List.range 32).map (fun i => (i, b2n (stickyOf d (8 * (off - 0x100) + i))))))
    else none
  | 1 => if 0x100 ≤ off ∧ off < 0x300 then some (fields ((List.range 8).map (fun j => (4 * j, sevOf d (2 * (off - 0x100) + j))))) else none
  | 2 => if 0x100 ≤ off ∧ off < 0x1A0 then some (fields ((List.range 4).map (fun j => (8 * j, routeOf d (off - 0x100 + j))))) else none
  | _ => if off = 0x020 then some (d.nv.logSeq % 2 ^ 32) else if off = 0x024 then some (min (2 ^ 32 - 1) d.flt.dropped) else none

/-- Is a port gated (R497). -/
def gated (d : Dev) (n : Nat) : Bool := (port d n).role == 2

/-- The levels of the PREWARN outputs: the COLL schedule and what is forced (R500). -/
def prewarnLevel (d : Dev) : Nat := d.coll.prewarn ||| d.pwr.forced

/-- The hottest sensor: its reading and its number, the lowest of several. -/
def hottest (d : Dev) : Int × Nat :=
  (d.pwr.temps.zipIdx.drop 1).foldl (fun b p => if b.1 < p.1 then p else b) (d.pwr.temps.headD 0, 0)

/-- The registers of PWR that show structured state (R508). -/
def pwrReg (d : Dev) (off : Nat) : Option Nat :=
  let st := fld d (PWR + 0x030)
  match off with
  | 0x030 => some (fields [(0, st 0 2), (8, ofSigned 8 (hottest d).1), (16, (hottest d).2), (24, b2n (d.pwr.held != [])),
      (25, b2n d.pwr.droopSince.isSome), (26, st 26 1)])
  | 0x038 => some (fields [(0, prewarnLevel d), (4, d.pwr.forced)])
  | _ => if 0x040 ≤ off ∧ off < 0x050 then some (fields ((List.range 32).map (fun i => (i, b2n (gated d (8 * (off - 0x040) + i)))))) else none

/-- The registers of EMBER that show structured state (R460). -/
def emberReg (d : Dev) (off : Nat) : Option Nat :=
  if off = 0x024 then some (fields [(0, b2n d.ember.inj), (1, b2n d.ember.switching), (8, (spares d).length)])
  else if 0x100 ≤ off ∧ off < 0x200 then some (lclReg d ((off - 0x100) / 4))
  else if 0x200 ≤ off ∧ off < 0x320 then some (pclReg d ((off - 0x200) / 4))
  else none

/-- The registers of EPT, MATCH and COLL that show structured state. -/
def eptReg (d : Dev) (off : Nat) : Option Nat :=
  match off with
  | 0x030 => some (residentCount d)
  | 0x034 => some (pinnedCount d)
  | 0x038 => some (fields [(0, d.ept.parked.length), (16, sumOf (d.ept.parked.map (fun p => cellsOf p.rx.st.hdr)))])
  | _ => none

def matchReg (d : Dev) (off : Nat) : Option Nat :=
  match off with
  | 0x030 => some (storeUsed d)
  | 0x034 => some (d.mt.ctxs.filter (fun p => p.2.spilled)).length
  | 0x038 => some (rndvOut d (fun _ => true))
  | _ => none

def collReg (d : Dev) (off : Nat) : Option Nat :=
  match off with
  | 0x030 => some d.coll.groups.length
  | 0x034 => some d.coll.ricks.length
  | 0x038 => some (d.coll.insts.filter (fun p => p.2.state != .waiting)).length
  | 0x03C => some (sumOf (d.coll.ranges.map (fun p => p.2.count)))
  | 0x040 => some d.coll.armed.length
  | _ => none

/-- The registers of CLASP, XPORT, CONG and RTR that show structured state. -/
def claspReg (d : Dev) (off : Nat) : Option Nat :=
  match off with
  | 0x028 => some (fields ((List.range 8).map (fun h => (h, b2n (!absentPort d h && aopPath d h)))))
  | 0x030 => some d.clasp.recs.length
  | 0x034 => some (waitersUsed d)
  | _ => none

def xportReg (d : Dev) (off : Nat) : Option Nat :=
  match off with
  | 0x030 => some (windowsUsed d)
  | 0x034 => some (streamsUsed d)
  | 0x038 => some (d.xp.incarnation % 256)
  | _ => none

/-- Braids with a strand queued or unacknowledged. -/
def braidsActive (d : Dev) : Nat :=
  let act (s : SendHalf) : Nat := b2n (s.queue != [] || s.unacked != [])
  sumOf (d.xp.peers.map (fun p => act p.2.req + act p.2.rsp))

def rtrReg (d : Dev) (off : Nat) : Option Nat :=
  match off with
  | 0x020 => some (fields [(0, d.rtr.da), (31, b2n d.rtr.daValid)])
  | 0x024 => some (fields [(0, b2n d.rtr.inj), (1, b2n d.rtr.loadedA), (2, b2n d.rtr.loadedB)])
  | 0x060 => some (freeCells d)
  | 0x064 => some d.rtr.reserveUsed
  | 0x068 => some d.rtr.peak
  | _ => none

/-- Words of whole packets and packets among words with END marks. -/
def mgfCount (ws : List (BitVec 64 × Bool)) : Nat := fields [(0, ws.length), (16, (ws.filter (·.2)).length)]

/-! ### Every register -/

/-- The value of a register that shows structured state, by its page and offset. -/
def structured (d : Dev) (v : Nat) (pl : Place) (off : Nat) : Option Nat :=
  match pl.block.id with
  | 0x03 => pwrReg d off
  | 0x04 => timeReg d off
  | 0x05 => fltReg d pl.page off
  | 0x08 => hostReg d pl.inst v off
  | 0x10 => if off = 0x030 then some (xinst d pl.inst).atc.length else none
  | 0x11 => eptReg d off
  | 0x12 => matchReg d off
  | 0x13 => collReg d off
  | 0x14 => claspReg d off
  | 0x15 => xportReg d off
  | 0x16 => if off = 0x030 then some (braidsActive d) else none
  | 0x17 => if 0x100 ≤ off ∧ off < 0x200 then some (chState d ((off - 0x100) / 4)) else none
  | 0x18 => rtrReg d off
  | 0x19 => emberReg d off
  | 0x1A => if off = 0x030 then some (mgfCount d.mgf.rx) else if off = 0x034 then some d.mgf.tx.length else none
  | 0x20 => laneReg d pl.inst off
  | 0x21 => linkReg d pl.inst off
  | 0x22 => rinReg d pl.inst off
  | _ => none

/-- Does a page read as reset until STAGE READY (R467) (DEDUCED, log 24). -/
def bootHides (d : Dev) (pl : Place) : Bool :=
  decide (fld d (GLB + 0x028) 0 3 < 6) && !(pl.block.id == 0x01 || pl.block.id == 0x02 || pl.block.id == 0x08 || decide (0xF0 ≤ pl.block.id))

/-- The registers of FLT that CTRL and STATUS of its pages 1 to 3 show again (R533). -/
def pageAlias (a : Nat) : Nat :=
  if a = FLT + 0x1000 ∨ a = FLT + 0x2000 ∨ a = FLT + 0x3000 then FLT
  else if a = FLT + 0x1004 ∨ a = FLT + 0x2004 ∨ a = FLT + 0x3004 then FLT + 4
  else a

/-- The value that a register at a BAR0 offset shows now, the ring registers of a HOST page being those of function
`v` (R536). Registers that are written only read as zero (R8) (DEDUCED, log 24). -/
def regValue (v : Nat) (d : Dev) (a : Nat) : Nat :=
  match place a with
  | none => 0
  | some pl =>
    if pl.block.id = 0x08 ∧ absentPort d pl.inst = true then 0
    else (structured d v pl (pl.off)).getD (reg d (pageAlias a)).toNat

/-- What a read shows where R467 hides a page until STAGE READY: its reset value. -/
def shownValue (v : Nat) (d : Dev) (a : Nat) : Nat :=
  match place a with
  | none => 0
  | some pl => if bootHides d pl then regValue v Dev.reset a else regValue v d a

/-- The counters of the engines' own activity, which no rule counts (R459): work items ended, flits injected and
deflected. -/
def openCounters : List Nat := [EMBER + 0x340, EMBER + 0x358, EMBER + 0x360, EMBER + 0x368]

/-- Such a counter has grown by a number left open while the engines run. -/
def countOpen (a : Nat) (d : Dev) : Dev :=
  if openCounters.contains a && enabled d EMBER then
    let (n, d) := fresh d
    countBy a (n % 2 ^ 32) d
  else d

/-- The name of a block's first register page for a source's log record (R521): the page of the block, or of the
instance that the source names. -/
def sourceBase (s : Nat) : Nat :=
  match (s - 640) / 16 with
  | 0 => GLB
  | 1 => KILN
  | 2 => PWR
  | 3 => TIME
  | 4 => FLT
  | 5 => TALLY
  | 6 => XLAT (((s - 640) % 16 - 2) / 2)
  | 7 => EPT
  | 8 => MATCH
  | 9 => COLL
  | 10 => CLASP
  | 11 => XPORT
  | 12 => CONG
  | 13 => DMA
  | 14 => RTR
  | 15 => EMBER
  | 16 => MGF
  | _ => GLB

/-- A 32-bit word of the window as a record captures it: zero where no register is implemented; the half of a 64-bit
register. -/
def wordValue (d : Dev) (a : Nat) : Nat :=
  match place a with
  | none => 0
  | some pl =>
    match findReg pl pl.off with
    | none => 0
    | some r => if pl.pageBase + pl.off = r.base then regValue 0 d r.base % 2 ^ 32 else regValue 0 d r.base / 2 ^ 32

end Sys2Proof.Machine
end

