-- ==== Sys2Proof/Machine/Ember.lean ====
section
/-! DEFINITION. The Ember clusters: fences, takeovers and the boot mapping (R448 to R460). -/

namespace Sys2Proof.Machine

/-- Changes the clusters' state. -/
def updEmber (g : Ember → Ember) (d : Dev) : Dev := { d with ember := g d.ember }

/-- The cluster that takes over from a fenced one (R455, R456): the lowest SPARE, else the lowest that serves another
logical cluster of the same duty; the flag says that it serves one already. -/
def replacement (d : Dev) (p : Nat) : Option (Nat × Bool) :=
  match (spares d).head? with
  | some s => some (s, false)
  | none =>
    let duties := (servedBy d p).map dutyOf
    ((List.range 72).find? (fun q => isActive d q && (servedBy d q).any (fun l => duties.contains (dutyOf l)))).map (fun q => (q, true))

/-- Inserts a number into an ascending list. -/
def insertNum (n : Nat) : List Nat → List Nat
  | [] => [n]
  | m :: rest => if n < m then n :: m :: rest else if n = m then m :: rest else m :: insertNum n rest

/-- A cluster enters FENCED (R453, R454); its takeover waits its turn, unless it was the last of its duty (R456) (DEDUCED, log 66). -/
def clusterFence (p cause : Nat) (d : Dev) : Dev :=
  if isFenced d p then d
  else
    let served := servedBy d p
    let d := updEmber (fun e => { e with fenced := mset e.fenced p cause }) d
    let d := raise (srcWin 15 6) (count (EMBER + 0x350) (if cause = 1 then count (EMBER + 0x348) d else d))
    if served = [] then d
    else if (replacement d p).isNone then raise (srcWin 15 8) d
    else updEmber (fun e => { e with queue := insertNum p e.queue }) d

/-- Maps logical clusters to a physical one. -/
def mapTo (ls : List Nat) (q : Nat) (m : List (Nat × Nat)) : List (Nat × Nat) :=
  ls.foldl (fun m l => if l = q then mdel m l else mset m l q) m

/-- TAKEOVER (R455, steps 1 to 4): the lowest fenced cluster that waits is replaced, unless a takeover is under way (DEDUCED, log 66). -/
def takeover (d : Dev) : Dev :=
  match d.ember.queue with
  | [] => d
  | p :: rest =>
    if d.ember.switching then d
    else
      match replacement d p with
      | none => raise (srcWin 15 8) (updEmber (fun e => { e with queue := rest }) d)
      | some (q, shared) =>
        let m := mapTo (servedBy d p) q (mapNow d)
        let d := updEmber (fun e =>
          { e with queue := rest, switching := true, inj := !e.inj
                   mapA := if e.inj then m else e.mapA, mapB := if e.inj then e.mapB else m }) d
        if shared then raise (srcWin 15 7) d else d

/-- TAKEOVER_DRAINED (R455, step 5): the old version is made equal to the new one. -/
def takeoverDrained (d : Dev) : Dev :=
  if d.ember.switching then
    let m := mapNow d
    updEmber (fun e => { e with mapA := m, mapB := m, switching := false }) d
  else d

/-- An object meets the condition of a source: the source occurs, and at severity Contain the object is one that its
action concerns (R453, R519). -/
def meets (s obj : Nat) (d : Dev) : Dev :=
  let d := if sevApplied d s false = 3 then { d with flt := { d.flt with met := d.flt.met ++ [(s, obj)] } } else d
  raise s d

/-- The objects that a due action concerns, which it takes over (DEDUCED, log 67). -/
def takeMet (s : Nat) (d : Dev) : List Nat × Dev :=
  ((d.flt.met.filter (fun x => decide (x.1 = s))).map (·.2),
   { d with flt := { d.flt with met := d.flt.met.filter (fun x => decide (x.1 ≠ s)) } })

/-- A cluster meets the condition of source `i` of the window (R453) (DEDUCED, log 67). -/
def clusterMeets (i p : Nat) (d : Dev) : Dev := meets (srcWin 15 i) p d

/-- WATCHDOG (R452): only a cluster in ACTIVE holds work items (DEDUCED, log 66). -/
def watchdog (p : Nat) (d : Dev) : Dev := if enabled d EMBER && isActive d p then clusterMeets 2 p d else d

/-- FIRMWARE_TRAP (R453): only the engines of a cluster in ACTIVE run (DESIGN CHOICE, log 33). -/
def firmwareTrap (p : Nat) (d : Dev) : Dev := if enabled d EMBER && isActive d p then clusterMeets 3 p d else d

/-- FILIGREE_STOP (R453): a fenced cluster's stop stays in the mesh only to pass flits on (R454) (DEDUCED, log 66). -/
def filigreeStop (p : Nat) (d : Dev) : Dev := if isFenced d p then d else clusterMeets 4 p d

/-- The fence cause of a source (R453). -/
def fenceCause (s : Nat) : Nat :=
  if s = srcWin 15 1 then 2 else if s = srcWin 15 2 then 1 else if s = srcWin 15 3 then 3 else 6

/-- The containment action of an Ember source (R453): every cluster that met its condition is fenced (DEDUCED, log 66). -/
def emberContain (s : Nat) (ps : List Nat) (d : Dev) : Dev := ps.foldl (fun d p => clusterFence p (fenceCause s) d) d

/-- A write of EMBER.FENCE_REQ (R460). -/
def fenceRequest (l : Nat) (d : Dev) : Dev :=
  let p := physOf d l
  let lost := (replacement (updEmber (fun e => { e with fenced := mset e.fenced p 4 }) d) p).isNone
  if curMode d = 0 || (!isFenced d p && lost) then raise (srcWin 15 0) d else clusterFence p 4 d

/-- The consistency check of EMBER (R459). -/
def checkEmber (d : Dev) : Option Nat :=
  firstReason [(!d.ember.loaded, 0x1901), ((List.range 64).any (fun l => isFenced d (physOf d l)), 0x1902)]

/-- The boot mapping of one logical cluster (R451). -/
def bootMap (l : Nat) (d : Dev) : Dev :=
  if !isFenced d l then d
  else
    match replacement d l with
    | none => raise (srcWin 15 8) d
    | some (q, shared) =>
      let d := updEmber (fun e => { e with mapA := mapTo [l] q e.mapA, mapB := mapTo [l] q e.mapB }) d
      if shared then raise (srcWin 15 7) d else d

/-- The self test of R451: clusters with the masks of the engines that failed, then EN = 1. -/
def emberBoot (failed : List (Nat × Nat)) (d : Dev) : Dev :=
  let bad := failed.filter (fun p => decide (p.1 < 72) && p.2 % 256 != 0)
  let d := bad.foldl (fun d p =>
    let m := 0xFF - ((0xFF - (mget d.ember.engines p.1).getD 0xFF) ||| p.2 % 256)
    updEmber (fun e => { e with engines := mset e.engines p.1 m }) d) d
  let d := bad.foldl (fun d p =>
    if isFenced d p.1 then d
    else raise (srcWin 15 6) (count (EMBER + 0x350) (updEmber (fun e => { e with fenced := mset e.fenced p.1 5 }) d))) d
  let d := (List.range 64).foldl (fun d l => bootMap l d) d
  enableWith EMBER (checkEmber d) d

end Sys2Proof.Machine
end

