-- ==== Sys2Proof/Machine/Faults.lean ====
section
/-! DEFINITION. What follows an event source: containment actions, the Kiln fault log, the journal, the fatal path;
SRAM and die-link errors (R11, R13, R485 to R488, R519 to R522). -/

namespace Sys2Proof.Machine

/-! ### Containment (R519) -/

/-- The holder of a lock record is lost and its waiters are removed (R141, R143). -/
def lockContain (i : Nat) (d : Dev) : Dev :=
  match lock? d i with
  | none => d
  | some r =>
    let d := updLock i (fun r => { r with
      queue := [], state := if r.state = .held then .abandoned else r.state
      holder := if r.state = .held then none else r.holder }) d
    let d := if r.queue = [] ∧ r.state ≠ .held then d else lockRewrite i d
    r.queue.foldl (fun d c => lockRemoved i 0x26 c d) d

/-- The descriptor in progress of a channel ends with LOCAL_BUS_ERROR (R413, R519). -/
def dmaContain (c : Nat) (d : Dev) : Dev :=
  match (dmaCh? d c).bind (fun x => x.jobs.find? (fun j => j.begun && !j.ended)) with
  | none => d
  | some j =>
    match j.op with
    | some i => opEnd i 0x14 d
    | none => dmaCheck c j.id (dmaFail c j.id 0x14 d)

/-- The ports of a port die are taken out of service until a device reset (R11). -/
def dieContain (die : Nat) (d : Dev) : Dev :=
  (List.range 16).foldl (fun d i =>
    let n := portNo (16 * die + i)
    updLane n (fun l => { l with hold := .dieLink }) (portDown n 5 d)) d

/-- Host-loss processing of the two host ports of an XLAT instance (R519). -/
def xlatContain (k : Nat) (d : Dev) : Dev :=
  lossStart (hostNo (2 * k + 1)) .port .contained (lossStart (hostNo (2 * k)) .port .contained d)

/-- The containment action of a host port's source (R401) (DEDUCED, log 75). -/
def hostContain (h : HostNo) (d : Dev) : Dev :=
  if absentPort d h then d else updHost h (fun x => { x with contained := true }) (lossStart h .port .contained d)

/-- The containment action of a source with the objects that met its condition (R519) (DEDUCED, log 21). -/
def contain (s : Nat) (d : Dev) : Dev :=
  let (objs, d) := takeMet s d
  let each (g : Nat → Dev → Dev) : Dev := objs.foldl (fun d o => g o d) d
  if s < 512 then
    let n := portNo (s / 4)
    portDown n 6 (setEn (LINK n) false d)
  else if s < 640 then hostContain (hostNo ((s - 512) / 16)) d
  else
    let w := (s - 640) / 16
    let i := (s - 640) % 16
    if w = 6 then if i = 1 then each xlatContain else if 2 ≤ i ∧ i < 10 then xlatContain ((i - 2) / 2) d else d
    else if (w = 7 ∨ w = 8) ∧ i = 1 then each (fun e d => enterError e 4 d)
    else if w = 9 ∧ i = 1 then each (fun x d => collAbort x 9 (((inst? d x).map (·.pc)).getD 0) (((inst? d x).map (·.rank)).getD 0) d)
    else if w = 10 ∧ i = 1 then each lockContain
    else if (w = 11 ∨ w = 12) ∧ i = 1 then each (fun da d => restartPair da false false d)
    else if w = 13 ∧ i = 1 then each dmaContain
    else if w = 15 then emberContain s objs d
    else if w = 17 ∧ i < 8 then dieContain i d
    else d

/-- CONTAINMENT_ACTION (R519): Kiln starts the action that is due for an occurrence of a source (DEDUCED, log 21). -/
def containmentAction (s : Nat) (d : Dev) : Dev :=
  if d.flt.contain.contains s then contain s { d with flt := { d.flt with contain := d.flt.contain.erase s } } else d

/-! ### Errors of memories and die links (R11, R13, R43) -/

/-- DIE_LINK_FAIL (R10, R11): a transfer has failed 16 retries in a row, which the link's counter holds (DEDUCED, log 67). -/
def dieLinkFail (die : Nat) (d : Dev) : Dev := raise (srcWin 17 die) (countBy (GLB + 0x108 + 16 * die) 16 d)

/-- A strand that waits in a queue, wherever it is, is dropped with its cells (R43). -/
def dropStrand (id : Nat) (d : Dev) : Dev :=
  dropWaiting id
    (let m (l : List QEnt) : List QEnt := l.map (fun e => if e.id = id then { e with whole := false } else e)
     let s (x : Sched) : Sched := { x with qs := x.qs.map m }
     { d with
       ports := mmap d.ports (fun _ p => { p with out := s p.out, txNext := p.txNext.map (fun e => if e.id = id then { e with whole := false } else e) })
       hosts := mmap d.hosts (fun _ h => { h with land := s h.land })
       rtr := { d.rtr with core := d.rtr.core.map m } })

/-- Marks one payload bead of a strand POISON, its T.CRC unchanged (R13, R43) (DEDUCED, log 53). -/
def poisonBead (k : Nat) (e : QEnt) : QEnt :=
  let b (p : Bead × Nat) : Bead := if p.2 = k then { p.1 with trailer := p.1.trailer ||| 4#16 } else p.1
  { e with st := { e.st with beads := e.st.beads.zipIdx.map b } }

/-- Marks a payload bead of a strand in the Hearth. -/
def poisonWaiting (id k : Nat) (d : Dev) : Dev :=
  let m (l : List QEnt) : List QEnt := l.map (fun e => if e.id = id then poisonBead k e else e)
  let s (x : Sched) : Sched := { x with qs := x.qs.map m }
  { d with
    ports := mmap d.ports (fun _ p => { p with out := s p.out, txNext := p.txNext.map (fun e => if e.id = id then poisonBead k e else e) })
    hosts := mmap d.hosts (fun _ h => { h with land := s h.land })
    rtr := { d.rtr with core := d.rtr.core.map m } }

/-- Marks a payload bead of a strand in a replay buffer. -/
def poisonReplay (n lsn k : Nat) (d : Dev) : Dev :=
  updLink n (fun l => { l with rep := l.rep.map (fun e => if e.lsn = lsn then { e with ent := poisonBead k e.ent } else e) }) d

/-- The window of the block that owns a memory (DEDUCED, log 67). -/
def sramWindow : SramBlock → Nat
  | .kiln => 1
  | .pwr => 2
  | .time => 3
  | .flt => 4
  | .tally => 5
  | .xlat _ => 6
  | .ept => 7
  | .matching => 8
  | .coll => 9
  | .clasp => 10
  | .xport => 11
  | .cong => 12
  | .dma => 13
  | .rtr => 14
  | .mgf => 16
  | _ => 0

/-- SRAM_ECC_ERROR (R13). A single-bit error is corrected; no register holds its count. An uncorrectable one in a
cell of strand data marks the bead (`obj` is 64 × the strand's number, or its LSN in a replay buffer, + the payload
bead), one in a header discards the strand, any other raises the owner's source for the object that it names (DEDUCED, log 53). -/
def sramEcc (b : SramBlock) (hard : Bool) (obj : Option Nat) (d : Dev) : Dev :=
  if !hard then d
  else
    match b with
    | .hearthHeader => raise (srcWin 14 1) (match obj with | some id => dropStrand id d | none => d)
    | .hearthPayload => match obj with | some o => poisonWaiting (o / 64) (o % 64) d | none => d
    | .replay n => raise (srcPort n 3) (match obj with | some o => poisonReplay n (o / 64) (o % 64) d | none => d)
    | .portTable n => raise (srcPort n 3) d
    | .ember c => if isFenced d c then d else clusterMeets 1 c d
    | .xlat k => meets (srcWin 6 1) k d
    | _ =>
      let s := srcWin (sramWindow b) 1
      match obj with
      | some o => meets s o d
      | none => raise s d

/-! ### The Kiln fault log (R482, R521, R522) -/

/-- The places of the regions of the Peat store that Kiln writes (R480). -/
def peatWear : Nat := 0x020000
def peatLog : Nat := 0x100000
def peatJournal : Nat := 0x200000

/-- DETAIL of a log record (R521) (DESIGN CHOICE, log 68). -/
def logDetail (d : Dev) (s : Nat) : List Nat :=
  if s < 512 then
    let n := s / 4
    [RIN n + 0x020, RIN n + 0x024, LINK n + 0x03C, LINK n + 0x030, LANE n + 0x030, LANE n + 0x03C, LANE n + 0x080, LANE n + 0x084].map (wordValue d)
  else if s < 640 then
    let b := HOSTB ((s - 512) / 16)
    [b + 0x030, b + 0x028, b + 0x02C, b + 0x040, b + 0x044, b + 0x118].map (wordValue d) ++ [0, 0]
  else
    let b := sourceBase s
    [b + 0x004, b + 0x020, b + 0x024, b + 0x028, b + 0x02C, b + 0x030, b + 0x034, b + 0x038].map (wordValue d)

/-- A log record (R521) (DESIGN CHOICE, log 68). -/
def logRecord (d : Dev) (m : FltLog) (seq : Nat) : Bytes :=
  toLe 8 d.time.ns ++ toLe 2 d.time.frac
    ++ toLe 1 (timeQ d + 4 * b2n m.edge + 8 * b2n m.forced + 16 * m.sev) ++ [0] ++ toLe 2 m.source ++ toLe 2 (min 65535 d.flt.dropPend)
    ++ toLe 4 seq ++ zeros 4 ++ (logDetail d m.source).flatMap (toLe 4)

/-- A record does not fit the rate of R482: it is dropped, and LOG_DROPPED occurs without being logged itself. -/
def logDrop (d : Dev) : Dev :=
  let n := d.flt.marks.length
  let d := { d with flt := { d.flt with dropped := d.flt.dropped + 1, dropPend := d.flt.dropPend + 1 } }
  let d := raise (srcWin 1 4) d
  { d with flt := { d.flt with marks := d.flt.marks.take n } }

/-- KILN_LOG_WRITE (R522): the first change not yet logged is written to the LOG ring, or dropped. -/
def kilnLogWrite (d : Dev) : Dev :=
  match d.flt.marks with
  | [] => d
  | m :: rest =>
    let d := { d with flt := { d.flt with marks := rest } }
    let d := if d.clk < d.flt.logAt + 1000000000 then d else { d with flt := { d.flt with logAt := d.clk, logIn := 0 } }
    if 16384 ≤ d.flt.logIn then logDrop d
    else
      let seq := d.nv.logSeq + 1
      let r := logRecord d m seq
      let slot := r ++ toLe 4 (crc32 r).toNat ++ zeros 4
      let d := peatWrite (peatLog + 64 * ((seq - 1) % 16384)) slot d
      { d with
        nv := { d.nv with logSeq := seq, newest := mset d.nv.newest m.source seq }
        flt := { d.flt with dropPend := 0, logIn := d.flt.logIn + 1 } }

/-- A record of the LOG ring by its SEQ: none where it is no longer held. -/
def logAt? (d : Dev) (seq : Nat) : Option Bytes :=
  if seq = 0 ∨ d.nv.logSeq < seq ∨ seq + 16384 ≤ d.nv.logSeq then none
  else some (cellsRead d.nv.peat (peatLog + 64 * ((seq - 1) % 16384)) 56)

/-! ### Wear (R483) -/

/-- Kiln brings the counts of page writes up to date. -/
def wearUpdate (d : Dev) : Dev :=
  let pend := d.nv.wear
  let old (p : Nat) : Nat := leNat (cellsRead d.nv.peat (peatWear + 8 * p) 8)
  let hot := pend.any (fun p => decide (old p.1 < 800000000) && decide (800000000 ≤ old p.1 + p.2))
  let m := pend.foldl (fun m p => cellsWrite m (peatWear + 8 * p.1) (toLe 8 (old p.1 + p.2))) d.nv.peat
  let pages := (pend.map (fun p => (peatWear + 8 * p.1) / 4096)).eraseDups
  let d := { d with nv := { d.nv with peat := m, wear := pages.map (fun p => (p, 1)) } }
  if hot then raise (srcWin 0 3) d else d

/-! ### The journal (R485 to R487) -/

/-- The link error counters of a port as a journal holds them. -/
def journalPort (d : Dev) (n : Nat) : Bytes :=
  ((List.range 6).map (fun k => (reg d (LANE n + 0x080 + 4 * k)).toNat) ++ (List.range 5).map (fun k => (reg d (LINK n + 0x080 + 4 * k)).toNat)).flatMap (toLe 4)

/-- The payload of a page of an entry (DESIGN CHOICE, log 68). -/
def journalPayload (d : Dev) (cause src i : Nat) : Bytes :=
  match i with
  | 0 =>
    packVals [(4, cause), (8, d.time.ns), (2, d.time.frac), (1, timeQ d),
      (4, (reg d (GLB + 0x010)).toNat), (1, d.nv.incarnation % 256), (1, fld d (GLB + 0x020) 0 8), (1, d.nv.lc), (2, src)]
      ++ toLe 128 (fields (d.flt.sticky.map (fun s => (s, 1))))
  | 1 => ((List.range 64).filterMap (fun k => if k < d.nv.logSeq then logAt? d (d.nv.logSeq - k) else none)).flatten
  | 2 => (List.range 91).flatMap (journalPort d)
  | _ => (List.range 37).flatMap (fun n => journalPort d (91 + n))

/-- A page of an entry: the 64-byte header, whose CRC-32 is taken with its own field zero, and the payload (DESIGN CHOICE, log 68). -/
def journalPage (d : Dev) (cause src seq i : Nat) : Bytes :=
  let p := journalPayload d cause src i
  let page := padTo 4096 (toLe 4 0x4C4E524A ++ toLe 4 seq ++ toLe 4 i ++ toLe 4 p.length ++ zeros 48 ++ p)
  patch page 16 (toLe 4 (crc32 page).toNat)

/-- Writes a journal entry to the next pages of the ring: four, or page 0 alone before step 8 of boot (R485) (DEDUCED, log 22). -/
def journalWrite (cause src : Nat) (d : Dev) : Dev :=
  let n := if fld d (GLB + 0x028) 0 3 < 4 then 1 else 4
  let seq := d.nv.jSeq + 1
  let first := d.nv.jNext
  let pages := (List.range n).map (fun i => ((first + i) % 512, journalPage d cause src seq i))
  let d := pages.foldl (fun d p => peatWrite (peatJournal + 4096 * p.1) p.2 d) d
  let hit (e : Nat × Nat × Nat) : Bool := (List.range e.2.2).any (fun i => pages.any (fun p => decide (p.1 = (e.2.1 + i) % 512)))
  wearUpdate { d with nv := { d.nv with
    journal := (seq, first, n) :: d.nv.journal.filter (fun e => !hit e), jNext := (first + n) % 512, jSeq := seq, jLive := true } }

/-- PFAIL_TAKEN (R484, R485): what stops, stops as long as `frozen` holds (DEDUCED, log 22). -/
def pfailTaken (d : Dev) : Dev :=
  if d.boot.pfail || !d.boot.power then d
  else journalWrite 1 0 (prewarnPut 0 0 { d with boot := { d.boot with pfail := true } })

/-- The fatal path (R520): of several sources at once the journal names the lowest (DEDUCED, log 22). -/
def fatalPath (s : Nat) (d : Dev) : Dev :=
  if d.flt.fatal.isSome || d.boot.pfail || !d.boot.power then d
  else
    let s := (d.work.filterMap (fun w => match w with | .fatal t => some t | _ => none)).foldl min s
    journalWrite 2 s (emit (.pin "FATAL#" 0 0) { d with flt := { d.flt with fatal := some s } })

end Sys2Proof.Machine
end

