-- ==== Sys2Proof/Machine/Power.lean ====
section
/-! DEFINITION. The power manager: AVS, regulators, activity grants, droops, thermal stages, PREWARN (R490 to R502,
R508). -/

namespace Sys2Proof.Machine

/-- Changes the power manager's state. -/
def updPwr (g : Pwr → Pwr) (d : Dev) : Dev := { d with pwr := g d.pwr }

/-! ### AVS and regulators (R493, R494) -/

/-- The target of VDD_CORE (R493) (DESIGN CHOICE, log 64). -/
def avsTarget (d : Dev) : Nat :=
  max 650 (min 850 (Config.avsTable (d.nv.peat.filter (fun c => decide (0x010000 ≤ c.1) && decide (c.1 < 0x020000))) (hottest d).1))

/-- AVS_STEP (R493, R494): what the AVSBus read, or nothing where the regulator does not answer. -/
def avsStep (measured : Option Nat) (d : Dev) : Dev :=
  if !enabled d PWR then d
  else
    match measured with
    | none =>
      let never := fld d (PWR + 0x030) 26 1 == 0 && fld d (PWR + 0x034) 16 10 == 0
      let d := setFld (PWR + 0x030) 26 1 0 d
      if never then raise (srcWin 2 2) d else d
    | some m =>
      let t := avsTarget d
      let v := d.pwr.vcore
      let v := if v + 5 ≤ t then v + 5 else if t + 5 ≤ v then v - 5 else v
      updPwr (fun p => { p with vcore := v })
        (setFld (PWR + 0x030) 26 1 1 (setFld (PWR + 0x034) 0 10 t (setFld (PWR + 0x034) 16 10 m d)))

/-- Is a rail's voltage in mV within its DC range (R490); that of VDD_CORE follows the voltage commanded. -/
def railOk (d : Dev) (r mv : Nat) : Bool :=
  let within (lo hi : Nat) : Bool := decide (lo ≤ mv) && decide (mv ≤ hi)
  match r with
  | 0 => decide (d.pwr.vcore * 985 ≤ mv * 1000) && decide (mv * 1000 ≤ d.pwr.vcore * 1015)
  | 1 => within 780 820
  | 2 => within 830 870
  | 3 => within 1170 1230
  | 4 => within 1750 1850
  | _ => within 780 820

/-- A rail's poll (R494). A poll that is not answered is a failed transaction (DEDUCED, log 65). -/
def railPoll (r : Nat) (x : RailReading) (d : Dev) : Dev :=
  let old := lget d.pwr.rails r {}
  if old.addr.isNone then d
  else if x.answered then
    let bads := if railOk d r x.millivolt then 0 else old.bads + 1
    let new : Rail := { addr := old.addr, mv := x.millivolt, ma := x.milliamp, celsius := x.celsius, fault := x.fault, bads := bads, fails := 0 }
    let d := updPwr (fun p => { p with rails := lset p.rails r new }) d
    if x.fault || decide (2 ≤ bads) then raise (srcWin 2 2) d else d
  else
    let d := updPwr (fun p => { p with rails := lset p.rails r { old with fails := (old.fails + 1) % 3 } }) d
    if old.fails = 2 then raise (srcWin 2 3) d else d

/-- PMBUS_POLL and PM_ALERT (R494): the readings of the rails in the order of R490. -/
def pmbusPoll (xs : List RailReading) (d : Dev) : Dev :=
  if !enabled d PWR then d else (xs.take 6).zipIdx.foldl (fun d p => railPoll p.2 p.1 d) d

/-! ### Activity grants (R495, R501) -/

/-- The kind of a block that thermal stages cap; 4 for the others. -/
def slewKind : SlewBlock → Nat
  | .ember _ => 0
  | .reduction _ => 1
  | .dma => 2
  | .injection _ => 3
  | _ => 4

/-- What may still be granted now of an increase or a decrease, in mA: the limit of any 100 ns. -/
def slewRoom (d : Dev) (rise : Bool) : Nat :=
  let used := sumOf ((d.pwr.grants.filter (fun g => decide (d.clk < g.1 + 100) && g.2.1 == rise)).map (·.2.2))
  fld d (PWR + 0x020) 0 6 * 100 - used

/-- What the thermal stage lets a block's kind rise by (R501) (DEDUCED, log 65). -/
def capRoom (d : Dev) (b : SlewBlock) (amount : Nat) : Nat :=
  let k := slewKind b
  let st := fld d (PWR + 0x030) 0 2
  if k = 4 ∨ st < 2 then amount
  else Config.fullActivity k * (if st = 2 then 75 else 50) / 100 - lget d.pwr.active k 0

/-- Grants what may be granted of a request; the rest is held (DEDUCED, log 65). -/
def slewGrant (b : SlewBlock) (rise : Bool) (amount : Nat) (d : Dev) : Dev :=
  let g := min amount (slewRoom d rise)
  let g := if rise then min g (capRoom d b amount) else g
  let k := slewKind b
  let a := lget d.pwr.active k 0
  let d := updPwr (fun p =>
    { p with
      estimate := if rise then p.estimate + g else p.estimate - g
      grants := p.grants.filter (fun x => decide (d.clk < x.1 + 100)) ++ (if g = 0 then [] else [(d.clk, rise, g)])
      active := if k < 4 then lset p.active k (if rise then a + g else a - g) else p.active
      held := if g = amount then p.held else p.held ++ [(b, rise, amount - g)]
      heldSeen := p.heldSeen || decide (g ≠ amount) }) d
  if g = 0 then d else emit (.grant b g) d

/-- SLEW_GRANT_REQUEST (R495): a block asks for a change of its activity in mA, behind what is held already (DEDUCED, log 65). -/
def slewRequest (b : SlewBlock) (rise : Bool) (amount : Nat) (d : Dev) : Dev :=
  if amount = 0 then d
  else if d.pwr.held.any (fun h => h.2.1 == rise) then
    updPwr (fun p => { p with held := p.held ++ [(b, rise, amount)], heldSeen := true }) d
  else slewGrant b rise amount d

/-- What is held is granted in its order as room comes. -/
def slewRelease (d : Dev) : Dev :=
  let hs := d.pwr.held
  hs.foldl (fun d h => slewGrant h.1 h.2.1 h.2.2 d) (updPwr (fun p => { p with held := [] }) d)

/-! ### Droops (R498, R499) -/

/-- DROOP_DETECT: a detector sees VDD_CORE `mv` below the target (DEDUCED, log 65). -/
def droopDetect (mv : Nat) (d : Dev) : Dev :=
  if mv ≤ fld d (PWR + 0x020) 8 6 ∨ d.pwr.droopSince.isSome = true then d
  else
    let (n, d) := fresh d
    count (PWR + 0x100) (updPwr (fun p => { p with droopSince := some d.clk, droopAcc := n % 15 }) d)

/-- DROOP_END. -/
def droopEnd (d : Dev) : Dev := updPwr (fun p => { p with droopSince := none }) d

/-- DROOP_LONG: a stretch has lasted 100 µs (DEDUCED, log 65). -/
def droopLong (d : Dev) : Dev := if d.pwr.droopSince.isSome then raise (srcWin 2 4) d else d

/-! ### Thermal stages (R501, R502) -/

/-- The stage for a hottest reading, with 3 °C of hysteresis (DEDUCED, log 65). -/
def thermalStage (st : Nat) (th : List Nat) (t : Int) : Nat :=
  ([1, 2, 3].filter (fun k =>
    let x : Int := (th.getD (k - 1) 0 : Nat)
    decide (x ≤ t) || (decide (k ≤ st) && decide (x - 3 < t)))).foldl max 0

/-- THERMAL_READING: the sensors' readings in °C. -/
def thermalReading (ts : List Int) (d : Dev) : Dev :=
  let ts := ts.take 96 ++ d.pwr.temps.drop ts.length
  let d := updPwr (fun p => { p with temps := ts }) d
  let th := fld d (PWR + 0x024)
  let st := fld d (PWR + 0x030) 0 2
  let t := (hottest d).1
  let new := thermalStage st [th 0 8, th 8 8, th 16 8] t
  let d := setFld (PWR + 0x030) 0 2 new d
  let d := if st < 1 ∧ 1 ≤ new then raise (srcWin 2 5) d else d
  let d := if st < 3 ∧ 3 ≤ new then raise (srcWin 2 6) d else d
  if 110 ≤ t then raise (srcWin 2 7) d else d

/-- THERMTRIP (R502). -/
def thermtrip (t : Int) (d : Dev) : Dev :=
  if t < 115 ∨ d.pwr.trip = true then d else emit (.pin "THERMTRIP_N" 0 0) (updPwr (fun p => { p with trip := true }) d)

/-! ### PREWARN (R500) -/

/-- Outputs are forced high, or no longer. -/
def prewarnForce (mask : Nat) (d : Dev) : Dev := prewarnPut d.coll.prewarn (mask % 16) d

/-! ### The passing of time -/

/-- Stretched cycles of CCLK in one ns, in 1/15: 1.5 GHz lengthened by STRETCH (DEDUCED, log 65). -/
def stretchRate (d : Dev) : Nat :=
  match fld d (PWR + 0x020) 16 2 with
  | 0 => 20
  | 1 => 18
  | _ => 15

/-- One ns of the power manager: stretched cycles, µs in a throttle stage, 100 ns with a grant held, and what was
held is granted. -/
def pwrTick (d : Dev) : Dev :=
  let d := if d.pwr.droopSince.isSome then
      let a := d.pwr.droopAcc + stretchRate d
      countBy (PWR + 0x108) (a / 15) (updPwr (fun p => { p with droopAcc := a % 15 }) d)
    else d
  let d := if 2 ≤ fld d (PWR + 0x030) 0 2 then
      let n := d.pwr.throttled + 1
      countBy (PWR + 0x118) (n / 1000) (updPwr (fun p => { p with throttled := n % 1000 }) d)
    else d
  let d := if d.pwr.held = [] then d else slewRelease d
  if d.clk % 100 = 0 ∧ d.pwr.heldSeen = true then
    count (PWR + 0x110) (updPwr (fun p => { p with heldSeen := decide (p.held ≠ []) }) d)
  else d

end Sys2Proof.Machine
end

