-- ==== Sys2Proof/Machine/Boot.lean ====
section
/-! DEFINITION. Device-level resets, the boot sequence with the verification of Kindling images, and the reference
clocks (R17, R461 to R479, R488, R492). -/

namespace Sys2Proof.Machine

/-- Changes what boot holds. -/
def updBoot (g : Boot → Boot) (d : Dev) : Dev := { d with boot := g d.boot }

/-- Changes what resets keep. -/
def updNv (g : Nv → Nv) (d : Dev) : Dev := { d with nv := g d.nv }

/-! ### Device-level resets (R461, R462) -/

/-- The pins of a host port go to their reset levels (R391 to R393) (DEDUCED, log 71). -/
def hostPinsReset (h : Nat) (d : Dev) : Dev :=
  let x := host d h
  let d := if x.pwrEn then emit (.pin "HP_PWREN" h 0) d else d
  let d := if (indicators x).1 = 0 then d else emit (.pin "HP_ATNIND" h 0) d
  let d := if (indicators x).2 = 0 then d else emit (.pin "HP_PWRIND" h 0) d
  if x.wake then emit (.pin "HP_WAKE_N" h 1) d else d

/-- The pins go to their reset levels; FATAL# is released by a device-level reset (R520). -/
def pinsReset (d : Dev) : Dev :=
  let d := prewarnPut 0 0 d
  let d := (List.range 8).foldl (fun d h => hostPinsReset h d) d
  let d := if d.time.ppsFall.isSome then emit (.pin "PPS_OUT" 0 0) d else d
  if d.flt.fatal.isSome then emit (.pin "FATAL#" 0 1) d else d

/-- A device-level reset (R462): what the Peat store, the flash, the straps, the pins that the board drives and the
model's own fields hold is kept, all else returns to its reset value (DEDUCED, log 71). -/
def deviceReset (kind : Nat) (straps : BitVec 4) (power : Bool) (d : Dev) : Dev :=
  let d := pinsReset d
  let hs := (hostsFor (fun c => straps.getLsbD c)).map (fun p => (p.1, { p.2 with perst := (host d p.1).perst }))
  { Dev.reset with
    clk := d.clk, free := d.free, out := d.out, nv := d.nv, hosts := hs
    pwr := { Dev.reset.pwr with trip := d.pwr.trip }
    boot := { straps := straps, cause := kind, power := power, refA := d.boot.refA, refB := d.boot.refB } }

/-- Is a controller split at a cold reset (R373): by the persisted mode, by HOST_SPLIT_SET, else by its strap (DEDUCED, log 70). -/
def splitNow (d : Dev) (straps : BitVec 4) (c : Nat) : Bool :=
  match record? d (0x710 + c) with
  | some vs => vs.headD 0 == 1
  | none => ((host d (2 * c)).splitNext).getD (straps.getLsbD c)

/-- COLD_RESET (R461). -/
def coldReset (straps : BitVec 4) (d : Dev) : Dev :=
  let s := fields ((List.range 4).map (fun c => (c, b2n (splitNow d straps c))))
  deviceReset 1 (BitVec.ofNat 4 s) true d

/-- RESET_PIN_ASSERT (R461). -/
def resetPin (d : Dev) : Dev := if d.boot.power then deviceReset 2 d.boot.straps true d else d

/-- DEVICE_LEVEL_RESET (R462, R465, R479): the reset that a command has made due. -/
def resetDue (d : Dev) : Dev :=
  match d.boot.due with
  | some k => if d.boot.power then deviceReset k d.boot.straps true d else d
  | none => d

/-- PFAIL_RECOVERED (R488). -/
def pfailRecovered (d : Dev) : Dev := if d.boot.pfail && d.boot.power then deviceReset 4 d.boot.straps true d else d

/-- POWER_GOOD_FALL (R492): the device is in reset until POWER_GOOD rises; THERMTRIP_N is released (R502). -/
def powerGoodFall (d : Dev) : Dev :=
  let d := if d.pwr.trip then emit (.pin "THERMTRIP_N" 0 1) (updPwr (fun p => { p with trip := false }) d) else d
  deviceReset d.boot.cause d.boot.straps false d

/-! ### Kindling images (R470, R471) -/

/-- Where a slot lies in the flash. -/
def slotBase (s : Nat) : Nat := s * 0x2000000

/-- A number in an image header. -/
def hdrNat (h : Bytes) (off n : Nat) : Nat := leNat ((h.drop off).take n)

/-- A part of an image is in range: its offset, size and the largest size. -/
def partOk (h : Bytes) (off most : Nat) : Bool :=
  let o := hdrNat h off 4
  let n := hdrNat h (off + 4) 4
  decide (512 ≤ o) && decide (o + n ≤ hdrNat h 8 4) && decide (4096 ≤ n) && decide (n ≤ most)

/-- The first check of R471 that a slot fails, or 0. -/
def slotCode (d : Dev) (s : Nat) : Nat :=
  let h := cellsRead d.nv.flash (slotBase s) 512
  let len := hdrNat h 8 4
  let part (a n : Nat) : Bytes := (h.drop a).take n
  if hdrNat h 0 4 ≠ 0x444E494B ∨ hdrNat h 4 2 ≠ 1 ∨ !(allZero (part 6 2) && allZero (part 48 64) && allZero (part 209 47) && allZero (part 352 160)) then 2
  else if len < 1024 ∨ 2 ^ 25 < len ∨ !(partOk h 24 (768 * 1024) && partOk h 32 (256 * 1024)) then 3
  else if Config.sha384 (part 112 97) ≠ d.nv.keyHash then 4
  else if !Config.ecdsaOk (part 112 97) (Config.sha384 (part 0 256 ++ cellsRead d.nv.flash (slotBase s + 512) (len - 512))) (part 256 96) then 5
  else if hdrNat h 20 4 < d.nv.minSecurity then 6
  else 0

/-- The versions in a slot's header: Kindling, Ember, security. -/
def slotVersions (d : Dev) (s : Nat) : List Nat :=
  let h := cellsRead d.nv.flash (slotBase s) 512
  [hdrNat h 12 4, hdrNat h 16 4, hdrNat h 20 4]

/-- A slot is verified, and what was found is kept (DEDUCED, log 7). -/
def slotVerify (s : Nat) (d : Dev) : Nat × Dev :=
  let c := slotCode d s
  (c, updBoot (fun b => { b with verified := mset b.verified s (c, slotVersions d s) }) d)

/-- The trial rule of R472, except in RETIRED, where the slot record is read-only (R477) (DEDUCED, log 70). -/
def trialStep (d : Dev) : Dev :=
  if d.nv.lc = 5 ∨ d.nv.trial = 0 then d
  else
    recordWear 0 16 (updNv (fun n => if n.trial = 2 then { n with preferred := !n.preferred, trial := 0 } else { n with trial := 2 }) d)

/-- Steps 4 and 5 of R466: the slot that boots, if one passes, and GLB.BOOT (DEDUCED, log 70). -/
def imageChoose (d : Dev) : Option Nat × Dev :=
  let d := trialStep d
  let p := b2n d.nv.preferred
  let (c, d) := slotVerify p d
  let d := setFld (GLB + 0x028) 5 2 d.nv.trial (setFld (GLB + 0x028) (8 + 8 * p) 8 c d)
  if c = 0 then (some p, setFld (GLB + 0x028) 3 1 p d)
  else
    let d := raise (srcWin 1 3) (setFld (GLB + 0x028) 4 1 1 d)
    let q := 1 - p
    let (e, d) := slotVerify q d
    let d := setFld (GLB + 0x028) (8 + 8 * q) 8 e d
    if e = 0 then (some q, setFld (GLB + 0x028) 3 1 q d) else (none, d)

/-- A verified image takes the device over (R466, step 6) (DEDUCED, log 7; DEDUCED, log 70). -/
def imageLoad (s : Nat) (d : Dev) : Dev :=
  let v := slotVersions d s
  let d := updBoot (fun b => { b with image := true, versions := v }) d
  let d := setFld (EMBER + 0x020) 0 32 (v.getD 1 0) (setFld (KILN + 0x020) 0 32 (v.getD 0 0) d)
  updEmber (fun e => { e with loaded := true }) d

/-! ### The life-cycle wipe (R479) -/

/-- Completes a pending wipe: IDENTITY, CALIBRATION, WEAR and the incarnation record stay (DEDUCED, log 70). -/
def wipeGo (d : Dev) : Dev :=
  if !d.nv.wipe then d
  else
    let d := updNv (fun n => { n with
      peat := n.peat.filter (fun c => decide (c.1 < 0x030000)), recs := [], hist := [], journal := [], jNext := 0, jSeq := 0
      logSeq := 0, newest := [], bootMode := 1, wipe := false }) (wearCount 0x030000 (peatSize - 0x030000) d)
    setFld (GLB + 0x02C) 3 1 0 (setFld (GLB + 0x028) 7 1 1 (recordWear 0 16 d))

/-! ### Restoring what software asked to keep (R297, R482, R508) -/

/-- Restores one record of the power manager; none keeps a rail unmapped. -/
def restorePwr (k : Nat) (vs : List Nat) (d : Dev) : Dev :=
  let v (i : Nat) : Nat := lget vs i 0
  if k = 0x800 then setFld (PWR + 0x020) 16 2 (v 2) (setFld (PWR + 0x020) 8 6 (v 1) (setFld (PWR + 0x020) 0 6 (v 0) d))
  else if k = 0x801 then setFld (PWR + 0x024) 16 8 (v 2) (setFld (PWR + 0x024) 8 8 (v 1) (setFld (PWR + 0x024) 0 8 (v 0) d))
  else if 0x810 ≤ k ∧ k < 0x816 then
    updPwr (fun p => { p with rails := p.rails.zipIdx.map (fun r =>
      if r.2 = k - 0x810 then { r.1 with addr := if vs.length = 2 then some (v 0, v 1) else none } else r.1) }) d
  else d

/-- The consistency check of PWR (R508). -/
def checkPwr (d : Dev) : Option Nat :=
  let as := d.pwr.rails.filterMap (·.addr)
  let t := fld d (PWR + 0x024)
  firstReason [(decide (as.eraseDups.length < as.length), 0x0301),
    (!(decide (t 0 8 ≤ t 8 8) && decide (t 8 8 < t 16 8) && decide (t 16 8 ≤ 105)), 0x0302)]

/-- PWR is enabled with its persisted settings, or without them where they are inconsistent (R508). -/
def pwrBoot (d : Dev) : Dev :=
  let e := enableWith PWR (checkPwr (d.nv.recs.foldl (fun d r => restorePwr r.1 r.2.vals d) d)) (d.nv.recs.foldl (fun d r => restorePwr r.1 r.2.vals d) d)
  if enabled e PWR then e
  else
    let d := updNv (fun n => { n with recs := n.recs.filter (fun r => !(decide (0x800 ≤ r.1) && decide (r.1 < 0x816))) }) (recordWear 0x30 80 d)
    enableWith PWR none (raise (srcWin 2 2) d)

/-- Restores what R468 restores without an image too: DA, roles, versions, INJ. -/
def restoreRoute (k : Nat) (vs : List Nat) (d : Dev) : Dev :=
  let v := vs.headD 0
  if k = 0 then updRtr (fun r => { r with da := v, daValid := true }) d
  else if 0x100 ≤ k ∧ k < 0x180 then updPort (k - 0x100) (fun p => { p with role := v, roleNext := v }) d
  else if k = 0x200 ∨ k = 0x201 then versionRestore (k - 0x200) vs d
  else if k = 0x300 then updRtr (fun r => { r with inj := v == 1 }) d
  else d

/-- Restores a severity or a route mask, before sources are routed (R534). -/
def restoreFlt (k : Nat) (vs : List Nat) (d : Dev) : Dev :=
  let v := vs.headD 0
  if 0x1000 ≤ k ∧ k < 0x1400 then { d with flt := { d.flt with sev := mset d.flt.sev (k - 0x1000) v } }
  else if 0x2000 ≤ k then { d with flt := { d.flt with route := mset d.flt.route (k - 0x2000) v } }
  else d

/-- Restores the records of fabric time and host slots (DEDUCED, log 70). -/
def restoreRest (k : Nat) (vs : List Nat) (d : Dev) : Dev :=
  let v := vs.headD 0
  if k = 0x400 then timeCfgApply vs d
  else if k = 0x401 then updTime (fun t => { t with utc := v }) d
  else if 0x500 ≤ k ∧ k < 0x580 then updPTime (k - 0x500) (fun p => { p with asym := toSigned 16 v }) d
  else if k = 0x600 then timePpsApply vs d
  else if 0x720 ≤ k ∧ k < 0x728 then (if absentPort d (k - 0x720) then d else slotApply (k - 0x720) vs d)
  else d

/-- Step 3 of R466: the host controllers with their persisted function configuration (R382, R402). -/
def hostsBoot (d : Dev) : Dev :=
  (List.range 8).foldl (fun d h =>
    if absentPort d h then d
    else
      let d := match record? d (0x700 + h) with
        | some [t, p, v] => updHost h (fun x => { x with totalVfs := t, pfVec := p, vfVec := v }) d
        | _ => d
      enableWith (HOSTB h) (checkHost d h) d) d

/-! ### Enabling the blocks (R466, step 8) -/

/-- Kiln enables RTR, or will at the first DEVICE_DA_SET (R298). -/
def rtrBoot (d : Dev) : Dev :=
  let d := enableWith RTR (checkRtr d) d
  updRtr (fun r => { r with autoEnable := !d.rtr.daValid }) d

/-- A port's pages: RIN and OSCH, and LANE and LINK where its role is not UNUSED and the life-cycle state lets ports come
up (R27, R477). -/
def portBoot (n : Nat) (d : Dev) : Dev :=
  let d := setEn (OSCH n) true (setEn (RIN n) true d)
  if (port d n).role = 2 ∨ d.nv.lc = 5 then d
  else enableWith (LINK n) (checkLink d n) (enableWith (LANE n) (checkLane d n) d)

/-- Every block other than EMBER, FLT, PWR and the host ports. -/
def blocksBoot (d : Dev) : Dev :=
  let d := [GLB, KILN, TIME, TALLY].foldl (fun d b => setEn b true d) d
  let d := (List.range 4).foldl (fun d k => enableWith (XLAT k) (checkXlat d k) d) d
  let d := enableWith MATCH (checkMatch d) (enableWith EPT (checkEpt d) d)
  let d := enableWith CLASP (checkClasp d) (enableWith COLL (checkColl d) d)
  let d := enableWith CONG (checkCong d) (enableWith XPORT (checkXport d) d)
  let d := rtrBoot (enableWith MGF (checkMgf d) (enableWith DMA (checkDma d) d))
  (List.range 128).foldl (fun d n => portBoot n d) d

/-- The mode that step 8 writes (R468, R475, R477). -/
def bootModeNow (d : Dev) : Nat :=
  if !d.boot.image || d.nv.lc == 4 || d.nv.lc == 5 then 3
  else if d.nv.lc = 3 ∧ d.nv.bootMode = 0 then 1
  else d.nv.bootMode

/-- The incarnation goes up by one (R216). -/
def incarnate (d : Dev) : Dev :=
  let i := (d.nv.incarnation + 1) % 256
  recordWear 0x30 80 (updXp (fun x => { x with incarnation := i }) (updNv (fun n => { n with incarnation := i }) d))

/-- BOOT_SEQUENCE (R466, R468): the steps from ROM to READY, with the clusters whose self test failed and the masks of
their failed engines (R451) (DEDUCED, log 24). -/
def bootSequence (failed : List (Nat × Nat)) (d : Dev) : Dev :=
  if fld d (GLB + 0x028) 0 3 ≠ 0 ∨ d.boot.power = false then d
  else
    let d := setFld (GLB + 0x024) 8 1 (b2n d.nv.jLive) (setFld (GLB + 0x024) 0 4 d.boot.cause (setEn FLT true d))
    let d := d.nv.recs.foldl (fun d r => restoreFlt r.1 r.2.vals d) d
    let d := updNv (fun n => { n with jLive := false }) d
    let d := setFld (GLB + 0x02C) 3 1 (b2n d.nv.wipe) (setFld (GLB + 0x02C) 0 3 d.nv.lc d)
    let d := setFld (GLB + 0x020) 8 8 d.nv.personality (setFld (KILN + 0x024) 0 32 d.nv.minSecurity d)
    let d := hostsBoot (pwrBoot d)
    let (img, d) := imageChoose d
    let d := match img with | some s => imageLoad s d | none => d
    let d := wipeGo (setFld (GLB + 0x020) 0 8 d.nv.personality d)
    let d := if img.isSome then emberBoot failed d else d
    let d := d.nv.recs.foldl (fun d r => restoreRoute r.1 r.2.vals d) d
    let d := if img.isSome then d.nv.recs.foldl (fun d r => restoreRest r.1 r.2.vals d) d else d
    let d := blocksBoot (incarnate d)
    let d := setFld (GLB + 0x010) 0 2 (bootModeNow d) d
    setFld (GLB + 0x028) 0 3 6 (bringupAll d)

/-! ### Reference clocks (R17) -/

/-- The lane PLLs lose their lock on a reference that jumps: every port in service proposes a retrain (DEDUCED, log 72). -/
def retrainAll (d : Dev) : Dev :=
  d.ports.foldl (fun d p => if p.2.state = 0 then d else propose p.1 0 0 none d) d

/-- REFCLK_A_FAIL: the lane PLLs switch to REFCLK_B (DEDUCED, log 72). -/
def refclkA (within : Bool) (d : Dev) : Dev :=
  if !d.boot.refA then d
  else
    let d := raise (srcWin 0 4) (updBoot (fun b => { b with refA := false }) d)
    let d := if d.boot.refB && !within then retrainAll d else d
    refLost d

/-- REFCLK_B_FAIL (DEDUCED, log 72). -/
def refclkB (d : Dev) : Dev :=
  if !d.boot.refB then d else refLost (raise (srcWin 0 5) (updBoot (fun b => { b with refB := false }) d))

end Sys2Proof.Machine
end

