-- ==== Sys2Proof/Machine/Tally.lean ====
section
/-! DEFINITION. TALLY snapshots and the accounts of idle slots (R527 to R532). -/

namespace Sys2Proof.Machine

/-- Changes TALLY's state. -/
def updTally (g : Tally → Tally) (d : Dev) : Dev := { d with tally := g d.tally }

/-! ### Snapshots (R527 to R530) -/

/-- `n` registers of an array. -/
def arr (base stride n : Nat) : List Nat := (List.range n).map (fun i => base + stride * i)

/-- The numbers below `n` whose bit is set. -/
def bitsSet (n v : Nat) : List Nat := (List.range n).filter (fun i => bitOf v i)

/-- The registers of a group: of one port, of one host port, or of the device (R528). -/
def groupRegs (g i : Nat) : List Nat :=
  match g with
  | 0 => arr (LANE i + 0x100) 8 8
  | 1 => arr (LANE i + 0x080) 4 6
  | 2 => arr (LINK i + 0x100) 8 8
  | 3 => arr (LINK i + 0x080) 4 5
  | 4 => arr (RIN i + 0x100) 8 4
  | 5 => arr (OSCH i + 0x300) 8 5
  | 6 => arr (OSCH i + 0x100) 8 8
  | 7 => arr (OSCH i + 0x200) 8 16
  | 8 => arr (OSCH i + 0x340) 8 4
  | 9 => arr (HOSTB i + 0x200) 8 6
  | 10 => arr (HOSTB i + 0x240) 8 4 ++ arr (HOSTB i + 0x260) 8 4
  | _ => arr (DMA + 0x300) 8 4 ++ arr (MGF + 0x100) 8 5 ++ arr (EMBER + 0x340) 8 6 ++ arr (PWR + 0x100) 8 4 ++ arr (GLB + 0x100) 8 16

/-- The registers of a selection in the order of its entries: groups, masks of ports and host ports (R528). -/
def tallyRegsOf (groups pmask hmask : Nat) : List Nat :=
  (bitsSet 12 groups).flatMap (fun g =>
    if g < 9 then (bitsSet 128 pmask).flatMap (groupRegs g)
    else if g < 11 then (bitsSet 8 hmask).flatMap (groupRegs g)
    else groupRegs g 0)

/-- The size of a snapshot of a selection in bytes (R528) (DEDUCED, log 79). -/
def tallySize (groups pmask hmask : Nat) : Nat := 72 + 8 * (tallyRegsOf groups pmask hmask).length

/-- An entry of a snapshot: the counter with its WRAP flag. -/
def tallyEntry (d : Dev) (a : Nat) : Bytes := toLe 8 ((reg d a).toNat + b2n (d.wraps.contains a) * 2 ^ 63)

/-- TALLY ends with the snapshot it is writing: SEQ shows it, and a TALLY_STOP that waits is answered. -/
def tallyDone (d : Dev) : Dev :=
  let running := fld d (TALLY + 0x020) 0 1 = 1
  let t := d.tally
  if running ∧ (t.busyTo = 0 ∨ d.clk < t.busyTo) then d
  else
    let d := if running then setFld (TALLY + 0x028) 0 32 (fld d (TALLY + 0x028) 0 32 + 1) d else d
    let d := updTally (fun t => { t with busyTo := 0, stop := none }) d
    match t.stop with
    | none => d
    | some ctx => push (.reply ctx 0x0F21 0 0 []) (setFld (TALLY + 0x020) 0 1 0 d)

/-- The bytes of snapshot number `q` (R529) (DEDUCED, log 79). -/
def tallyBytes (q : Nat) (rs : List Nat) (d : Dev) : Bytes :=
  let t := d.tally
  packVals [(4, q), (4, 0x594C4C54), (8, d.time.ns - d.time.ns % (t.period * 1000)), (1, timeQ d), (3, 0), (4, 72 + 8 * rs.length), (4, t.groups),
    (4, t.skipped), (16, t.pmask), (1, t.hmask), (15, 0)] ++ rs.flatMap (tallyEntry d) ++ toLe 4 q ++ toLe 4 0

/-- TALLY_TICK (R527, R530): a snapshot is latched and handed to the host, at 8,192 bytes in 1 µs, or the tick is missed (DEDUCED, log 79). -/
def tallyTick (d : Dev) : Dev :=
  let d := tallyDone d
  let t := d.tally
  if fld d (TALLY + 0x020) 0 1 = 0 ∨ frozen d = true then d
  else if lostFn d t.f || !(fn d t.f).bme then tallyLost (fun _ => true) d
  else if t.busyTo ≠ 0 then
    let d := updTally (fun t => { t with skipped := min (2 ^ 32 - 1) (t.skipped + 1) }) d
    raise (srcWin 5 2) (setFld (TALLY + 0x02C) 0 32 (min (2 ^ 32 - 1) (fld d (TALLY + 0x02C) 0 32 + 1)) d)
  else
    let rs := tallyRegsOf t.groups t.pmask t.hmask
    let d := openCounters.foldl (fun d a => if rs.contains a then countOpen a d else d) d
    let q := (fld d (TALLY + 0x028) 0 32 + 1) % 2 ^ 32
    let b := tallyBytes q rs d
    let size := b.length
    let at0 := t.ring + q % 2 ^ t.m * ((size + 4095) / 4096 * 4096)
    let d := hostWrite t.f at0 (b.take 4) false false d
    let d := hostWrite t.f (at0 + 4) ((b.drop 4).take (size - 12)) true false d
    let d := hostWrite t.f (at0 + size - 8) (b.drop (size - 8)) false false d
    updTally (fun t => { t with skipped := 0, busyTo := d.clk + (size * 1000 + 8191) / 8192 }) d

/-! ### Idle slots (R531, R532) -/

/-- One ns of a fabric port in service: a bead slot that carries no bead of a strand is put down. -/
def portIdle (n : Nat) (d : Dev) : Dev :=
  let p := port d n
  if p.state = 0 then d
  else
    let d := updLink n (fun l => { l with slot := l.slot - 100 }) d
    if (port d n).link.slot ≤ -(slotLen p.lane) then
      acct n (if p.txNext.isSome || p.link.replaying || p.out.qs.any (· != []) then 3 else 2) d
    else d

/-- One ns of a host port whose link is DL_Active. -/
def hostIdle (h : Nat) (d : Dev) : Dev :=
  let x := host d h
  if !x.dl then d
  else
    let d := updHost h (fun x => { x with slotInj := x.slotInj - 100, slotDlv := x.slotDlv - 100 }) d
    let y := host d h
    let d := if y.slotInj ≤ -132 then hostAcct h false (if y.injNext.isSome || y.inj.qs.any (· != []) then 3 else 2) 1 d else d
    if y.slotDlv ≤ -132 then hostAcct h true (if y.land.qs.any (· != []) then 3 else 2) 1 d else d

/-- One ns of every account (DEDUCED, log 79). -/
def idleSlots (d : Dev) : Dev :=
  let d := (d.ports.map (·.1)).foldl (fun d n => portIdle n d) d
  (List.range 8).foldl (fun d h => hostIdle h d) d

end Sys2Proof.Machine
end

