-- ==== Sys2Proof/Machine/Mgf.lean ====
section
/-! DEFINITION. Management strands, the management FIFOs and the answers of the maintenance port (R437, R441 to R446). -/

namespace Sys2Proof.Machine

/-- Changes the FIFOs. -/
def updMgf (g : Mgf → Mgf) (d : Dev) : Dev := { d with mgf := g d.mgf }

/-- Changes the maintenance port's state. -/
def updMnt (g : Mnt → Mnt) (d : Dev) : Dev := { d with mnt := g d.mnt }

/-! ### Answers of the maintenance port (R437) -/

/-- Sends a response: RESULT and the data of a read. -/
def maintAnswer (mctp : Bool) (res : Nat) (data : Bytes) (d : Dev) : Dev :=
  let b := toLe 1 res ++ data
  let out : Bytes := 0x5A#8 :: b ++ toLe 1 (crc8 b).toNat
  emit (if mctp then .mctp out else .maint out) d

/-- A read ends with its value: a completion, or the answer of the request that asked for it. -/
def answerRead (m : Master) (width value : Nat) (d : Dev) : Dev :=
  match m, d.mnt.stall with
  | .maint, some mctp => maintAnswer mctp 0 (toLe (width / 8) value) (updMnt (fun x => { x with stall := none }) d)
  | _, _ => emit (.readData m width value) d

/-! ### The receive FIFO (R441, R444 to R446) -/

/-- Latches RX_FLAGS of a path. -/
def rxFlags (m : Master) (fin empty : Bool) (d : Dev) : Dev :=
  match m with
  | .host f => updFn f (fun x => { x with rxEnd := fin, rxEmpty := empty }) d
  | .maint => updMnt (fun x => { x with rxEnd := fin, rxEmpty := empty }) d

/-- A read ends empty. -/
def rxEmptyEnd (m : Master) (d : Dev) : Dev := rxFlags m false true (answerRead m 64 (2 ^ 64 - 1) d)

/-- A read takes the head word, if there is one. -/
def rxTake (m : Master) (d : Dev) : Dev :=
  match d.mgf.rx with
  | [] => d
  | (w, fin) :: rest =>
    let d := updMgf (fun g => { g with rx := rest, partly := !fin, flushRx := g.flushRx.map (· - 1) }) d
    rxFlags m fin false (answerRead m 64 w.toNat d)

/-- A read of MGF.RX_DATA (R444, R445): a host path waits only where STALL_LIMIT lets it (DEDUCED, log 78). -/
def rxRead (m : Master) (d : Dev) : Dev :=
  if d.mgf.rx ≠ [] then rxTake m d
  else if m ≠ .maint ∧ fld d (MGF + 0x020) 0 4 = 0 then rxEmptyEnd m d
  else updMgf (fun g => { g with stalled := g.stalled ++ [m] }) d

/-- Words that have come end the reads that wait, in their order. -/
def rxServe (d : Dev) : Dev :=
  let ms := d.mgf.stalled.take d.mgf.rx.length
  ms.foldl (fun d m => rxTake m d) (updMgf (fun g => { g with stalled := g.stalled.drop ms.length }) d)

/-- RX_DATA_STALL_END (R445): the limit passes for a host path's read that waits (DEDUCED, log 78). -/
def stallEnd (m : Master) (d : Dev) : Dev :=
  if m ≠ .maint ∧ d.mgf.stalled.contains m = true then rxEmptyEnd m (updMgf (fun g => { g with stalled := g.stalled.erase m }) d)
  else d

/-- Bytes as words of eight, the last one filled up with zeros. -/
def wordsOf (bs : Bytes) : List (BitVec 64) :=
  (List.range ((bs.length + 7) / 8)).map (fun i => BitVec.ofNat 64 (leNat ((bs.drop (8 * i)).take 8)))

/-- A strand's packet enters the receive FIFO if all of it fits (R441). -/
def rxDeliver (st : Strand) (d : Dev) : Dev :=
  let ws := wordsOf (st.hdr.encode ++ st.payload)
  if 4096 < d.mgf.rx.length + ws.length then raise (srcWin 16 2) (count (MGF + 0x108) d)
  else
    let n := ws.length
    let d := updMgf (fun g => { g with rx := g.rx ++ ws.zipIdx.map (fun p => (p.1, decide (p.2 + 1 = n))) }) d
    rxServe (count (MGF + 0x100) d)

/-- FLUSH_RX and FLUSH_TX (R446): a flush is requested. -/
def flushRequest (rx tx : Bool) (d : Dev) : Dev :=
  updMgf (fun g => { g with flushRx := if rx then some g.rx.length else g.flushRx, flushTx := g.flushTx || tx }) d

/-- FLUSH_TAKE_EFFECT (R446). -/
def flushGo (rx : Bool) (d : Dev) : Dev :=
  if rx then
    match d.mgf.flushRx with
    | none => d
    | some n =>
      if d.mgf.partly then d
      else
        let ms := d.mgf.stalled
        let d := updMgf (fun g => { g with rx := g.rx.drop n, flushRx := none, stalled := [] }) d
        ms.foldl (fun d m => rxEmptyEnd m d) d
  else if d.mgf.flushTx then updMgf (fun g => { g with tx := [], txBad := false, flushTx := false }) d
  else d

/-! ### The transmit FIFO (R442) -/

/-- A word is appended; one that finds the FIFO full is discarded and spoils its packet. -/
def txAppend (w : BitVec 64) (d : Dev) : Dev :=
  updMgf (fun g => if g.tx.length < 4096 then { g with tx := g.tx ++ [w] } else { g with txBad := true }) d

/-- The checks of R442 in their order. -/
def txBad (ws : List (BitVec 64)) (h : Hdr) : Bool :=
  let o := h.op.toNat
  decide (ws.length < 8) || h.ver != 0 || h.kind != 9 || decide (4096 < h.len.toNat) || decide (ws.length ≠ 8 + (h.len.toNat + 7) / 8)
    || !(decide (o < 0x80) || o == 0x80 || o == 0x82 || o == 0x83)

/-- TX_END: the packet is checked and sent, routed or on the port that MGF.TX_PORT names (DEDUCED, log 78). -/
def txEnd (w : BitVec 64) (d : Dev) : Dev :=
  let d := txAppend w d
  let ws := d.mgf.tx
  let spoilt := d.mgf.txBad
  let d := updMgf (fun g => { g with tx := [], txBad := false }) d
  let bs := ws.flatMap (fun w => toLe 8 w.toNat)
  let h := Hdr.decode (bs.take 64)
  if spoilt || txBad ws h then raise (srcWin 16 3) (count (MGF + 0x118) d)
  else
    let h := { h with
      lsn := 0, ttl := BitVec.ofNat 5 (fld d (XPORT + 0x020) 8 5), defl := 0, trim := false, bgen := 0, ce := 0
      epoch := d.rtr.inj, srcDa := BitVec.ofNat 17 d.rtr.da, flags := h.flags ||| 0x80 }
    let n := h.len.toNat
    let cs : List Chunk := if n = 0 then [] else [⟨(bs.drop 64).take n, false⟩]
    let port0 := fld d (MGF + 0x03C) 0 7
    if fld d (MGF + 0x03C) 7 1 = 0 then sendOwn (mkStrand h cs) (count (MGF + 0x110) d)
    else if (port d port0).state = 0 then count (MGF + 0x118) d
    else
      let (id, d) := newId (count (MGF + 0x110) d)
      enterQueue port0 4 { st := mkStrand h cs, id := id, cells := cellsOf h, general := true, age := d.clk } (takeGeneral (cellsOf h) d)

/-! ### Management strands (R441, R443) -/

/-- A strand is refused or discarded (DEDUCED, log 78). -/
def mgmtDrop (d : Dev) : Dev := count (MGF + 0x120) d

/-- Answers a DATA_WRITE or DATA_READ (DEDUCED, log 78). -/
def dataAnswer (h : Hdr) (res : Nat) (data : Bytes) (d : Dev) : Dev := mgmtAnswer h 0x84 res data d

/-- A REMOTE_ADMIN, DATA_WRITE or DATA_READ strand of the manager (R443). -/
def remoteGo (st : Strand) (d : Dev) : Dev :=
  let h := st.hdr
  let a := h.addr.toNat % 2 ^ 16
  let bs := st.payload
  if h.op = 0x80 then
    if d.mnt.busy then
      let c : AdminCtx := { path := .mailbox, seq := leAt bs 4 4, index := 0, intr := false, replyData := 0 }
      mgmtAnswer h 0x81 0 (replyBytes c (leAt bs 0 2) 4 0 [] true) d
    else
      { updMnt (fun x => { x with busy := true, remote := some h }) d with
        adm := { d.adm with fetched := d.adm.fetched ++ [{ path := .mailbox, index := 0, bytes := bs }] } }
  else if d.mnt.busy then dataAnswer h 2 [] d
  else if h.op = 0x82 then
    if 0x10000 < a + bs.length then dataAnswer h 1 [] d
    else dataAnswer h 0 [] (updMnt (fun x => { x with data := cellsWrite x.data a bs }) d)
  else
    let n := h.opwf 0 13
    if n < 8 ∨ 4096 < n ∨ n % 8 ≠ 0 ∨ 0x10000 < a + n then dataAnswer h 1 [] d
    else dataAnswer h 0 (cellsRead d.mnt.data a n) d

/-- Does a strand of an OP from 0x80 on keep to the VN and LEN of the table of R441, with its payload present (DEDUCED, log 78). -/
def mgmtFits (h : Hdr) : Bool :=
  let n := h.len.toNat
  match h.op.toNat with
  | 0x80 => !h.vn && n == 64
  | 0x81 => h.vn && n == 32
  | 0x82 => !h.vn && decide (8 ≤ n) && n % 8 == 0
  | 0x83 => !h.vn && n == 0
  | 0x84 => h.vn
  | _ => false

/-- A management strand for this device is handled by its OP (R441). Fabric time takes its own through
TIME_ANNOUNCEMENT (DEDUCED, log 78). -/
def mgmtIn (st : Strand) (d : Dev) : Dev :=
  let d := unland st d
  let h := st.hdr
  let o := h.op.toNat
  if h.kind ≠ 9 ∨ (0xA0 ≤ o ∧ o < 0xA8) then d
  else if strandBad st then countMalformed d
  else if h.trim = true ∧ h.len ≠ 0 then mgmtDrop d
  else if o < 0x80 then rxDeliver st d
  else if !mgmtFits h then mgmtDrop d
  else if o = 0x81 ∨ o = 0x84 then rxDeliver st d
  else if fld d (MGF + 0x020) 8 1 = 1 ∧ fld d (MGF + 0x024) 0 17 = h.srcDa.toNat then remoteGo st d
  else raise (srcWin 16 4) (mgmtDrop d)

end Sys2Proof.Machine
end

