-- ==== Sys2Proof/Machine/AdmSys.lean ====
section
/-! DEFINITION. The admin commands of identity (R440), power (R509), reset, life cycle and firmware (R489), faults and
counters (R534), and the table of every command. -/

namespace Sys2Proof.Machine

/-! ### Identity (R440) -/

/-- IDENTIFY. -/
def identifyDo (_ : AdminJob) (d : Dev) : Ans × Dev :=
  let name : Bytes := [0x45, 0x56, 0x2D, 0x4F, 0x53, 0x4E, 0x31, 0x32, 0x38]
  result (padTo 32 (packVals [(8, d.nv.serial), (4, d.rtr.da + b2n d.rtr.daValid * 2 ^ 31), (1, 0), (1, fld d (GLB + 0x020) 0 8), (1, curMode d),
    (1, d.xp.incarnation), (4, d.boot.versions.getD 0 0), (4, d.boot.versions.getD 1 0), (1, fld d (GLB + 0x028) 3 1), (1, d.nv.lc)])
    ++ padTo 32 name) d

def identifyCmd : AdmCmd := { op := 0x0101, recLen := 64, vf := true, run := identifyDo }

/-- CAPS_QUERY: the capacities of R14; engines in service are those of clusters in ACTIVE, spare engines those of
clusters in SPARE (R450). -/
def capsQueryDo (_ : AdminJob) (d : Dev) : Ans × Dev :=
  let hosts := ((List.range 8).filter (fun h => !absentPort d h)).length
  let active := if enabled d EMBER then ((List.range 72).filter (isActive d)).length * 8 else 0
  result (([128, hosts, 1048576, 65536, 131072, 16384, 262144, 65536, 131072, 4096, 1024, 262144, 64, 4096, active, (spares d).length * 8, 1024] :
    List Nat).flatMap (toLe 4)) d

def capsQueryCmd : AdmCmd := { op := 0x0102, recLen := 68, vf := true, run := capsQueryDo }

/-- ECHO. -/
def echoDo (j : AdminJob) (d : Dev) : Ans × Dev := result (toLe 8 (j.p 0) ++ toLe 8 (j.p 1)) d

def echoCmd : AdmCmd := { op := 0x0103, vf := true, run := echoDo }

/-- ADMIN_STATS: commands replied, of these not SUCCESS, and those in progress, this one among them (DEDUCED, log 80). -/
def adminStatsDo (j : AdminJob) (d : Dev) : Ans × Dev :=
  let s := (aget d.adm.stats j.ctx.path).getD (0, 0)
  let n := (d.adm.running.filter (fun x => decide (x.ctx.path = j.ctx.path))).length
  result (toLe 8 s.1 ++ toLe 4 s.2 ++ toLe 1 n ++ zeros 3) d

def adminStatsCmd : AdmCmd := { op := 0x0104, vf := true, run := adminStatsDo }

def identityCmds : List AdmCmd := [ identifyCmd, capsQueryCmd, echoCmd, adminStatsCmd ]

/-! ### Power (R509) -/

/-- PWR_QUERY: of each rail mV, mA, °C and STATUS_WORD as last polled (the word's bits are left open), then PWR.STATE,
PWR.VCORE and the counters. -/
def pwrQueryDo (_ : AdminJob) (d : Dev) : Ans × Dev :=
  let (n, d) := fresh d
  let rail (r : Rail × Nat) : List (Nat × Nat) := [(4, r.1.mv), (4, r.1.ma), (4, (r.1.celsius % 2 ^ 32).toNat), (2, bitsOf n (16 * r.2) 16)]
  result (packVals (d.pwr.rails.zipIdx.flatMap rail ++ [(4, wordValue d (PWR + 0x030)), (4, wordValue d (PWR + 0x034))]
    ++ (List.range 4).map (fun k => (8, (reg d (PWR + 0x100 + 8 * k)).toNat)))) d

def pwrQueryCmd : AdmCmd := { op := 0x0D01, recLen := 136, run := pwrQueryDo }

/-- PWR_LIMIT_SET. -/
def pwrLimitSetDo (j : AdminJob) (d : Dev) : Ans × Dev :=
  persisting (j.p 3) 0x800 (fun _ => j.params.take 3)
    [(decide (j.p 0 < 10) || decide (40 < j.p 0) || decide (j.p 1 < 20) || decide (60 < j.p 1) || decide (2 < j.p 2) || notFlag (j.p 3), 2)]
    (restorePwr 0x800 (j.params.take 3)) d

def pwrLimitSetCmd : AdmCmd := { op := 0x0D02, objs := fun _ => [(12, 0x10)], run := pwrLimitSetDo }

/-- PWR_THERMAL_SET. -/
def pwrThermalSetDo (j : AdminJob) (d : Dev) : Ans × Dev :=
  persisting (j.p 3) 0x801 (fun _ => j.params.take 3)
    [(decide (j.p 1 < j.p 0) || decide (j.p 2 ≤ j.p 1) || decide (105 < j.p 2) || notFlag (j.p 3), 2)]
    (restorePwr 0x801 (j.params.take 3)) d

def pwrThermalSetCmd : AdmCmd := { op := 0x0D03, objs := fun _ => [(12, 0x11)], run := pwrThermalSetDo }

/-- PWR_RAIL_MAP. -/
def pwrRailMapDo (j : AdminJob) (d : Dev) : Ans × Dev :=
  let r := j.p 0
  let a := noneOf 1 (j.p 1)
  let vals := if a.isSome then [j.p 1, j.p 2] else []
  let taken := a.isSome && d.pwr.rails.zipIdx.any (fun x => x.2 != r && x.1.addr == some (j.p 1, j.p 2))
  persisting (j.p 3) (0x810 + r) (fun _ => vals)
    [(decide (5 < r) || notFlag (j.p 3), 2), ((a.any (fun x => decide (0x7F < x))) || taken, 2)] (restorePwr (0x810 + r) vals) d

def pwrRailMapCmd : AdmCmd := { op := 0x0D04, objs := fun _ => [(12, 0x12)], run := pwrRailMapDo }

/-- PWR_PREWARN_FORCE (R500): in BRINGUP and DIAG. -/
def pwrPrewarnForceDo (j : AdminJob) (d : Dev) : Ans × Dev :=
  checked [(decide (15 < j.p 0) || j.p 1 == 0 || decide (1000 < j.p 1), 2)] (fun d => success (prewarnForce (j.p 0) d)) d

def pwrPrewarnForceCmd : AdmCmd :=
  { op := 0x0D05, mode := fun d => if curMode d = 0 ∨ curMode d = 3 then some (5, 0) else none, objs := fun _ => [(12, 0x13)]
    run := pwrPrewarnForceDo }

/-- PWR_SENSOR_READ (DEDUCED, log 80). -/
def pwrSensorReadDo (_ : AdminJob) (d : Dev) : Ans × Dev := result (d.pwr.temps.map (fun t => BitVec.ofInt 8 t)) d

def pwrSensorReadCmd : AdmCmd := { op := 0x0D06, recLen := 96, run := pwrSensorReadDo }

def pwrCmds : List AdmCmd := [ pwrQueryCmd, pwrLimitSetCmd, pwrThermalSetCmd, pwrRailMapCmd, pwrPrewarnForceCmd, pwrSensorReadCmd ]

/-! ### Resets and modes (R463 to R465, R475, R476, R489) -/

/-- DEVICE_RESET (R465). -/
def deviceResetDo (_ : AdminJob) (d : Dev) : Ans × Dev := success (updBoot (fun b => { b with due := some 3 }) d)

def deviceResetCmd : AdmCmd := { op := 0x0E01, run := deviceResetDo }

/-- Registers, counters, WRAP flags and chains in a part of the window go to their reset values (DEDUCED, log 71). -/
def pageReset (lo len : Nat) (d : Dev) : Dev :=
  let out (a : Nat) : Bool := decide (a < lo) || decide (lo + len ≤ a)
  { d with regs := d.regs.filter (fun r => out r.1), wraps := d.wraps.filter out, chains := d.chains.filter out }

/-- PORT_RESET (R464): the role stays, and what the cage's pins say. -/
def portResetGo (n : Nat) (d : Dev) : Dev :=
  let d := portDown (portNo n) 6 d
  let p := port d n
  let l := p.lane
  let new : Port :=
    { portReset n with
      role := p.role, roleNext := p.roleNext, pt := p.pt
      lane := { cageIn := l.cageIn, present := l.present, fault := l.fault, button := l.button, faultLock := l.faultLock, isbOk := l.isbOk
                clkOk := l.clkOk, svcSync := l.svcSync, fclk := l.fclk, hold := if l.hold = .dieLink then .dieLink else .none } }
  let d := pageReset (LANE n) 0x4000 { d with ports := mset d.ports n new }
  if p.role = 2 ∨ d.nv.lc = 5 then d
  else bringup n (enableWith (LINK n) (checkLink d n) (enableWith (LANE n) (checkLane d n) d))

def portResetCmdDo (j : AdminJob) (d : Dev) : Ans × Dev :=
  checked [(decide (127 < j.p 0), 2)] (fun d => success (portResetGo (j.p 0) d)) d

def portResetCmd : AdmCmd := { op := 0x0E02, objs := targetObj, run := portResetCmdDo }

/-- May a block be reset (R463): only CONG, DMA, MGF, TALLY and XLAT, disabled and without objects. -/
def blockResettable (d : Dev) (blk k : Nat) : Bool :=
  match blk with
  | 0x16 => k == 0 && !enabled d CONG
  | 0x17 => k == 0 && !enabled d DMA && d.dma.chs.isEmpty
  | 0x1A => k == 0 && !enabled d MGF
  | 0x06 => k == 0 && !enabled d TALLY
  | 0x10 => decide (k < 4) && !enabled d (XLAT k) && !d.xl.slots.any (fun s => decide (s.2.f.hp.val / 2 = k))
  | _ => false

/-- A Braid's rate state at its start (R250, R251). -/
def rateReset (s : SendHalf) : SendHalf :=
  { next := s.next, unacked := s.unacked, queue := s.queue, srtt := s.srtt }

/-- The volatile state of a block goes (R463). -/
def blockReset (blk k : Nat) (d : Dev) : Dev :=
  match blk with
  | 0x16 =>
    let d := updXp (fun x => { x with peers := mmap x.peers (fun _ p => { p with req := rateReset p.req, rsp := rateReset p.rsp }) }) d
    pageReset CONG 0x1000 d
  | 0x17 => pageReset DMA 0x1000 { d with dma := {} }
  | 0x1A =>
    let ms := d.mgf.stalled
    ms.foldl (fun d m => rxEmptyEnd m d) (pageReset MGF 0x1000 { d with mgf := {} })
  | 0x06 =>
    let d := match d.tally.stop with | some c => push (.reply c 0x0F21 0 0 []) d | none => d
    pageReset TALLY 0x1000 { d with tally := {} }
  | _ => pageReset (XLAT k) 0x1000 (updXl (fun x => { x with inst := mdel x.inst k }) d)

/-- BLOCK_RESET (R463) (DEDUCED, log 71). -/
def blockResetDo (j : AdminJob) (d : Dev) : Ans × Dev :=
  checked [(!blockResettable d (j.p 0) (j.p 1), 5)] (fun d => success (blockReset (j.p 0) (j.p 1) d)) d

def blockResetCmd : AdmCmd := { op := 0x0E03, run := blockResetDo }

/-- The changes of mode that R19 permits. -/
def modeStep (a b : Nat) : Bool := b == 3 || (a == 1 && (b == 0 || b == 2)) || (a == 0 && b == 2) || (a == 2 && b == 0)

/-- Does the life-cycle state permit a mode (R477). -/
def lcMode (lc m : Nat) : Bool := if lc = 4 ∨ lc = 5 then m == 3 else if lc = 3 then m != 0 else true

/-- On entry to RECOVERY every endpoint in READY or ACTIVE is disabled (R476). -/
def recoveryEntry (d : Dev) : Dev :=
  { d with ept := { d.ept with eps := mmap d.ept.eps (fun _ x =>
      if x.state = .ready ∨ x.state = .active then { x with state := .draining, bellPend := false } else x) } }

/-- SET_MODE (R19, R20, R475, R477). -/
def setModeDo (j : AdminJob) (d : Dev) : Ans × Dev :=
  let m := j.p 0
  if 3 < m then refusal 2 d
  else if !modeStep (curMode d) m || !lcMode d.nv.lc m then refusal 5 d
  else if m = 0 ∧ d.coll.armed ≠ [] then inconsistent 0x0110 (setFld (GLB + 0x010) 16 16 0x0110 d)
  else
    let d := if m = 3 then recoveryEntry d else d
    success (setFld (GLB + 0x010) 0 2 m d)

def setModeCmd : AdmCmd := { op := 0x0E10, objs := fun _ => [(12, 4)], run := setModeDo }

/-- A write of a record of IDENTITY; of the boot mode in CONFIG. -/
def identityWrite (g : Nv → Nv) (d : Dev) : Dev := recordWear 0 16 (updNv g d)

/-- BOOT_MODE_SET (R475). -/
def bootModeSetDo (j : AdminJob) (d : Dev) : Ans × Dev :=
  checked [(decide (2 < j.p 0), 2)] (fun d => success (recordWear 0x30 80 (updNv (fun n => { n with bootMode := j.p 0 }) d))) d

def bootModeSetCmd : AdmCmd := { op := 0x0E11, objs := fun _ => [(12, 5)], run := bootModeSetDo }

/-! ### Life cycle (R477 to R479) -/

/-- LC_QUERY. -/
def lcQueryDo (_ : AdminJob) (d : Dev) : Ans × Dev :=
  result (packVals [(1, d.nv.lc), (1, b2n d.nv.wipe), (8, d.nv.serial), (4, d.nv.minSecurity)]) d

def lcQueryCmd : AdmCmd := { op := 0x0E20, recLen := 20, run := lcQueryDo }

/-- The transitions of R478. -/
def lcStep (a b : Nat) (written mailbox : Bool) : Bool :=
  b == 5 || (a == 0 && b == 1 && written) || (a == 1 && b == 2) || (a == 2 && b == 3) || (a == 3 && b == 2)
    || ((a == 1 || a == 2 || a == 3) && b == 4) || (a == 4 && b == 1 && mailbox)

/-- LC_CHANGE (R478, R479). -/
def lcChangeDo (j : AdminJob) (d : Dev) : Ans × Dev :=
  let s := j.p 0
  checked [(decide (5 < s), 2), (!lcStep d.nv.lc s d.nv.written (decide (j.ctx.path = .mailbox)), 5)]
    (fun d => success (updBoot (fun b => { b with due := some 5 }) (identityWrite (fun n => { n with lc := s, wipe := true }) d))) d

def lcChangeCmd : AdmCmd := { op := 0x0E21, objs := fun _ => [(12, 6)], run := lcChangeDo }

/-- The end of IDENTITY_WRITE's read. -/
def identityWriteEnd (j : AdminJob) (data : Option Bytes) (d : Dev) : Ans × Dev :=
  match data with
  | none => refusal 2 d
  | some b => success (identityWrite (fun n => { n with serial := j.p 0, keyHash := b, written := true }) d)

/-- IDENTITY_WRITE (R477). -/
def identityWriteDo (j : AdminJob) (d : Dev) : Ans × Dev :=
  if d.nv.lc ≠ 0 then refusal 5 d else adminRead j (j.p 1) 48 identityWriteEnd 0 d

def identityWriteCmd : AdmCmd := { op := 0x0E22, objs := fun _ => [(12, 7)], run := identityWriteDo }

/-- The end of CALIBRATION_WRITE's read. -/
def calibrationWriteEnd (j : AdminJob) (data : Option Bytes) (d : Dev) : Ans × Dev :=
  match data with
  | none => refusal 2 d
  | some b => success (peatWrite (0x010000 + j.p 0) b d)

/-- CALIBRATION_WRITE (R477): the offset is from the region's start. -/
def calibrationWriteDo (j : AdminJob) (d : Dev) : Ans × Dev :=
  if d.nv.lc ≠ 0 ∧ d.nv.lc ≠ 3 then refusal 5 d
  else if 0x10000 < j.p 0 + j.p 2 then refusal 2 d
  else adminRead j (j.p 1) (j.p 2) calibrationWriteEnd 0 d

def calibrationWriteCmd : AdmCmd := { op := 0x0E23, objs := fun _ => [(12, 8)], run := calibrationWriteDo }

/-! ### The Peat store (R480, R483, R486) -/

/-- PEAT_QUERY: the offset and size of each region, then the count of each page (DESIGN CHOICE, log 27). -/
def peatQueryDo (_ : AdminJob) (d : Dev) : Ans × Dev :=
  result (peatRegions.flatMap (fun r => toLe 4 r.1 ++ toLe 4 r.2) ++ cellsRead d.nv.peat peatWear 16384) d

def peatQueryCmd : AdmCmd := { op := 0x0E30, recLen := 16448, run := peatQueryDo }

/-- JOURNAL_READ (R485, R486): an entry has the pages that were written (DEDUCED, log 80). -/
def journalReadDo (j : AdminJob) (d : Dev) : Ans × Dev :=
  match d.nv.journal[j.p 0]? with
  | none => refusal 2 d
  | some (_, first, n) =>
    checked [(decide (n ≤ j.p 1), 2)] (fun d => result (cellsRead d.nv.peat (peatJournal + 4096 * ((first + j.p 1) % 512)) 4096) d) d

def journalReadCmd : AdmCmd := { op := 0x0E31, recLen := 4096, run := journalReadDo }

/-- A range that is not in words of the store: misaligned, or of a length that PEAT_READ and PEAT_WRITE do not take. -/
def peatBad (off len : Nat) : Bool := off % 8 != 0 || len % 8 != 0 || len == 0 || decide (4096 < len)

/-- A result of `len` bytes does not fit where REPLY_DATA says (R429) (DEDUCED, log 26). -/
def recordOut (m : AdmCmd) (j : AdminJob) (len : Nat) (d : Dev) : Bool :=
  decide (16 < len) && recordBad { m with recLen := len } j.ctx d

/-- PEAT_READ (R480). -/
def peatReadDo (j : AdminJob) (d : Dev) : Ans × Dev :=
  checked [(peatBad (j.p 0) (j.p 1) || decide (peatSize < j.p 0 + j.p 1) || recordOut { op := 0x0E32, run := fun _ d => success d } j (j.p 1) d, 2)]
    (fun d => let (b, d) := peatRead (j.p 0) (j.p 1) d; result b d) d

def peatReadCmd : AdmCmd := { op := 0x0E32, run := peatReadDo }

/-- The end of PEAT_WRITE's read. -/
def peatWriteEnd (j : AdminJob) (data : Option Bytes) (d : Dev) : Ans × Dev :=
  match data with
  | none => refusal 2 d
  | some b => success (peatWrite (j.p 0) b d)

/-- PEAT_WRITE (R480). -/
def peatWriteDo (j : AdminJob) (d : Dev) : Ans × Dev :=
  if peatBad (j.p 0) (j.p 2) || !peatUser (j.p 0) (j.p 2) then refusal 2 d
  else if d.nv.lc = 5 then refusal 5 d
  else adminRead j (j.p 1) (j.p 2) peatWriteEnd 0 d

def peatWriteCmd : AdmCmd := { op := 0x0E33, run := peatWriteDo }

/-! ### Firmware (R471 to R473) -/

/-- Is a slot running. -/
def slotRuns (d : Dev) (s : Nat) : Bool := d.boot.image && fld d (GLB + 0x028) 3 1 == s

/-- The end of FW_WRITE's read. -/
def fwWriteEnd (j : AdminJob) (data : Option Bytes) (d : Dev) : Ans × Dev :=
  match data with
  | none => refusal 2 d
  | some b =>
    success (updBoot (fun x => { x with verified := mdel x.verified (2 + j.p 0) })
      (updNv (fun n => { n with flash := cellsWrite n.flash (j.p 1) b }) d))

/-- FW_WRITE (R473): the flash offset lies in the slot (DEDUCED, log 80). -/
def fwWriteDo (j : AdminJob) (d : Dev) : Ans × Dev :=
  let s := j.p 0
  if 1 < s ∨ 4096 < j.p 3 ∨ j.p 1 < slotBase s ∨ slotBase (s + 1) < j.p 1 + j.p 3 then refusal 2 d
  else if slotRuns d s || d.nv.lc == 5 then refusal 5 d
  else adminRead j (j.p 2) (j.p 3) fwWriteEnd 0 d

def fwWriteCmd : AdmCmd := { op := 0x0E40, objs := fun ps => [(12, 0x200 + ps.getD 0 0)], run := fwWriteDo }

/-- FW_VERIFY (R471, R473). -/
def fwVerifyDo (j : AdminJob) (d : Dev) : Ans × Dev :=
  checked [(decide (1 < j.p 0), 2)]
    (fun d =>
      let (c, d) := slotVerify (j.p 0) d
      let v := slotVersions d (j.p 0)
      result (packVals ((1, c) :: v.map (fun x => (4, x)))) (updBoot (fun b => { b with verified := mset b.verified (2 + j.p 0) (c, v) }) d)) d

def fwVerifyCmd : AdmCmd := { op := 0x0E41, objs := fun ps => [(12, 0x200 + ps.getD 0 0)], run := fwVerifyDo }

/-- FW_ACTIVATE (R473). -/
def fwActivateDo (j : AdminJob) (d : Dev) : Ans × Dev :=
  let ok := ((mget d.boot.verified (2 + j.p 0)).map (·.1)) == some 0
  checked [(decide (1 < j.p 0), 2), (!ok || d.nv.lc == 5, 5)]
    (fun d => success (identityWrite (fun n => { n with preferred := j.p 0 == 1, trial := 1 }) d)) d

def fwActivateCmd : AdmCmd := { op := 0x0E42, objs := fun ps => [(12, 0x200 + ps.getD 0 0)], run := fwActivateDo }

/-- FW_COMMIT (R472). -/
def fwCommitDo (_ : AdminJob) (d : Dev) : Ans × Dev :=
  checked [(d.nv.trial == 0 || d.nv.lc == 5, 5)]
    (fun d => success (identityWrite (fun n => { n with trial := 0, minSecurity := max n.minSecurity (d.boot.versions.getD 2 0) }) d)) d

def fwCommitCmd : AdmCmd := { op := 0x0E43, objs := fun _ => [(12, 0x202)], run := fwCommitDo }

/-- FW_QUERY. -/
def fwQueryDo (_ : AdminJob) (d : Dev) : Ans × Dev :=
  let v (s : Nat) : List (Nat × Nat) := ((mget d.boot.verified s).elim [0, 0, 0] (·.2)).map (fun x => (4, x))
  result (packVals ([(4, (reg d (GLB + 0x028)).toNat), (1, b2n d.nv.preferred), (1, d.nv.trial)] ++ v 0 ++ v 1)) d

def fwQueryCmd : AdmCmd := { op := 0x0E44, recLen := 32, run := fwQueryDo }

/-- PERSONALITY_SET (R474): stepping A0 presents personality 0 only. -/
def personalitySetDo (j : AdminJob) (d : Dev) : Ans × Dev :=
  checked [(j.p 0 != 0, 2), (d.nv.lc == 5, 5)]
    (fun d => success (setFld (GLB + 0x020) 8 8 (j.p 0) (identityWrite (fun n => { n with personality := j.p 0 }) d))) d

def personalitySetCmd : AdmCmd := { op := 0x0E50, objs := fun _ => [(12, 9)], run := personalitySetDo }

def resetCmds : List AdmCmd :=
  [ deviceResetCmd, portResetCmd, blockResetCmd, setModeCmd, bootModeSetCmd, lcQueryCmd, lcChangeCmd, identityWriteCmd, calibrationWriteCmd,
    peatQueryCmd, journalReadCmd, peatReadCmd, peatWriteCmd, fwWriteCmd, fwVerifyCmd, fwActivateCmd, fwCommitCmd, fwQueryCmd, personalitySetCmd ]

/-! ### Faults and counters (R534) -/

/-- FLT_QUERY: SEQ is 0 where the record is no longer held. -/
def fltQueryDo (j : AdminJob) (d : Dev) : Ans × Dev :=
  let s := j.p 0
  checked [(decide (1023 < s), 2)]
    (fun d =>
      let n := (mget d.nv.newest s).getD 0
      result (packVals [(1, b2n (stickyOf d s)), (1, sevOf d s), (1, sevFloor s), (1, routeOf d (srcGroup s)), (4, if (logAt? d n).isSome then n else 0)]) d) d

def fltQueryCmd : AdmCmd := { op := 0x0F01, run := fltQueryDo }

/-- FLT_SEVERITY_SET (R516) (DEDUCED, log 84). -/
def fltSeveritySetDo (j : AdminJob) (d : Dev) : Ans × Dev :=
  let ss := (List.range (j.p 1)).map (fun i => j.p 0 + i)
  checked
    [(j.p 1 == 0 || decide (1024 < j.p 0 + j.p 1) || decide (4 < j.p 2) || notFlag (j.p 3), 2),
     (ss.any (fun s => srcReserved s || decide (j.p 2 < sevFloor s)), 2), (j.p 3 == 1 && ss.any (fun s => recordBusy d (0x1000 + s)), 4)]
    (fun d =>
      success (ss.foldl (fun d s =>
        let d := { d with flt := { d.flt with sev := mset d.flt.sev s (j.p 2) } }
        if j.p 3 = 1 then recordPut (0x1000 + s) [j.p 2] d else d) d)) d

def fltSeveritySetCmd : AdmCmd := { op := 0x0F02, objs := fun _ => [(12, 0x14)], run := fltSeveritySetDo }

/-- FLT_ROUTE_SET (R517). -/
def fltRouteSetDo (j : AdminJob) (d : Dev) : Ans × Dev :=
  persisting (j.p 2) (0x2000 + j.p 0) (fun _ => [j.p 1]) [(decide (159 < j.p 0) || notFlag (j.p 2), 2)]
    (fun d => { d with flt := { d.flt with route := mset d.flt.route (j.p 0) (j.p 1) } }) d

def fltRouteSetCmd : AdmCmd := { op := 0x0F03, objs := fun _ => [(12, 0x15)], run := fltRouteSetDo }

/-- FAULT_LOG_READ: the records from a SEQ on, or the newest ones, in ascending SEQ (DEDUCED, log 80). -/
def faultLogReadDo (j : AdminJob) (d : Dev) : Ans × Dev :=
  let n := j.p 1
  let oldest := max 1 (d.nv.logSeq + 1 - 16384)
  let first := match noneOf 4 (j.p 0) with
    | none => max oldest (d.nv.logSeq + 1 - n)
    | some s => max oldest s
  let rs := (List.range n).filterMap (fun i => logAt? d (first + i))
  checked [(n == 0 || decide (64 < n) || rs.isEmpty || recordOut { op := 0x0F10, run := fun _ d => success d } j (56 * rs.length) d, 2)]
    (fun d => result rs.flatten d) d

def faultLogReadCmd : AdmCmd := { op := 0x0F10, run := faultLogReadDo }

/-- TALLY_START (R527 to R530) (DEDUCED, log 80). -/
def tallyStartDo (j : AdminJob) (d : Dev) : Ans × Dev :=
  let h := j.p 0
  let pm := j.p 5 + j.p 6 * 2 ^ 64
  let size := tallySize (j.p 4) pm (j.p 7)
  let len := 2 ^ j.p 2 * ((size + 4095) / 4096 * 4096)
  if decide (7 < h) || j.p 2 == 0 || decide (8 < j.p 2) || j.p 3 == 0 || decide (1000000 < j.p 3) then refusal 2 d
  else if fld d (TALLY + 0x020) 0 1 = 1 then refusal 4 d
  else if absentPort d h || j.p 1 % 4096 != 0 || hitsBar d h (j.p 1) len || decide (2 ^ 12 ≤ j.p 4) || size == 72 then refusal 2 d
  else if j.p 3 * 8192 < size then inconsistent 0x0610 d
  else if 1048576 < size then inconsistent 0x0611 d
  else
    let d := setFld (TALLY + 0x020) 8 4 (j.p 2) (setFld (TALLY + 0x020) 1 3 h (setFld (TALLY + 0x020) 0 1 1 d))
    let d := setFld (TALLY + 0x02C) 0 32 0 (setFld (TALLY + 0x028) 0 32 0 (setFld (TALLY + 0x024) 0 20 (j.p 3) d))
    success { d with tally :=
      { f := mkFunc h 0, ring := j.p 1, m := j.p 2, period := j.p 3, groups := j.p 4, pmask := pm, hmask := j.p 7 } }

def tallyStartCmd : AdmCmd :=
  { op := 0x0F20, objs := fun _ => [(12, 0x16)], run := tallyStartDo }

/-- TALLY_STOP: it replies once the snapshot being written is complete. -/
def tallyStopDo (j : AdminJob) (d : Dev) : Ans × Dev :=
  let d := tallyDone d
  if fld d (TALLY + 0x020) 0 1 = 0 then refusal 5 d
  else if d.tally.busyTo = 0 then success (setFld (TALLY + 0x020) 0 1 0 d)
  else (.later, updTally (fun t => { t with stop := some j.ctx }) d)

def tallyStopCmd : AdmCmd := { op := 0x0F21, objs := fun _ => [(12, 0x16)], run := tallyStopDo }

/-- The performance counter at an offset: its register. -/
def perfAt (a : Nat) : Option RegAt :=
  ((place a).bind (fun pl => findReg pl pl.off)).bind (fun r => if r.desc.perf ∧ r.base = a then some r else none)

/-- COUNTER_CHAIN (R524). -/
def counterChainDo (j : AdminJob) (d : Dev) : Ans × Dev :=
  let a := j.p 0
  let ok := (perfAt a).any (fun r => decide (r.idx % 2 = 0) && decide (r.idx + 1 < r.desc.n))
  checked [(!ok || notFlag (j.p 1), 2)]
    (fun d =>
      let d := setReg (a + 8) 0 (setReg a 0 d)
      let cs := d.chains.filter (· != a)
      success { d with wraps := d.wraps.filter (fun w => w != a && w != a + 8), chains := if j.p 1 = 1 then cs ++ [a] else cs }) d

def counterChainCmd : AdmCmd := { op := 0x0F30, run := counterChainDo }

/-- Is a register a counter (R523): a performance counter, or a link error counter of LANE or LINK. -/
def isCounter (a : Nat) : Bool :=
  match (place a).bind (fun pl => findReg pl pl.off) with
  | none => false
  | some r => r.desc.perf || ((r.pl.block.id == 0x20 || r.pl.block.id == 0x21) && r.desc.off == 0x080)

/-- COUNTER_CLEAR (R525). -/
def counterClearDo (j : AdminJob) (d : Dev) : Ans × Dev :=
  match blocks.find? (fun b => decide (b.id = j.p 0) && decide (b.id < 0xF0)) with
  | none => refusal 2 d
  | some b =>
    if b.inst ≤ j.p 1 then refusal 2 d
    else
      let lo := b.base + j.p 1 * b.stride
      let mine (a : Nat) : Bool := decide (lo ≤ a) && decide (a < lo + 0x1000 * b.pages)
      success { d with regs := d.regs.filter (fun r => !(mine r.1 && isCounter r.1)), wraps := d.wraps.filter (fun w => !mine w) }

def counterClearCmd : AdmCmd := { op := 0x0F31, run := counterClearDo }

/-- COUNTER_WRAP_CLEAR (R523). -/
def counterWrapClearDo (j : AdminJob) (d : Dev) : Ans × Dev :=
  match noneOf 4 (j.p 0) with
  | none => success { d with wraps := [] }
  | some a => checked [((perfAt a).isNone, 2)] (fun d => success { d with wraps := d.wraps.filter (· != a) }) d

def counterWrapClearCmd : AdmCmd := { op := 0x0F32, run := counterWrapClearDo }

def fltCmds : List AdmCmd :=
  [ fltQueryCmd, fltSeveritySetCmd, fltRouteSetCmd, faultLogReadCmd, tallyStartCmd, tallyStopCmd, counterChainCmd, counterClearCmd,
    counterWrapClearCmd ]

/-! ### The table -/

/-- Every admin command (DEDUCED, log 30). -/
def adminCmds : List AdmCmd :=
  identityCmds ++ epCmds ++ xlatCmds ++ claspCmds ++ matchCmds ++ collCmds ++ schedCmds ++ routeCmds ++ laneCmds ++ timeCmds ++ hostCmds
    ++ dmaCmds ++ pwrCmds ++ resetCmds ++ fltCmds

end Sys2Proof.Machine
end

