-- ==== Sys2Proof/Machine/Csr.lean ====
section
/-! DEFINITION. Accesses to the CSR window, the doorbell window and the mailbox, by hosts and by the maintenance port (R57, R58,
R366, R374, R376 to R384, R389, R419 to R425, R435 to R439, R467, R520, R535, R536). -/

namespace Sys2Proof.Machine

/-! ### What a word of the window is -/

/-- The function whose tables and rings an access reaches: the reading function; for the maintenance port the PF view
is that of HOST[0]. -/
def viewFn (m : Master) : Func := match m with | .host f => f | .maint => pf 0

/-- Entries of the MSI-X table of a function (R382). -/
def tableSize (d : Dev) (f : Func) : Nat := if f.fn = 0 then (host d f.hp).pfVec else (host d f.hp).vfVec

/-- An entry of the Rammas Description Table (R381). -/
def rdtEntry (id base inst pages stride : Nat) : Bytes :=
  toLe 1 id ++ toLe 1 1 ++ zeros 2 ++ toLe 4 base ++ toLe 2 inst ++ toLe 2 pages ++ toLe 4 stride

/-- The Rammas Description Table that a function reads (R381, R535, R536). -/
def rdt (f : Func) : Bytes :=
  let es : List Bytes :=
    if f.fn = 0 then blocks.map (fun b => rdtEntry b.id b.base b.inst b.pages b.stride)
    else [rdtEntry 0xF2 0 1 1 0, rdtEntry 0x08 (HOSTB f.hp) 1 1 0, rdtEntry 0xF0 0x100000 1 8 0, rdtEntry 0xF1 0x108000 1 1 0]
  let b := es.flatten
  toLe 4 0x30544452 ++ toLe 2 1 ++ toLe 2 es.length ++ toLe 2 16 ++ toLe 1 0 ++ toLe 1 (if f.fn = 0 then 0 else 1)
    ++ toLe 4 (32 + b.length) ++ toLe 4 (crc32 b).toNat ++ zeros 12 ++ b

/-- What a 4-byte word of the window holds: the description table, a word of an MSI-X entry, of the pending bits, or half
of a register, perhaps through an alias. -/
inductive CsrWord where
  | rom (v : Nat)
  | msix (v w : Nat)
  | pba (i : Nat)
  | reg (r : RegAt) (high : Bool) (al : AliasKind)
deriving DecidableEq, Repr, Inhabited

/-- Is an offset one that a VF sees (R378, R536). -/
def vfSees (f : Func) (off : Nat) : Bool :=
  let o := off - HOSTB f.hp
  decide (off < 0x1000) || (decide (0x100000 ≤ off) && decide (off < 0x109000))
    || (decide (HOSTB f.hp ≤ off) && ((decide (0x100 ≤ o) && decide (o < 0x128)) || (decide (0x380 ≤ o) && decide (o < 0x384))))

/-- The word at an offset, if one is implemented there. -/
def wordAt (m : Master) (off : Nat) (d : Dev) : Option CsrWord :=
  let f := viewFn m
  if f.fn ≠ 0 ∧ vfSees f off = false then none
  else if off < 0x1000 then
    let t := rdt f
    if off + 4 ≤ t.length then some (.rom (leAt t off 4)) else none
  else if 0x100000 ≤ off ∧ off < 0x108000 then
    let v := (off - 0x100000) / 16
    if v < tableSize d f then some (.msix v ((off - 0x100000) % 16 / 4)) else none
  else if 0x108000 ≤ off ∧ off < 0x109000 then
    let i := (off - 0x108000) / 4
    if 32 * i < tableSize d f then some (.pba i) else none
  else
    match place off with
    | none => none
    | some pl =>
      let (al, o) := aliasOf pl.off
      match findReg pl o with
      | none => none
      | some r => if al ≠ .plain ∧ r.desc.aliased = false then none else some (.reg r (decide (r.desc.off + r.idx * r.desc.stride + 4 ≤ o)) al)

/-- The function whose admin ring a HOST page shows (R435, R536). -/
def ringFn (m : Master) (r : RegAt) : Func :=
  match m with
  | .host f => if f.fn = 0 then mkFunc r.pl.inst 0 else f
  | .maint => mkFunc r.pl.inst 0

/-! ### Improper accesses (R423) -/

/-- The outcome of an access: a value read, a write done, Unsupported Request, or an answer that goes out of itself. -/
inductive CsrAns where
  | value (v : Nat)
  | done
  | unsupported
  | later
deriving DecidableEq, Repr, Inhabited

/-- A request of a host is answered with Unsupported Request, a write is logged by AER (DEDUCED, log 77). -/
def hostUr (f : Func) (write : Bool) (d : Dev) : Dev :=
  raise (srcHost f.hp 5) (if write then emit (.aer f "Unsupported Request") d else d)

/-- HOST.ACCESS_LOG captures an improper access, if it is free. -/
def accessLog (f : Func) (write : Bool) (off : Nat) (d : Dev) : Dev :=
  let b := HOSTB f.hp
  if fld d (b + 0x044) 0 1 = 1 then setFld (b + 0x044) 1 1 1 d
  else setFld (b + 0x044) 0 1 1 (setReg (b + 0x040) (BitVec.ofNat 64 (off % 2 ^ 26 + b2n write * 2 ^ 26 + f.fn.val * 2 ^ 27)) d)

/-- An improper access (DEDUCED, log 76; DEDUCED, log 77). -/
def improper (m : Master) (write : Bool) (off : Nat) (d : Dev) : CsrAns × Dev :=
  (.unsupported, match m with
    | .host f => accessLog f write off (hostUr f write d)
    | .maint => raise (srcWin 0 0) d)

/-- Does a host port answer no memory request after its containment (R401): until the host-loss processing that contains
it is over, it still does. -/
def containedPort (x : HostPort) : Bool :=
  x.contained && match x.loss with
    | some l => l.cause != .contained
    | none => true

/-- Is every memory request of a host answered with Unsupported Request now: D3hot (R385), after a containment (R401), the
fatal path (R520). -/
def hostBarred (m : Master) (d : Dev) : Bool :=
  match m with
  | .host f => (fn d f).d3 || d.flt.fatal.isSome || absentPort d f.hp || containedPort (host d f.hp)
  | .maint => false

/-- Is an access of a width and alignment of R422. -/
def widthOk (off width : Nat) : Bool := (width == 32 && off % 4 == 0) || (width == 64 && off % 8 == 0)

/-! ### Latches of reads (R366, R444, R524) -/

/-- The latched values of a path: the upper half of TIME.NOW, NOW_AUX, the odd counter of a chain. -/
def latches (m : Master) (d : Dev) : Option Nat × Option Nat × Option (Nat × Nat) :=
  match m with
  | .host f => ((fn d f).nowHi, (fn d f).nowAux, (fn d f).chainHi)
  | .maint => (d.mnt.nowHi, d.mnt.nowAux, d.mnt.chainHi)

/-- Sets the latches of a path. -/
def setLatches (m : Master) (hi aux : Option Nat) (ch : Option (Nat × Nat)) (d : Dev) : Dev :=
  match m with
  | .host f => updFn f (fun x => { x with nowHi := hi, nowAux := aux, chainHi := ch }) d
  | .maint => updMnt (fun x => { x with nowHi := hi, nowAux := aux, chainHi := ch }) d

/-- RX_FLAGS of a path. -/
def rxFlagsOf (m : Master) (d : Dev) : Nat :=
  match m with
  | .host f => b2n (fn d f).rxEnd + 2 * b2n (fn d f).rxEmpty
  | .maint => b2n d.mnt.rxEnd + 2 * b2n d.mnt.rxEmpty

/-! ### Reads -/

/-- Counters whose growth is left open are brought up to date before they are read. -/
def refresh (r : RegAt) (d : Dev) : Dev :=
  if r.pl.block.id = 0x20 ∧ r.desc.off = 0x180 then prbsCount r.pl.inst d else countOpen r.base d

/-- Half of a 64-bit value. -/
def half (v : Nat) (high : Bool) : Nat := if high then v / 2 ^ 32 else v % 2 ^ 32

/-- A read of a word of 32 bits that is implemented. -/
def readWord (m : Master) (off : Nat) (w : CsrWord) (d : Dev) : CsrAns × Dev :=
  let f := viewFn m
  match w with
  | .rom v => (.value v, d)
  | .msix v i =>
    let e := (mget (fn d f).msix v).getD {}
    (.value (match i with | 0 => e.addr % 2 ^ 32 | 1 => e.addr / 2 ^ 32 % 2 ^ 32 | 2 => e.data | _ => b2n e.mask), d)
  | .pba i => (.value (fields ((List.range 32).map (fun k => (k, b2n ((mget (fn d f).msix (32 * i + k)).getD {}).pend)))), d)
  | .reg r high _ =>
    let b := r.base
    let d := refresh r d
    let v := shownValue (ringFn m r).fn d b
    let (hi, aux, ch) := latches m d
    if b = MGF + 0x040 then improper m false off d
    else if b = MGF + 0x048 then (.value (rxFlagsOf m d), d)
    else if b = RTR + 0x068 then (.value v, updRtr (fun x => { x with peak := 0 }) d)
    else if b = TIME + 0x040 then
      if high then (.value (hi.getD (half v true)), setLatches m none aux ch d)
      else (.value (half v false), setLatches m (some (half v true)) (some (shownValue 0 d (TIME + 0x048))) ch d)
    else if b = TIME + 0x048 then (.value (aux.getD v), setLatches m hi none ch d)
    else
      match ch with
      | some (a, x) => if a = b then (.value (half x high), setLatches m hi aux none d) else (.value (half v high), d)
      | none => (.value (half v high), d)

/-- A 64-bit read of a 64-bit register. -/
def readWide (m : Master) (r : RegAt) (d : Dev) : CsrAns × Dev :=
  let b := r.base
  if b = MGF + 0x040 then (.later, rxRead m d)
  else
    let d := refresh r d
    let v := shownValue 0 d b
    let (hi, aux, ch) := latches m d
    if d.chains.contains b then (.value v, setLatches m hi aux (some (b + 8, shownValue 0 d (b + 8))) d)
    else
      match ch with
      | some (a, x) => if a = b then (.value x, setLatches m hi aux none d) else (.value v, d)
      | none => (.value v, d)

/-- Two words read one after the other, the lower first (R422). -/
def readPair (m : Master) (off : Nat) (a b : CsrWord) (d : Dev) : CsrAns × Dev :=
  match readWord m off a d with
  | (.value x, d) =>
    match readWord m (off + 4) b d with
    | (.value y, d) => (.value (x + y * 2 ^ 32), d)
    | r => r
  | r => r

/-- A read of the CSR window. -/
def csrRead (m : Master) (off width : Nat) (d : Dev) : CsrAns × Dev :=
  if hostBarred m d then (.unsupported, match m with | .host f => hostUr f false d | .maint => d)
  else if !widthOk off width then improper m false off d
  else if width = 32 then
    match wordAt m off d with
    | some w => readWord m off w d
    | none => improper m false off d
  else
    match wordAt m off d, wordAt m (off + 4) d with
    | some (.reg r false .plain), some (.reg s true .plain) => if r.base = s.base then readWide m r d else readPair m off (.reg r false .plain) (.reg s true .plain) d
    | some a, some b => readPair m off a b d
    | _, _ => improper m false off d

/-! ### Enables (R424) -/

/-- The window of a block's sources. -/
def blockWindow (id : Nat) : Nat := if id < 7 then id - 1 else id - 0x10 + 6

/-- The source of a page's ignored writes (R425). -/
def pageSource (pl : Place) : Nat :=
  if pl.block.id = 0x08 then srcHost pl.inst 5 else if 0x20 ≤ pl.block.id then srcPort pl.inst 3 else srcWin (blockWindow pl.block.id) 0

/-- The consistency check of a page. -/
def checkPage (pl : Place) (d : Dev) : Option Nat :=
  match pl.block.id with
  | 0x03 => checkPwr d
  | 0x08 => checkHost d pl.inst
  | 0x10 => checkXlat d pl.inst
  | 0x11 => checkEpt d
  | 0x12 => checkMatch d
  | 0x13 => checkColl d
  | 0x14 => checkClasp d
  | 0x15 => checkXport d
  | 0x16 => checkCong d
  | 0x17 => checkDma d
  | 0x18 => checkRtr d
  | 0x19 => checkEmber d
  | 0x1A => checkMgf d
  | 0x20 => checkLane d pl.inst
  | 0x21 => checkLink d pl.inst
  | _ => none

/-- What follows when a block is enabled: ports that may come up do. -/
def enabledNow (pl : Place) (d : Dev) : Dev :=
  match pl.block.id with
  | 0x18 => bringupAll d
  | 0x20 => bringup pl.inst d
  | 0x21 => bringup pl.inst d
  | _ => d

/-- What follows when software disables a block, as its chapter states it. -/
def disabledNow (pl : Place) (d : Dev) : Dev :=
  match pl.block.id with
  | 0x04 => setTimeState .freeRun d
  | 0x08 => lossStart (hostNo pl.inst) .port .contained d
  | 0x13 => prewarnPut 0 d.pwr.forced d
  | 0x18 => (d.ports.map (·.1)).foldl (fun d n => leaveService (portNo n) 6 d) (updRtr (fun r => { r with autoEnable := false }) d)
  | 0x20 => portDown (portNo pl.inst) 6 d
  | 0x21 => portDown (portNo pl.inst) 6 d
  | _ => d

/-- A write of EN: FLT, PWR and EMBER ignore 0 and raise their register-access source (DEDUCED, log 23). -/
def enWrite (pl : Place) (on : Bool) (d : Dev) : Dev :=
  let base := pageAlias pl.pageBase
  if enabled d base = on then d
  else if on then
    let d := enableWith base (checkPage pl d) d
    if enabled d base then enabledNow pl d else d
  else if pl.block.id = 0x03 ∨ pl.block.id = 0x05 ∨ pl.block.id = 0x19 then raise (pageSource pl) d
  else disabledNow pl (setEn base false d)

/-! ### Writes -/

/-- The value of an RW field's bits after a write through an alias (R420). -/
def aliasApply (al : AliasKind) (old v : Nat) : Nat :=
  match al with
  | .plain => v
  | .set => old ||| v
  | .clear => old &&& (v ^^^ (2 ^ 64 - 1))
  | .toggle => old ^^^ v

/-- A register after a write of `v` to the bits of `mask`: RW and RWE bits take it, W1C bits written 1 are cleared (DEDUCED, log 77). -/
def writeBits (r : RegDesc) (al : AliasKind) (old mask v : Nat) (rwe : Bool) : Nat :=
  let m := (r.rw ||| (if rwe then r.rwe else 0)) &&& mask
  let new := aliasApply al old v
  let kept := old &&& (m ^^^ (2 ^ 64 - 1))
  let x := kept ||| (new &&& m)
  if al = .plain then x &&& ((v &&& r.w1c &&& mask) ^^^ (2 ^ 64 - 1)) else x

/-- A write to a register of the plain store (R425). -/
def plainWrite (r : RegAt) (al : AliasKind) (mask v : Nat) (d : Dev) : Dev :=
  let base := r.pl.pageBase
  let on := enabled d base
  let old := (reg d r.base).toNat
  let d := setReg r.base (BitVec.ofNat 64 (writeBits r.desc al old mask v (!on))) d
  if on && (r.desc.rwe &&& mask) != 0 then raise (pageSource r.pl) (setFld (base + 4) 1 1 1 d) else d

/-- A write of HOST.CQ_ARM (R84). -/
def cqArm (m : Master) (c : Nat) (d : Dev) : Dev :=
  match cq? d c with
  | some x => if m = .host x.f then updCq c (fun x => { x with armed := true }) d else { d with ept := { d.ept with armDrops := d.ept.armDrops + 1 } }
  | none => { d with ept := { d.ept with armDrops := d.ept.armDrops + 1 } }

/-- A write of a register of a HOST page that acts by itself: the admin ring registers and CQ_ARM (R84, R435). -/
def hostWriteReg (m : Master) (r : RegAt) (al : AliasKind) (mask v : Nat) (d : Dev) : Dev :=
  let f := ringFn m r
  let a := (fn d f).adm
  let bits (old : Nat) : Nat := writeBits r.desc al old mask v true
  let set (g : AdmRing → AdmRing) : Dev := updFn f (fun x => { x with adm := g x.adm }) d
  match r.desc.off with
  | 0x100 => set (fun a => { a with cmdBase := bits a.cmdBase })
  | 0x108 => set (fun a => { a with rspBase := bits a.rspBase })
  | 0x110 => set (fun a => { a with cfg := bits a.cfg })
  | 0x114 =>
    let on := bitOf (bits (b2n a.en)) 0
    if on = a.en then d else if on then ringEnable f d else ringDisable f d
  | 0x11C => set (fun a => { a with tail := v % 2 ^ 16 })
  | 0x120 => set (fun a => { a with rspHead := v % 2 ^ 16 })
  | 0x380 => cqArm m (v % 2 ^ 16) d
  | _ => plainWrite r al mask v d

/-- The numbers of the bits of a word that are 1. -/
def ones (v : Nat) : List Nat := (List.range 32).filter (fun i => bitOf v i)

/-- A write of a word to the transmit FIFO: of half a word, the other half is left open (R422, R442) (DEDUCED, log 78). -/
def txWrite (mask v : Nat) (fin : Bool) (d : Dev) : Dev :=
  let (w, d) := if mask = 2 ^ 64 - 1 then (v, d) else
    let (n, d) := fresh d
    ((v &&& mask) ||| (n % 2 ^ 64 &&& (mask ^^^ (2 ^ 64 - 1))), d)
  if fin then txEnd (BitVec.ofNat 64 w) d else txAppend (BitVec.ofNat 64 w) d

/-- A write of `v` to the bits `mask` of a register. -/
def writeReg (m : Master) (r : RegAt) (al : AliasKind) (mask v : Nat) (d : Dev) : Dev :=
  let o := r.desc.off
  let v := v &&& mask
  if bootHides d r.pl || (r.pl.block.id == 0x08 && absentPort d r.pl.inst) then d
  else if o = 0 then
    if mask % 2 = 0 then d
    else enWrite r.pl (bitOf (aliasApply al (b2n (enabled d (pageAlias r.pl.pageBase))) v) 0) d
  else if o = 4 then (if bitOf v 1 then setFld (pageAlias (r.pl.pageBase + 4)) 1 1 0 d else d)
  else
    match r.pl.block.id with
    | 0x08 => hostWriteReg m r al mask v d
    | 0x05 =>
      if o = 0x100 then clearSticky ((ones v).map (fun i => 32 * r.idx + i)) d
      else if o = 0x180 then (ones v).foldl (fun d i => occur (32 * r.idx + i) true d) d
      else plainWrite r al mask v d
    | 0x17 => if o = 0x030 then dmaKick m (v % 64) d else plainWrite r al mask v d
    | 0x19 => if o = 0x028 then fenceRequest (v % 64) d else plainWrite r al mask v d
    | 0x1A =>
      if o = 0x038 then flushRequest (bitOf v 0) (bitOf v 1) d
      else if o = 0x050 then txWrite mask v false d
      else if o = 0x058 then txWrite mask v true d
      else plainWrite r al mask v d
    | _ => plainWrite r al mask v d

/-- A write of an MSI-X entry's word; clearing the Mask bit may let a pending message go (R383). -/
def msixWrite (f : Func) (v w x : Nat) (d : Dev) : Dev :=
  let set (g : MsixEntry → MsixEntry) : Dev := updFn f (fun y => { y with msix := mset y.msix v (g ((mget y.msix v).getD {})) }) d
  match w with
  | 0 => set (fun e => { e with addr := e.addr / 2 ^ 32 * 2 ^ 32 + x })
  | 1 => set (fun e => { e with addr := e.addr % 2 ^ 32 + x * 2 ^ 32 })
  | 2 => set (fun e => { e with data := x })
  | _ => if bitOf x 0 then set (fun e => { e with mask := true }) else msixUnmask f v .mask d

/-- May a word be written: it has a field that takes a write; the pending bits discard it (R383). -/
def wordWritable (w : CsrWord) : Bool :=
  match w with
  | .rom _ => false
  | .msix _ _ => true
  | .pba _ => true
  | .reg r _ _ => r.desc.writable

/-- A write of a word of 32 bits. -/
def writeWord (m : Master) (w : CsrWord) (v : Nat) (d : Dev) : Dev :=
  match w with
  | .rom _ => d
  | .msix e i => msixWrite (viewFn m) e i v d
  | .pba _ => d
  | .reg r high al => if high then writeReg m r al ((2 ^ 32 - 1) * 2 ^ 32) (v * 2 ^ 32) d else writeReg m r al (2 ^ 32 - 1) v d

/-- A write of 64 bits: a register of that width in one update, else two words, the lower first (R422) (DEDUCED, log 77). -/
def writePair (m : Master) (a b : CsrWord) (v : Nat) (d : Dev) : Dev :=
  match a, b with
  | .reg r false al, .reg s true _ =>
    if r.base = s.base then writeReg m r al (2 ^ 64 - 1) v d else writeWord m b (v / 2 ^ 32) (writeWord m a (v % 2 ^ 32) d)
  | _, _ => writeWord m b (v / 2 ^ 32) (writeWord m a (v % 2 ^ 32) d)

/-- A write to the CSR window. The maintenance port may only read on the fatal path (R520). -/
def csrWrite (m : Master) (off width v : Nat) (d : Dev) : CsrAns × Dev :=
  if hostBarred m d then (.unsupported, match m with | .host f => hostUr f true d | .maint => d)
  else if d.flt.fatal.isSome then (.unsupported, d)
  else if !widthOk off width then improper m true off d
  else if width = 32 then
    match wordAt m off d with
    | some w => if wordWritable w then (.done, writeWord m w (v % 2 ^ 32) d) else improper m true off d
    | none => improper m true off d
  else
    match wordAt m off d, wordAt m (off + 4) d with
    | some a, some b => if wordWritable a && wordWritable b then (.done, writePair m a b (v % 2 ^ 64) d) else improper m true off d
    | _, _ => improper m true off d

/-- A write with EP = 1 from a host (R389). -/
def poisonedWrite (f : Func) (d : Dev) : Dev := raise (srcHost f.hp 6) (emit (.aer f "Poisoned TLP Received") d)

/-! ### The rows of register accesses -/

/-- A register read by a command of the table. -/
def regRead (m : Master) (off width : Nat) (d : Dev) : Dev :=
  match csrRead m off width d with
  | (.value v, d) => emit (.readData m width v) d
  | (.unsupported, d) => emit (.unsupported m) d
  | (_, d) => d

/-- A register write by a command of the table. -/
def regWrite (m : Master) (off width v : Nat) (poisoned : Bool) (d : Dev) : Dev :=
  match m with
  | .host f => if poisoned then poisonedWrite f d else (csrWrite m off width v d).2
  | .maint => (csrWrite m off width v d).2

/-- DOORBELL_WRITE (R57, R58, R377, R389) (DEDUCED, log 77). -/
def doorbellWrite (f : Func) (off len : Nat) (poisoned : Bool) (d : Dev) : Dev :=
  let e := off / 64
  let drop : Dev := { d with ept := { d.ept with bellDrops := d.ept.bellDrops + 1 } }
  if hostBarred (.host f) d then hostUr f true d
  else if poisoned then poisonedWrite f d
  else if 2 ^ 26 ≤ off then hostUr f true d
  else if len = 0 ∨ 64 < off % 64 + len ∨ epFunc d e ≠ some f then raise (srcWin 7 2) drop
  else
    match ep? d e with
    | some x => if x.scans then doorbell e d else drop
    | none => drop

/-! ### The maintenance port (R437 to R439) -/

/-- A word of the mailbox as it is read; none where none is implemented. -/
def mbxWord (a : Nat) (d : Dev) : Option Nat :=
  if a < 0x40 then some (leAt d.mnt.cmd a 4)
  else if a < 0x60 then some (leAt d.mnt.rsp (a - 0x40) 4)
  else if a = 0x60 then some 0
  else if a = 0x64 then some (b2n d.mnt.busy + 2 * b2n d.mnt.done)
  else if 0x10000 ≤ a ∧ a < 0x20000 then some (leNat (cellsRead d.mnt.data (a - 0x10000) 4))
  else none

/-- May a word of the mailbox be written. -/
def mbxWritable (a : Nat) (d : Dev) : Bool :=
  a == 0x60 || a == 0x64 || (!d.mnt.busy && (decide (a < 0x40) || (decide (0x10000 ≤ a) && decide (a < 0x20000))))

/-- A write of a word of the mailbox. -/
def mbxWrite (a v : Nat) (d : Dev) : Dev :=
  if a < 0x40 then updMnt (fun x => { x with cmd := patch x.cmd a (toLe 4 v) }) d
  else if a = 0x60 then (if bitOf v 0 then mailboxGo d else d)
  else if a = 0x64 then (if bitOf v 1 then updMnt (fun x => { x with done := false }) d else d)
  else updMnt (fun x => { x with data := cellsWrite x.data (a - 0x10000) (toLe 4 v) }) d

/-- The words that an access covers. -/
def wordsIn (a width : Nat) : List Nat := if width = 32 then [a] else [a, a + 4]

/-- A read of the maintenance address space. -/
def maintRead (a width : Nat) (d : Dev) : CsrAns × Dev :=
  if a < 0x4000000 then csrRead .maint a width d
  else
    let ws := (wordsIn (a - 0x8000000) width).map (fun x => mbxWord x d)
    if a < 0x8000000 || !widthOk a width || ws.any (·.isNone) then improper .maint false a d
    else (.value (((ws.map (·.getD 0)).zipIdx.map (fun p => p.1 * 2 ^ (32 * p.2))).foldl (· + ·) 0), d)

/-- A write of the maintenance address space. -/
def maintWrite (a width v : Nat) (d : Dev) : CsrAns × Dev :=
  if a < 0x4000000 then csrWrite .maint a width v d
  else
    let ws := wordsIn (a - 0x8000000) width
    if a < 0x8000000 || !widthOk a width || ws.any (fun x => !mbxWritable x d) then improper .maint true a d
    else (.done, ws.zipIdx.foldl (fun d p => mbxWrite p.1 (v / 2 ^ (32 * p.2) % 2 ^ 32) d) d)

/-- The length of a request with its sync byte and CRC, by its CMD; one that is not defined has no DATA. -/
def requestLen (cmd : Nat) : Nat := if cmd = 2 then 11 else if cmd = 4 then 15 else 7

/-- Carries out a whole request (DEDUCED, log 76). -/
def maintDo (mctp : Bool) (bs : Bytes) (d : Dev) : Dev :=
  let cmd := leAt bs 1 1
  let a := leAt bs 2 4
  let n := bs.length
  let width := if cmd = 3 ∨ cmd = 4 then 64 else 32
  let unsup := maintAnswer mctp 1 []
  if crc8 ((bs.drop 1).take (n - 2)) ≠ BitVec.ofNat 8 (leAt bs (n - 1) 1) then maintAnswer mctp 2 [] d
  else if cmd = 0 ∨ 4 < cmd then maintAnswer mctp 3 [] d
  else if cmd = 1 ∨ cmd = 3 then
    match maintRead a width (updMnt (fun x => { x with stall := some mctp }) d) with
    | (.value v, d) => maintAnswer mctp 0 (toLe (width / 8) v) (updMnt (fun x => { x with stall := none }) d)
    | (.later, d) => d
    | (_, d) => unsup (updMnt (fun x => { x with stall := none }) d)
  else
    match maintWrite a width (leAt bs 6 (width / 8)) d with
    | (.done, d) => maintAnswer mctp 0 [] d
    | (_, d) => unsup d

/-- The whole requests in bytes, and the bytes of an unfinished one; bytes outside a request are ignored (DEDUCED, log 76). -/
def splitRequests : Nat → Bytes → List Bytes × Bytes
  | 0, bs => ([], bs)
  | fuel + 1, bs =>
    let bs := bs.dropWhile (· != 0xA5#8)
    let n := requestLen (leAt bs 1 1)
    if bs.length < 2 ∨ bs.length < n then ([], bs)
    else
      let (rs, rest) := splitRequests fuel (bs.drop n)
      (bs.take n :: rs, rest)

/-- Requests are taken one at a time; those that come while a read is stalled wait (DEDUCED, log 76). -/
def maintQueue (rs : List (Bool × Bytes)) (d : Dev) : Dev :=
  rs.foldl (fun d r =>
    if d.mnt.stall.isSome || d.mnt.waiting != [] then updMnt (fun x => { x with waiting := x.waiting ++ [r] }) d else maintDo r.1 r.2 d) d

/-- The requests that have waited go on when the stalled read has ended. -/
def maintGo (d : Dev) : Dev :=
  if d.mnt.stall.isSome then d else maintQueue d.mnt.waiting (updMnt (fun x => { x with waiting := [] }) d)

/-- MAINTENANCE_REQUEST (R437) (DEDUCED, log 76). -/
def maintenanceRequest (bs : Bytes) (d : Dev) : Dev :=
  let all := d.mnt.part ++ bs
  let (rs, rest) := splitRequests all.length all
  maintQueue (rs.map (fun r => (false, r))) (updMnt (fun x => { x with part := rest }) d)

/-- MAINTENANCE_GAP (R437). -/
def maintenanceGap (d : Dev) : Dev := updMnt (fun x => { x with part := [] }) d

/-- MCTP_REQUEST (R437): a message carries one request (DEDUCED, log 76). -/
def mctpRequest (bs : Bytes) (d : Dev) : Dev :=
  maintQueue ((splitRequests 1 bs).1.map (fun r => (true, r))) d

end Sys2Proof.Machine
end

