-- ==== Sys2Proof/Machine/Settle.lean ====
section
/-! DEFINITION. What a command leaves to be done is done, in order, before the command ends. -/

namespace Sys2Proof.Machine

/-! ### Work in hand -/

/-- The answer of an admin command whose data has come. -/
def adminAnswer (j : AdminJob) (r : Ans × Dev) : Dev :=
  match r.1 with
  | .reply s why data => push (.reply j.ctx j.op s why data) r.2
  | .later => r.2

/-- The data that an admin command needs has been read (R299, R489). -/
def adminData (j : AdminJob) (r : HRead) (d : Dev) : Dev :=
  let data := if r.status = .ok then some r.bytes else none
  match j.op with
  | 0x0601 => adminAnswer j (collGroupCreateEnd j data d)
  | 0x0610 => adminAnswer j (collRickLoadEnd j data d)
  | 0x0810 => adminAnswer j (routeLoadEnd j data d)
  | 0x0E22 => adminAnswer j (identityWriteEnd j data d)
  | 0x0E23 => adminAnswer j (calibrationWriteEnd j data d)
  | 0x0E33 => adminAnswer j (peatWriteEnd j data d)
  | 0x0E40 => adminAnswer j (fwWriteEnd j data d)
  | _ => d

/-- The translation that an admin command asks for is known. -/
def adminAccess (j : AdminJob) (res : AccRes) (d : Dev) : Dev :=
  match j.op with
  | 0x0340 => xlatProbeEnd j res d
  | 0x0410 => claspQueryEnd j res d
  | _ => d

/-- A translated access has ended: its use proceeds. -/
def accUse (u : Use) (res : AccRes) (d : Dev) : Dev :=
  match u with
  | .ring e recv no pos n => ringDone e recv no pos n res d
  | .dmaRing c no pos n => dmaRingDone c no pos n res d
  | .pay cid => payDone cid res d
  | .repay da vn bsn => repayDone da vn bsn res d
  | .place rx => placeDone rx res d
  | .placeRecv rx => placeRecvEnd rx res d
  | .placeRsp o off len rx => placeRspDone o off len rx res d
  | .placeRes o rx => placeResDone o rx res d
  | .source rx => sourceDone rx res d
  | .word rx => wordDone rx res d
  | .dmaRead c id off len => dmaReadDone c id off len res d
  | .dmaWrite c id _ _ => dmaWriteDone c id res d
  | .dmaBack c id => dmaBackDone c id res d
  | .unexpPlace mid _ _ => unexpPlaced mid res d
  | .collSend i ops first n last => collSendDone i ops first n last res (collAbort i) d
  | .collRead i no rx => collReadDone i no rx res d
  | .collWrite i no rx data => collWriteDone i no rx data res d
  | .admin j _ => adminAccess j res d
  | _ => d

/-- The result of a read that was made for a use of an access. -/
def readRes (r : HRead) : AccRes :=
  match r.status with
  | .ok => { status := 0, data := r.chunks }
  | .poisoned => { status := 0, data := r.chunks }
  | .hostLost => { status := 0x70 }
  | _ => { status := 0x14 }

/-- A read of host memory has ended: its use proceeds. -/
def readUse (r : HRead) (d : Dev) : Dev :=
  match r.use with
  | .acc id => accData id r d
  | .walk k id => walkRead k id r d
  | .region s i => regionDone s i r d
  | .cqHead c => cqHeadDone c (headValue r) d
  | .eqHead f q => eqHeadDone f q (headValue r) d
  | .context e => contextDone e r d
  | .adminFetch f i => fetchDone f i r d
  | .admin j _ => adminData j r d
  | .flush rx => flushDone rx r d
  | .atomSer rx f a => atomSerDone rx f a r d
  | .atomOp rx _ _ => atomOpDone rx r d
  | .atomLoad rx f a n => atomLoadDone rx f a n r d
  | .atomCas rx f a n old => atomCasDone rx f a n old r d
  | .lockWord i => lockWordRead i r d
  | .dmaFlush c id => dmaFlushDone c id r d
  | .unexp mid off len => unexpDone mid off len r d
  | u => accUse u (readRes r) d

/-- Is a read of an atomic's CAS loop (R130). -/
def Use.loops (u : Use) : Bool :=
  match u with
  | .atomLoad _ _ _ _ => true
  | .atomCas _ _ _ _ _ => true
  | _ => false

/-- A finished read leaves the table; invalidations that waited for it proceed, or wait for the read with which
its CAS loop goes on (R111). -/
def readGo (n : Nat) (d : Dev) : Dev :=
  match mget d.reads n with
  | none => d
  | some r =>
    let m := d.nextRead
    let d := readUse r { d with reads := mdel d.reads n }
    if d.xl.invals = [] then d
    else invalRelease (fun i => { i with
      reads := if i.reads.contains n ∧ r.use.loops = true ∧ m < d.nextRead then i.reads.map (fun k => if k = n then m else k)
        else i.reads.filter (· != n) }) d

/-- An operation that has met its condition completes in its turn (R121, R208, R238). -/
def opGo (i : Nat) (d : Dev) : Dev :=
  match op? d i with
  | none => d
  | some o =>
    if o.state ≠ .met then d
    else
      match o.owner with
      | .ring pos => if mustWait d i o then d else ringOpDone i o pos d
      | .dma c id => dmaOpMet c id i o d
      | .coll x no k => collOpDone x no k i o.status (dropOp i d)
      | .pull mid => if o.code = 0x0B then pullDone mid o.status (dropOp i d) else dropOp i d
      | .fire ctx => push (.reply ctx 0x0632 0 0 (toLe 1 o.status)) (dropOp i d)

/-- A walk that could read nothing ends (R103, R108). -/
def walkEnd (k id : Nat) (d : Dev) : Dev :=
  match mget (xinst d k).walks id with
  | none => d
  | some w => walkFail k id w.fail d

/-- What waited for a word goes on (R130, R134). -/
def busyGo (addr : Nat) (o : BusyOp) (d : Dev) : Dev :=
  match o with
  | .acc u res => accUse u res d
  | .lock f word sends => lockOut f addr word sends d

/-- One piece of work. -/
def workGo (w : Work) (d : Dev) : Dev :=
  match w with
  | .accDone u res => accUse u res d
  | .readDone n => readGo n d
  | .walkDone k id => walkEnd k id d
  | .invalDone ctx op => push (.reply ctx op 0 0 []) d
  | .faultEvent s sev forced => faultEvent s sev forced d
  | .fatal s => fatalPath s d
  | .epError e cause => enterError e cause d
  | .opMet i => opGo i d
  | .settleStrand rx => settleQuiet rx d
  | .unpark e => unpark e d
  | .release _ _ m => releaseMsg m d
  | .request rx => requestGo rx d
  | .arrive rx => acceptedGo { rx with t0 := d.clk } d
  | .refusedSelf cid cause status => refusedSelf cid cause status d
  | .unreachable da => peerGone da d
  | .restart da adopt => restartPair da adopt false d
  | .counter i n => cntAdd i n d
  | .busyOp _ addr o => busyGo addr o d
  | .collGo i => collGo i d
  | .ringGo e => ringGo e d
  | .reply ctx op status why data => replyOut ctx op status why data d

/-- Does the work in hand in order, work that it leads to after it (DESIGN CHOICE, log 4). -/
def drain : Nat → Dev → Dev
  | 0, d => d
  | fuel + 1, d =>
    match d.work with
    | [] => d
    | w :: ws => drain fuel (workGo w { d with work := ws })

/-! ### What may go on afterwards -/

/-- Is an operation one that no ring or channel starts, and that waits (R128, R160, R181, R215, R233). -/
def Op.waitsInside (o : Op) : Bool :=
  o.state == .waiting && (match o.owner with | .ring _ => false | .dma _ _ => false | _ => true)

/-- The operations that do. -/
def waitingOps (d : Dev) : List (Nat × Op) := d.xp.ops.filter (fun p => p.2.waitsInside)

/-- Starts what waits. -/
def opsGo (d : Dev) : Dev :=
  (waitingOps d).foldl (fun d p =>
    match p.2.owner with
    | .coll _ _ _ => collOpStart p.1 d
    | _ => startOp p.1 d) d

/-- EP_RESET commands whose endpoints' completions have been written go on (R61). -/
def epResetGo (d : Dev) : Dev :=
  (d.adm.running.filter (fun j => j.op == 0x0213)).foldl (fun d j => adminAnswer j (epResetDo j d)) d

/-- Everything that an event may let go on, beside the work it put down itself. -/
def followUp (d : Dev) : Dev :=
  let d := (d.ept.eps.map (·.1)).foldl (fun d e => epSync e d) d
  let d := epResetGo (kickParts (opsGo d))
  let d := (d.dma.chs.map (·.1)).foldl (fun d c => dmaGo c d) d
  let d := (d.ports.map (·.1)).foldl (fun d n => quiesceGo n d) d
  maintGo d

/-- Drains, lets go on what may, and does so again while that left work (DESIGN CHOICE, log 4). -/
def settleAll : Nat → Dev → Dev
  | 0, d => drain 65536 d
  | fuel + 1, d =>
    let d := followUp (drain 65536 d)
    if d.work = [] then d else settleAll fuel d

end Sys2Proof.Machine
end

