-- ==== Sys2Proof/Machine/Timers.lean ====
section
/-! DEFINITION. What the timers of the transport, the endpoint block, the event queues, the collectives and the
link layer do when they expire. The row of a timer stands for its expiry: its interval is not measured again, only
what makes the timer run is. -/

namespace Sys2Proof.Machine

/-! ### Braids -/

/-- Does a Braid's increase timer run (R252). -/
def braidBusy (s : SendHalf) : Bool := s.queue != [] || s.unacked != []

/-- INCREASE_TIMER (R252) (DEDUCED, log 6). -/
def increaseTimer (da : Nat) (vn : Bool) (d : Dev) : Dev :=
  if braidBusy (sendHalf (peer d da) vn) then updRate da vn rateIncrease d else d

/-- IDLE_RESET (R253): a Braid with nothing queued or unacknowledged loads its start values; 0 disables it (DEDUCED, log 6). -/
def idleReset (da : Nat) (vn : Bool) (d : Dev) : Dev :=
  if braidBusy (sendHalf (peer d da) vn) || (peer d da).state != .opened || fld d (CONG + 0x024) 16 8 == 0 then d
  else updRate da vn rateStart d

/-- RATE_FLOOR (R255): the source is raised once until RATE has risen above 10. -/
def rateFloor (da : Nat) (vn : Bool) (d : Dev) : Dev :=
  let s := sendHalf (peer d da) vn
  if s.rate = 10 ∧ s.queue ≠ [] ∧ s.floorRaised = false then
    raise (srcWin 12 2) (updSend da vn (fun s => { s with floorRaised := true }) d)
  else d

/-- UNREACHABLE_EXPIRY (R215) (DEDUCED, log 6). -/
def unreachableExpiry (da : Nat) (d : Dev) : Dev :=
  if (peer d da).state = .unreachable then updPeer da (fun p => { p with state := .closed }) d else d

/-- ACK_DELAY_TIMER (R227): settlements not yet reported are acknowledged (DEDUCED, log 6; DEDUCED, log 35). -/
def ackDelay (da : Nat) (vn : Bool) (d : Dev) : Dev :=
  let r := recvHalf (peer d da) vn
  if r.synced && decide (0 < r.sinceAck) then sendAck da vn 0 false none d else d

/-- NOT_READY_BACKOFF (R241) (DEDUCED, log 6). -/
def backoffEnd (cid : Nat) (d : Dev) : Dev :=
  if d.xp.backoff.contains cid then resend cid (updXp (fun x => { x with backoff := x.backoff.filter (· != cid) }) d) else d

/-- TRIM_RESEND (R243). -/
def trimResend (cid : Nat) (d : Dev) : Dev :=
  if d.xp.trimmed.contains cid then resend cid (updXp (fun x => { x with trimmed := x.trimmed.filter (· != cid) }) d) else d

/-- SEND_RECORD_IDLE (R233): a record without unacknowledged messages is freed. Where an operation of its stream is
not complete, its order of completion is kept, and the next message starts from MSN 0 with an ENTROPY of its own (DEDUCED, log 49). -/
def sendRecordIdle (k : StreamKey) (d : Dev) : Dev :=
  match aget d.xp.sendRecs k with
  | none => d
  | some r =>
    if r.unacked ≠ [] then d
    else if r.order = [] then updXp (fun x => { x with sendRecs := adel x.sendRecs k }) d
    else
      let (n, d) := fresh d
      updXp (fun x => { x with sendRecs := aset x.sendRecs k { r with next := 0, entropy := n % 65536 } }) d

/-- RECV_RECORD_IDLE (R234): the record is freed, its messages discarded and counted. -/
def recvRecordIdle (k : StreamKey) (d : Dev) : Dev := dropRecvRecs (fun j => decide (j = k)) d

/-! ### Endpoints, event queues, collectives -/

/-- POLL_TIMER (R73): rings whose last scan stopped at an entry that was not owned are scanned. -/
def pollTimer (e : Nat) (d : Dev) : Dev :=
  match ep? d e with
  | none => d
  | some x =>
    if !x.poll || !x.scans then d
    else
      let go (r : Ring) : Bool := r.unowned && r.scan.isNone
      let d := if go x.send then scanStart e false d else d
      if x.recv.any go then scanStart e true d else d

/-- EQ_MODERATION_TIMER (R86). -/
def moderationEnd (f : Func) (q : Nat) (d : Dev) : Dev :=
  match eq? d f q with
  | none => d
  | some x => if x.modTime = 0 ∨ x.since = 0 then d else msixRequest f x.vector (updEq f q (fun y => { y with since := 0 }) d)

/-- COLL_TIMEOUT (R201): the record names the earliest step that is not complete and its first peer (DEDUCED, log 6; DEDUCED, log 47). -/
def collTimeout (i : Nat) (d : Dev) : Dev :=
  match inst? d i with
  | none => d
  | some x =>
    if x.state ≠ .running then d
    else
      match x.steps.head? with
      | some s => collAbort i 1 s.ix (s.peers.head?.getD x.rank) d
      | none => collAbort i 1 x.pc x.rank d

/-! ### Links -/

/-- LINK_ACK_TIMER (R306). -/
def linkAckTimer (n : Nat) (d : Dev) : Dev :=
  if (port d n).state ≠ 0 ∧ (port d n).link.ackOn = true then linkAckSend n d else d

/-- HINT_STALE (R280) (DEDUCED, log 6). -/
def hintStale (n : Nat) (d : Dev) : Dev := updPort n (fun p => { p with hintReq := 15, hintRsp := 15 }) d

/-! ### One tick of the model's clock -/

/-- What happens in one cycle of TCLK when no command waits: time advances by 1 ns, and what the rules do at a
time of their own is done (DESIGN CHOICE, log 2). -/
def tick (d : Dev) : Dev :=
  let d := ppsFallTick (timeTick { d with clk := d.clk + 1 })
  let d := if d.clk % 10 = 0 then observeDepths d else d
  tallyDone (idleSlots (pwrTick d))

/-! ### The end of a command -/

/-- The state after a command: what it leaves to be done is done. The addressed stores are in their one form (DESIGN CHOICE, log 3; DESIGN CHOICE, log 4). -/
def State.commit (s : State) (d : Dev) : State :=
  let d := settleAll 64 d
  { s with dev := { d with
      nv := { d.nv with peat := cellsTidy d.nv.peat, flash := cellsTidy d.nv.flash }
      mnt := { d.mnt with data := cellsTidy d.mnt.data } } }

end Sys2Proof.Machine
end

