-- ==== Sys2Proof/Machine/AdminPathCmds.lean ====
section
/-! DEFINITION. Admin rings, the mailbox and the maintenance port (R433 to R439): one meaning per command. -/

namespace Sys2Proof.Machine

/-- ADMIN_RING_ENABLE (R435). -/
def execAdminRingEnable (m : Master) (hp : HostNo) (s : State) : Host.Outcome State Fault Refusal :=
  .next (s.commit (regWrite m (HOSTB hp.val + 0x114) 32 1 false s.dev))

/-- ADMIN_RING_DISABLE (R436). -/
def execAdminRingDisable (m : Master) (hp : HostNo) (s : State) : Host.Outcome State Fault Refusal :=
  .next (s.commit (regWrite m (HOSTB hp.val + 0x114) 32 0 false s.dev))

/-- ADM_CMD_TAIL (R435). -/
def execAdmCmdTail (m : Master) (hp : HostNo) (count : BitVec 16) (s : State) : Host.Outcome State Fault Refusal :=
  .next (s.commit (regWrite m (HOSTB hp.val + 0x11C) 32 count.toNat false s.dev))

/-- ADM_RSP_HEAD (R435). -/
def execAdmRspHead (m : Master) (hp : HostNo) (count : BitVec 16) (s : State) : Host.Outcome State Fault Refusal :=
  .next (s.commit (regWrite m (HOSTB hp.val + 0x120) 32 count.toNat false s.dev))

/-- ADMIN_COMMAND_FETCH (R435). -/
def execAdminCommandFetch (f : Func) (s : State) : Host.Outcome State Fault Refusal := .next (s.commit (commandFetch f s.dev))

/-- ADMIN_COMMAND_BEGIN (R433). -/
def execAdminCommandBegin (p : Path) (s : State) : Host.Outcome State Fault Refusal := .next (s.commit (commandBegin adminCmds p s.dev))

/-- ADMIN_TIMEOUT (R434). -/
def execAdminTimeout (p : Path) (s : State) : Host.Outcome State Fault Refusal := .next (s.commit (commandTimeout p s.dev))

/-- MBX_GO (R439). -/
def execMbxGo (s : State) : Host.Outcome State Fault Refusal := .next (s.commit (mailboxGo s.dev))

/-- MAINTENANCE_REQUEST (R437). -/
def execMaintenanceRequest (bytes : List Byte) (s : State) : Host.Outcome State Fault Refusal :=
  .next (s.commit (Sys2Proof.Machine.maintenanceRequest bytes s.dev))

/-- MCTP_REQUEST (R437). -/
def execMctpRequest (bytes : List Byte) (s : State) : Host.Outcome State Fault Refusal := .next (s.commit (Sys2Proof.Machine.mctpRequest bytes s.dev))

/-- MAINTENANCE_GAP (R437). -/
def execMaintenanceGap (s : State) : Host.Outcome State Fault Refusal := .next (s.commit (Sys2Proof.Machine.maintenanceGap s.dev))

end Sys2Proof.Machine
end

