-- ==== Sys2Proof/Machine/BraidCmds.lean ====
section
/-! DEFINITION. Braids, streams and their timers (R214 to R258): one meaning per command. -/

namespace Sys2Proof.Machine

/-- CALENDAR_SLOT_DUE (R257). -/
def execCalendarSlotDue (s : State) : Host.Outcome State Fault Refusal := .next (s.commit (calendarSlot s.dev))

/-- INCREASE_TIMER (R252). -/
def execIncreaseTimer (da : Da) (vn : Bool) (s : State) : Host.Outcome State Fault Refusal :=
  .next (s.commit (Sys2Proof.Machine.increaseTimer da.toNat vn s.dev))

/-- IDLE_RESET (R253). -/
def execIdleReset (da : Da) (vn : Bool) (s : State) : Host.Outcome State Fault Refusal :=
  .next (s.commit (Sys2Proof.Machine.idleReset da.toNat vn s.dev))

/-- RATE_FLOOR (R255). -/
def execRateFloor (da : Da) (vn : Bool) (s : State) : Host.Outcome State Fault Refusal :=
  .next (s.commit (Sys2Proof.Machine.rateFloor da.toNat vn s.dev))

/-- RETRANSMIT_TIMER (R231). -/
def execRetransmitTimer (da : Da) (vn : Bool) (bsn : BitVec 32) (s : State) : Host.Outcome State Fault Refusal :=
  .next (s.commit (retransmit da.toNat vn bsn.toNat s.dev))

/-- UNREACHABLE_EXPIRY (R215). -/
def execUnreachableExpiry (da : Da) (s : State) : Host.Outcome State Fault Refusal :=
  .next (s.commit (Sys2Proof.Machine.unreachableExpiry da.toNat s.dev))

/-- ACK_DELAY_TIMER (R227). -/
def execAckDelayTimer (da : Da) (vn : Bool) (s : State) : Host.Outcome State Fault Refusal := .next (s.commit (ackDelay da.toNat vn s.dev))

/-- NOT_READY_BACKOFF (R241). -/
def execNotReadyBackoff (id : Nat) (s : State) : Host.Outcome State Fault Refusal := .next (s.commit (backoffEnd id s.dev))

/-- TRIM_RESEND (R243). -/
def execTrimResend (id : Nat) (s : State) : Host.Outcome State Fault Refusal := .next (s.commit (Sys2Proof.Machine.trimResend id s.dev))

/-- READ_RESEND (R128). -/
def execReadResend (st : Strand) (s : State) : Host.Outcome State Fault Refusal := .next (s.commit (xportRx st (unland st s.dev)))

/-- SEND_RECORD_IDLE (R233). -/
def execSendRecordIdle (k : StreamKey) (s : State) : Host.Outcome State Fault Refusal := .next (s.commit (Sys2Proof.Machine.sendRecordIdle k s.dev))

/-- RECV_RECORD_IDLE (R234). -/
def execRecvRecordIdle (k : StreamKey) (s : State) : Host.Outcome State Fault Refusal := .next (s.commit (Sys2Proof.Machine.recvRecordIdle k s.dev))

/-- PARKING_TIMEOUT (R156). -/
def execParkingTimeout (st : Strand) (s : State) : Host.Outcome State Fault Refusal := .next (s.commit (parkExpire false st s.dev))

/-- CONTEXT_FETCH_TIMEOUT (R90). -/
def execContextFetchTimeout (st : Strand) (s : State) : Host.Outcome State Fault Refusal := .next (s.commit (parkExpire true st s.dev))

end Sys2Proof.Machine
end

