-- ==== Sys2Proof/Machine/ClaspAdmin.lean ====
section
/-! DEFINITION. Admin commands 0x04xx (R143): one meaning per command. -/

namespace Sys2Proof.Machine

/-- CLASP_DOMAIN_CREATE (R135). -/
def execClaspDomainCreate (c : AdminCtx) (domain slot fairness members : Nat) (s : State) : Host.Outcome State Fault Refusal :=
  .next (s.commit (adminRow adminCmds claspDomainCreateCmd c [domain, slot, fairness, members] s.dev))

/-- CLASP_DOMAIN_DESTROY (R145). -/
def execClaspDomainDestroy (c : AdminCtx) (domain : Nat) (s : State) : Host.Outcome State Fault Refusal :=
  .next (s.commit (adminRow adminCmds claspDomainDestroyCmd c [domain] s.dev))

/-- CLASP_QUERY (R145). -/
def execClaspQuery (c : AdminCtx) (record slot iova : Nat) (s : State) : Host.Outcome State Fault Refusal :=
  .next (s.commit (adminRow adminCmds claspQueryCmd c [record, slot, iova] s.dev))

/-- CLASP_FORCE_RELEASE (R140). -/
def execClaspForceRelease (c : AdminCtx) (record : Nat) (s : State) : Host.Outcome State Fault Refusal :=
  .next (s.commit (adminRow adminCmds claspForceReleaseCmd c [record] s.dev))

/-- CLASP_WAITER_REMOVE (R143). -/
def execClaspWaiterRemove (c : AdminCtx) (record da ep : Nat) (s : State) : Host.Outcome State Fault Refusal :=
  .next (s.commit (adminRow adminCmds claspWaiterRemoveCmd c [record, da, ep] s.dev))

end Sys2Proof.Machine
end

