-- ==== Sys2Proof/Machine/CollAdmin.lean ====
section
/-! DEFINITION. Admin commands 0x06xx (R213): one meaning per command. -/

namespace Sys2Proof.Machine

/-- COLL_GROUP_CREATE (R172). -/
def execCollGroupCreate (c : AdminCtx) (group key slot n table scratch size : Nat) (s : State) : Host.Outcome State Fault Refusal :=
  .next (s.commit (adminRow adminCmds collGroupCreateCmd c [group, key, slot, n, table, scratch, size] s.dev))

/-- COLL_GROUP_DESTROY (R213). -/
def execCollGroupDestroy (c : AdminCtx) (group : Nat) (s : State) : Host.Outcome State Fault Refusal :=
  .next (s.commit (adminRow adminCmds collGroupDestroyCmd c [group] s.dev))

/-- COLL_GROUP_QUERY (R213). -/
def execCollGroupQuery (c : AdminCtx) (group : Nat) (s : State) : Host.Outcome State Fault Refusal :=
  .next (s.commit (adminRow adminCmds collGroupQueryCmd c [group] s.dev))

/-- COLL_RICK_LOAD (R187). -/
def execCollRickLoad (c : AdminCtx) (rick image length : Nat) (s : State) : Host.Outcome State Fault Refusal :=
  .next (s.commit (adminRow adminCmds collRickLoadCmd c [rick, image, length] s.dev))

/-- COLL_RICK_UNLOAD (R213). -/
def execCollRickUnload (c : AdminCtx) (rick : Nat) (s : State) : Host.Outcome State Fault Refusal :=
  .next (s.commit (adminRow adminCmds collRickUnloadCmd c [rick] s.dev))

/-- COLL_RICK_QUERY (R213). -/
def execCollRickQuery (c : AdminCtx) (rick : Nat) (s : State) : Host.Outcome State Fault Refusal :=
  .next (s.commit (adminRow adminCmds collRickQueryCmd c [rick] s.dev))

/-- COLL_COUNTER_ALLOC (R205). -/
def execCollCounterAlloc (c : AdminCtx) (slot count mirror : Nat) (s : State) : Host.Outcome State Fault Refusal :=
  .next (s.commit (adminRow adminCmds collCounterAllocCmd c [slot, count, mirror] s.dev))

/-- COLL_COUNTER_FREE (R213). -/
def execCollCounterFree (c : AdminCtx) (first count : Nat) (s : State) : Host.Outcome State Fault Refusal :=
  .next (s.commit (adminRow adminCmds collCounterFreeCmd c [first, count] s.dev))

/-- COLL_COUNTER_READ (R213). -/
def execCollCounterRead (c : AdminCtx) (index : Nat) (s : State) : Host.Outcome State Fault Refusal :=
  .next (s.commit (adminRow adminCmds collCounterReadCmd c [index] s.dev))

/-- COLL_COUNTER_WRITE (R203). -/
def execCollCounterWrite (c : AdminCtx) (index value : Nat) (s : State) : Host.Outcome State Fault Refusal :=
  .next (s.commit (adminRow adminCmds collCounterWriteCmd c [index, value] s.dev))

/-- COLL_COUNTER_BIND (R204). -/
def execCollCounterBind (c : AdminCtx) (ep dir index : Nat) (s : State) : Host.Outcome State Fault Refusal :=
  .next (s.commit (adminRow adminCmds collCounterBindCmd c [ep, dir, index] s.dev))

/-- COLL_COUNTER_ARM (R208). -/
def execCollCounterArm (c : AdminCtx) (index tag : Nat) (s : State) : Host.Outcome State Fault Refusal :=
  .next (s.commit (adminRow adminCmds collCounterArmCmd c [index, tag] s.dev))

/-- COLL_COUNTER_DISARM (R209). -/
def execCollCounterDisarm (c : AdminCtx) (index : Nat) (s : State) : Host.Outcome State Fault Refusal :=
  .next (s.commit (adminRow adminCmds collCounterDisarmCmd c [index] s.dev))

/-- COLL_ARM_FIRE (R208). -/
def execCollArmFire (c : AdminCtx) (da ep job counter tag inc : Nat) (s : State) : Host.Outcome State Fault Refusal :=
  .next (s.commit (adminRow adminCmds collArmFireCmd c [da, ep, job, counter, tag, inc] s.dev))

/-- COLL_ABORT (R201). -/
def execCollAbort (c : AdminCtx) (group ep : Nat) (s : State) : Host.Outcome State Fault Refusal :=
  .next (s.commit (adminRow adminCmds collAbortCmd c [group, ep] s.dev))

end Sys2Proof.Machine
end

