-- ==== Sys2Proof/Machine/CollCmds.lean ====
section
/-! DEFINITION. Collectives (R178 to R211): one meaning per command. -/

namespace Sys2Proof.Machine

/-- INSTANCE_RUN (R178). -/
def execInstanceRun (inst : Nat) (s : State) : Host.Outcome State Fault Refusal := .next (s.commit (instRun inst s.dev))

/-- COLL_TIMEOUT (R201). -/
def execCollTimeout (inst : Nat) (s : State) : Host.Outcome State Fault Refusal := .next (s.commit (Sys2Proof.Machine.collTimeout inst s.dev))

/-- RELEASE_DELIVERY (R210). -/
def execReleaseDelivery (hp : HostNo) (s : State) : Host.Outcome State Fault Refusal :=
  .next (s.commit (Sys2Proof.Machine.releaseDelivery hp.val s.dev))

/-- PREWARN_ASSERT (R210). -/
def execPrewarnAssert (output : Fin 4) (s : State) : Host.Outcome State Fault Refusal := .next (s.commit (prewarnSet output.val s.dev))

/-- PREWARN_DEASSERT (R210). -/
def execPrewarnDeassert (output : Fin 4) (s : State) : Host.Outcome State Fault Refusal := .next (s.commit (prewarnClear output.val s.dev))

end Sys2Proof.Machine
end

