-- ==== Sys2Proof/Machine/DescriptorCmds.lean ====
section
/-! DEFINITION. Descriptors of endpoints (R56 to R78, R121): one meaning per command. -/

namespace Sys2Proof.Machine

/-- POLL_TIMER (R73). -/
def execPollTimer (ep : Nat) (s : State) : Host.Outcome State Fault Refusal := .next (s.commit (Sys2Proof.Machine.pollTimer ep s.dev))

/-- TRIGGERED_START (R207). -/
def execTriggeredStart (ep : Nat) (s : State) : Host.Outcome State Fault Refusal := .next (s.commit (startNext ep (fun o => o.trig) s.dev))

/-- NOP (R68). -/
def execNop (ep : Nat) (s : State) : Host.Outcome State Fault Refusal := .next (s.commit (startNext ep (fun o => o.code == 0x00) s.dev))

/-- WRITE (R121). -/
def execWrite (ep : Nat) (s : State) : Host.Outcome State Fault Refusal := .next (s.commit (startNext ep (fun o => o.code == 0x01) s.dev))

/-- WRITE_IMM (R121). -/
def execWriteImm (ep : Nat) (s : State) : Host.Outcome State Fault Refusal := .next (s.commit (startNext ep (fun o => o.code == 0x02) s.dev))

/-- READ (R127). -/
def execRead (ep : Nat) (s : State) : Host.Outcome State Fault Refusal := .next (s.commit (startNext ep (fun o => o.code == 0x03) s.dev))

/-- PUT_COUNT (R121). -/
def execPutCount (ep : Nat) (s : State) : Host.Outcome State Fault Refusal := .next (s.commit (startNext ep (fun o => o.code == 0x04) s.dev))

/-- SEND (R71). -/
def execSend (ep : Nat) (s : State) : Host.Outcome State Fault Refusal := .next (s.commit (startNext ep (fun o => o.code == 0x08) s.dev))

/-- SEND_TAGGED (R157). -/
def execSendTagged (ep : Nat) (s : State) : Host.Outcome State Fault Refusal := .next (s.commit (startNext ep (fun o => o.code == 0x09) s.dev))

/-- ATOMIC (R129). -/
def execAtomic (ep : Nat) (s : State) : Host.Outcome State Fault Refusal := .next (s.commit (startNext ep (fun o => o.code == 0x10) s.dev))

/-- CLASP_ACQUIRE (R137). -/
def execClaspAcquire (ep : Nat) (s : State) : Host.Outcome State Fault Refusal := .next (s.commit (startNext ep (fun o => o.code == 0x18) s.dev))

/-- CLASP_TRY (R137). -/
def execClaspTry (ep : Nat) (s : State) : Host.Outcome State Fault Refusal := .next (s.commit (startNext ep (fun o => o.code == 0x19) s.dev))

/-- CLASP_RELEASE (R138). -/
def execClaspRelease (ep : Nat) (s : State) : Host.Outcome State Fault Refusal := .next (s.commit (startNext ep (fun o => o.code == 0x1A) s.dev))

/-- COLL_START (R178). -/
def execCollStart (ep : Nat) (s : State) : Host.Outcome State Fault Refusal := .next (s.commit (startNext ep (fun o => o.code == 0x28) s.dev))

/-- RECV (R70). -/
def execRecv (ep : Nat) (s : State) : Host.Outcome State Fault Refusal := .next (s.commit (postNext ep false s.dev))

/-- RECV_TAGGED (R154). -/
def execRecvTagged (ep : Nat) (s : State) : Host.Outcome State Fault Refusal := .next (s.commit (postNext ep true s.dev))

/-- SPILL_RETURN (R166). -/
def execSpillReturn (ep : Nat) (s : State) : Host.Outcome State Fault Refusal := .next (s.commit (Sys2Proof.Machine.spillReturn ep s.dev))

end Sys2Proof.Machine
end

