-- ==== Sys2Proof/Machine/DmaAdmin.lean ====
section
/-! DEFINITION. Admin commands 0x0Cxx (R417): one meaning per command. -/

namespace Sys2Proof.Machine

/-- DMA_CH_CREATE (R404). -/
def execDmaChCreate (c : AdminCtx) (ch hp slotA slotB ring n ep ord tc prio vector halfInt fullInt errInt : Nat) (s : State) : Host.Outcome State Fault Refusal :=
  .next (s.commit (adminRow adminCmds dmaChCreateCmd c [ch, hp, slotA, slotB, ring, n, ep, ord, tc, prio, vector, halfInt, fullInt, errInt] s.dev))

/-- DMA_CH_TARGET_SET (R418). -/
def execDmaChTargetSet (c : AdminCtx) (ch target da ep rkey : Nat) (s : State) : Host.Outcome State Fault Refusal :=
  .next (s.commit (adminRow adminCmds dmaChTargetSetCmd c [ch, target, da, ep, rkey] s.dev))

/-- DMA_CH_START (R405). -/
def execDmaChStart (c : AdminCtx) (ch : Nat) (s : State) : Host.Outcome State Fault Refusal :=
  .next (s.commit (adminRow adminCmds dmaChStartCmd c [ch] s.dev))

/-- DMA_CH_STOP (R405). -/
def execDmaChStop (c : AdminCtx) (ch : Nat) (s : State) : Host.Outcome State Fault Refusal :=
  .next (s.commit (adminRow adminCmds dmaChStopCmd c [ch] s.dev))

/-- DMA_CH_RESET (R405). -/
def execDmaChReset (c : AdminCtx) (ch : Nat) (s : State) : Host.Outcome State Fault Refusal :=
  .next (s.commit (adminRow adminCmds dmaChResetCmd c [ch] s.dev))

/-- DMA_CH_DESTROY (R418). -/
def execDmaChDestroy (c : AdminCtx) (ch : Nat) (s : State) : Host.Outcome State Fault Refusal :=
  .next (s.commit (adminRow adminCmds dmaChDestroyCmd c [ch] s.dev))

/-- DMA_CH_QUERY (R418). -/
def execDmaChQuery (c : AdminCtx) (ch : Nat) (s : State) : Host.Outcome State Fault Refusal :=
  .next (s.commit (adminRow adminCmds dmaChQueryCmd c [ch] s.dev))

/-- DMA_CH_PRIO_SET (R416). -/
def execDmaChPrioSet (c : AdminCtx) (ch prio : Nat) (s : State) : Host.Outcome State Fault Refusal :=
  .next (s.commit (adminRow adminCmds dmaChPrioSetCmd c [ch, prio] s.dev))

end Sys2Proof.Machine
end

