-- ==== Sys2Proof/Machine/DmaCmds.lean ====
section
/-! DEFINITION. DMA descriptors (R403 to R416): one meaning per command. -/

namespace Sys2Proof.Machine

/-- DMA_COPY (R408). -/
def execDmaCopy (ch : Fin 64) (s : State) : Host.Outcome State Fault Refusal := .next (s.commit (dmaBegin ch.val 0 s.dev))

/-- DMA_PUT (R408). -/
def execDmaPut (ch : Fin 64) (s : State) : Host.Outcome State Fault Refusal := .next (s.commit (dmaBegin ch.val 1 s.dev))

/-- DMA_GET (R408). -/
def execDmaGet (ch : Fin 64) (s : State) : Host.Outcome State Fault Refusal := .next (s.commit (dmaBegin ch.val 2 s.dev))

/-- DMA_PEAT_READ (R408). -/
def execDmaPeatRead (ch : Fin 64) (s : State) : Host.Outcome State Fault Refusal := .next (s.commit (dmaBegin ch.val 3 s.dev))

/-- DMA_PEAT_WRITE (R408). -/
def execDmaPeatWrite (ch : Fin 64) (s : State) : Host.Outcome State Fault Refusal := .next (s.commit (dmaBegin ch.val 4 s.dev))

/-- DMA_CHUNK_SELECT (R416). -/
def execDmaChunkSelect (s : State) : Host.Outcome State Fault Refusal := .next (s.commit (Sys2Proof.Machine.dmaChunkSelect s.dev))

end Sys2Proof.Machine
end

