-- ==== Sys2Proof/Machine/EmberCmds.lean ====
section
/-! DEFINITION. Ember clusters (R448 to R460): one meaning per command. -/

namespace Sys2Proof.Machine

/-- WATCHDOG (R452). -/
def execWatchdog (cluster : Fin 72) (s : State) : Host.Outcome State Fault Refusal := .next (s.commit (Sys2Proof.Machine.watchdog cluster.val s.dev))

/-- TAKEOVER (R455). -/
def execTakeover (s : State) : Host.Outcome State Fault Refusal := .next (s.commit (Sys2Proof.Machine.takeover s.dev))

/-- TAKEOVER_DRAINED (R455). -/
def execTakeoverDrained (s : State) : Host.Outcome State Fault Refusal := .next (s.commit (Sys2Proof.Machine.takeoverDrained s.dev))

/-- FIRMWARE_TRAP (R453). -/
def execFirmwareTrap (cluster : Fin 72) (s : State) : Host.Outcome State Fault Refusal :=
  .next (s.commit (Sys2Proof.Machine.firmwareTrap cluster.val s.dev))

/-- FILIGREE_STOP (R453). -/
def execFiligreeStop (cluster : Fin 72) (s : State) : Host.Outcome State Fault Refusal :=
  .next (s.commit (Sys2Proof.Machine.filigreeStop cluster.val s.dev))

end Sys2Proof.Machine
end

