-- ==== Sys2Proof/Machine/EndpointAdmin.lean ====
section
/-! DEFINITION. Admin commands 0x02xx (R92): one meaning per command. -/

namespace Sys2Proof.Machine

/-- EP_BLOCK_ASSIGN (R92). -/
def execEpBlockAssign (c : AdminCtx) (block hp fn job backing : Nat) (s : State) : Host.Outcome State Fault Refusal :=
  .next (s.commit (adminRow adminCmds epBlockAssignCmd c [block, hp, fn, job, backing] s.dev))

/-- EP_BLOCK_RELEASE (R92). -/
def execEpBlockRelease (c : AdminCtx) (block : Nat) (s : State) : Host.Outcome State Fault Refusal :=
  .next (s.commit (adminRow adminCmds epBlockReleaseCmd c [block] s.dev))

/-- EP_CREATE (R92). -/
def execEpCreate (c : AdminCtx) (ep typ sBase sN rBase rN sCq rCq eq pin poll : Nat) (s : State) : Host.Outcome State Fault Refusal :=
  .next (s.commit (adminRow adminCmds epCreateCmd c [ep, typ, sBase, sN, rBase, rN, sCq, rCq, eq, pin, poll] s.dev))

/-- EP_ENABLE (R61). -/
def execEpEnable (c : AdminCtx) (ep : Nat) (s : State) : Host.Outcome State Fault Refusal :=
  .next (s.commit (adminRow adminCmds epEnableCmd c [ep] s.dev))

/-- EP_DISABLE (R61). -/
def execEpDisable (c : AdminCtx) (ep : Nat) (s : State) : Host.Outcome State Fault Refusal :=
  .next (s.commit (adminRow adminCmds epDisableCmd c [ep] s.dev))

/-- EP_RESET (R63). -/
def execEpReset (c : AdminCtx) (ep : Nat) (s : State) : Host.Outcome State Fault Refusal :=
  .next (s.commit (adminRow adminCmds epResetCmd c [ep] s.dev))

/-- EP_DESTROY (R63). -/
def execEpDestroy (c : AdminCtx) (ep : Nat) (s : State) : Host.Outcome State Fault Refusal :=
  .next (s.commit (adminRow adminCmds epDestroyCmd c [ep] s.dev))

/-- EP_QUERY (R92). -/
def execEpQuery (c : AdminCtx) (ep : Nat) (s : State) : Host.Outcome State Fault Refusal :=
  .next (s.commit (adminRow adminCmds epQueryCmd c [ep] s.dev))

/-- CQ_CREATE (R92). -/
def execCqCreate (c : AdminCtx) (cq function base n head eq arm whole : Nat) (s : State) : Host.Outcome State Fault Refusal :=
  .next (s.commit (adminRow adminCmds cqCreateCmd c [cq, function, base, n, head, eq, arm, whole] s.dev))

/-- CQ_RESET (R93). -/
def execCqReset (c : AdminCtx) (cq : Nat) (s : State) : Host.Outcome State Fault Refusal :=
  .next (s.commit (adminRow adminCmds cqResetCmd c [cq] s.dev))

/-- CQ_DESTROY (R92). -/
def execCqDestroy (c : AdminCtx) (cq : Nat) (s : State) : Host.Outcome State Fault Refusal :=
  .next (s.commit (adminRow adminCmds cqDestroyCmd c [cq] s.dev))

/-- EQ_CREATE (R92). -/
def execEqCreate (c : AdminCtx) (function eq base n head vector modCount modTime : Nat) (s : State) : Host.Outcome State Fault Refusal :=
  .next (s.commit (adminRow adminCmds eqCreateCmd c [function, eq, base, n, head, vector, modCount, modTime] s.dev))

/-- EQ_MODERATE (R92). -/
def execEqModerate (c : AdminCtx) (function eq modCount modTime : Nat) (s : State) : Host.Outcome State Fault Refusal :=
  .next (s.commit (adminRow adminCmds eqModerateCmd c [function, eq, modCount, modTime] s.dev))

/-- EQ_DESTROY (R92). -/
def execEqDestroy (c : AdminCtx) (function eq : Nat) (s : State) : Host.Outcome State Fault Refusal :=
  .next (s.commit (adminRow adminCmds eqDestroyCmd c [function, eq] s.dev))

end Sys2Proof.Machine
end

