-- ==== Sys2Proof/Machine/FaultAdmin.lean ====
section
/-! DEFINITION. Admin commands 0x0Fxx (R533): one meaning per command. -/

namespace Sys2Proof.Machine

/-- FLT_QUERY (R534). -/
def execFltQuery (c : AdminCtx) (source : Nat) (s : State) : Host.Outcome State Fault Refusal :=
  .next (s.commit (adminRow adminCmds fltQueryCmd c [source] s.dev))

/-- FLT_SEVERITY_SET (R516). -/
def execFltSeveritySet (c : AdminCtx) (first count sev persist : Nat) (s : State) : Host.Outcome State Fault Refusal :=
  .next (s.commit (adminRow adminCmds fltSeveritySetCmd c [first, count, sev, persist] s.dev))

/-- FLT_ROUTE_SET (R534). -/
def execFltRouteSet (c : AdminCtx) (group mask persist : Nat) (s : State) : Host.Outcome State Fault Refusal :=
  .next (s.commit (adminRow adminCmds fltRouteSetCmd c [group, mask, persist] s.dev))

/-- FAULT_LOG_READ (R534). -/
def execFaultLogRead (c : AdminCtx) (first count : Nat) (s : State) : Host.Outcome State Fault Refusal :=
  .next (s.commit (adminRow adminCmds faultLogReadCmd c [first, count] s.dev))

/-- TALLY_START (R527). -/
def execTallyStart (c : AdminCtx) (hp ring m period groups portMaskLo portMaskHi hostMask : Nat) (s : State) : Host.Outcome State Fault Refusal :=
  .next (s.commit (adminRow adminCmds tallyStartCmd c [hp, ring, m, period, groups, portMaskLo, portMaskHi, hostMask] s.dev))

/-- TALLY_STOP (R534). -/
def execTallyStop (c : AdminCtx) (s : State) : Host.Outcome State Fault Refusal := .next (s.commit (adminRow adminCmds tallyStopCmd c [] s.dev))

/-- COUNTER_CHAIN (R524). -/
def execCounterChain (c : AdminCtx) (offset chain : Nat) (s : State) : Host.Outcome State Fault Refusal :=
  .next (s.commit (adminRow adminCmds counterChainCmd c [offset, chain] s.dev))

/-- COUNTER_CLEAR (R525). -/
def execCounterClear (c : AdminCtx) (blk inst : Nat) (s : State) : Host.Outcome State Fault Refusal :=
  .next (s.commit (adminRow adminCmds counterClearCmd c [blk, inst] s.dev))

/-- COUNTER_WRAP_CLEAR (R523). -/
def execCounterWrapClear (c : AdminCtx) (offset : Nat) (s : State) : Host.Outcome State Fault Refusal :=
  .next (s.commit (adminRow adminCmds counterWrapClearCmd c [offset] s.dev))

end Sys2Proof.Machine
end

