-- ==== Sys2Proof/Machine/FaultCmds.lean ====
section
/-! DEFINITION. Errors, containment, the log and wear (R10 to R13, R510 to R522): one meaning per command. -/

namespace Sys2Proof.Machine

/-- SRAM_ECC_ERROR (R13). -/
def execSramEccError (blk : SramBlock) (uncorrectable : Bool) (obj : Option Nat) (s : State) : Host.Outcome State Fault Refusal :=
  .next (s.commit (sramEcc blk uncorrectable obj s.dev))

/-- DIE_LINK_FAIL (R11). -/
def execDieLinkFail (die : Fin 8) (s : State) : Host.Outcome State Fault Refusal := .next (s.commit (Sys2Proof.Machine.dieLinkFail die.val s.dev))

/-- CONTAINMENT_ACTION (R519). -/
def execContainmentAction (source : Nat) (s : State) : Host.Outcome State Fault Refusal :=
  .next (s.commit (Sys2Proof.Machine.containmentAction source s.dev))

/-- KILN_LOG_WRITE (R522). -/
def execKilnLogWrite (s : State) : Host.Outcome State Fault Refusal := .next (s.commit (Sys2Proof.Machine.kilnLogWrite s.dev))

/-- WEAR_UPDATE (R483). -/
def execWearUpdate (s : State) : Host.Outcome State Fault Refusal := .next (s.commit (Sys2Proof.Machine.wearUpdate s.dev))

/-- LOCKSTEP (R512). -/
def execLockstep (s : State) : Host.Outcome State Fault Refusal := .next (s.commit (raise (srcWin 1 2) s.dev))

/-- CONTROLLER_UNCORRECTABLE (R400). -/
def execControllerUncorrectable (hp : HostNo) (s : State) : Host.Outcome State Fault Refusal :=
  .next (s.commit (Sys2Proof.Machine.controllerUncorrectable hp s.dev))

/-- CORRECTABLE_LINK_ERROR (R400). -/
def execCorrectableLinkError (hp : HostNo) (s : State) : Host.Outcome State Fault Refusal :=
  .next (s.commit (Sys2Proof.Machine.correctableLinkError hp s.dev))

end Sys2Proof.Machine
end

