-- ==== Sys2Proof/Machine/HostAdmin.lean ====
section
/-! DEFINITION. Admin commands 0x0Bxx (R402): one meaning per command. -/

namespace Sys2Proof.Machine

/-- HOST_QUERY (R403). -/
def execHostQuery (c : AdminCtx) (hp : Nat) (s : State) : Host.Outcome State Fault Refusal :=
  .next (s.commit (adminRow adminCmds hostQueryCmd c [hp] s.dev))

/-- HOST_FUNC_CONFIG (R403). -/
def execHostFuncConfig (c : AdminCtx) (hp totalVfs pfVec vfVec persist : Nat) (s : State) : Host.Outcome State Fault Refusal :=
  .next (s.commit (adminRow adminCmds hostFuncConfigCmd c [hp, totalVfs, pfVec, vfVec, persist] s.dev))

/-- HOST_SPLIT_SET (R373). -/
def execHostSplitSet (c : AdminCtx) (ctl split persist : Nat) (s : State) : Host.Outcome State Fault Refusal :=
  .next (s.commit (adminRow adminCmds hostSplitSetCmd c [ctl, split, persist] s.dev))

/-- HOST_SLOT_SET (R392). -/
def execHostSlotSet (c : AdminCtx) (hp auto autoPwr pwrEn attnInd pwrInd notify persist : Nat) (s : State) : Host.Outcome State Fault Refusal :=
  .next (s.commit (adminRow adminCmds hostSlotSetCmd c [hp, auto, autoPwr, pwrEn, attnInd, pwrInd, notify, persist] s.dev))

/-- HOST_SLOT_REMOVE (R392). -/
def execHostSlotRemove (c : AdminCtx) (hp : Nat) (s : State) : Host.Outcome State Fault Refusal :=
  .next (s.commit (adminRow adminCmds hostSlotRemoveCmd c [hp] s.dev))

/-- HOST_WAKE (R386). -/
def execHostWake (c : AdminCtx) (hp : Nat) (s : State) : Host.Outcome State Fault Refusal :=
  .next (s.commit (adminRow adminCmds hostWakeCmd c [hp] s.dev))

end Sys2Proof.Machine
end

