-- ==== Sys2Proof/Machine/HostCmds.lean ====
section
/-! DEFINITION. Host ports, slots and interrupts (R86, R373 to R400): one meaning per command. -/

namespace Sys2Proof.Machine

/-- MSIX_UNMASK (R383). -/
def execMsixUnmask (f : Func) (vector : Nat) (cond : MsixCond) (s : State) : Host.Outcome State Fault Refusal :=
  .next (s.commit (Sys2Proof.Machine.msixUnmask f vector cond s.dev))

/-- EQ_MODERATION_TIMER (R86). -/
def execEqModerationTimer (f : Func) (eq : Nat) (s : State) : Host.Outcome State Fault Refusal := .next (s.commit (moderationEnd f eq s.dev))

/-- FLR (R394). -/
def execFlr (f : Func) (s : State) : Host.Outcome State Fault Refusal := .next (s.commit (Sys2Proof.Machine.flr f s.dev))

/-- VF_DISABLE (R394). -/
def execVfDisable (hp : HostNo) (s : State) : Host.Outcome State Fault Refusal := .next (s.commit (Sys2Proof.Machine.vfDisable hp s.dev))

/-- D3HOT_ENTRY (R385). -/
def execD3hotEntry (f : Func) (s : State) : Host.Outcome State Fault Refusal := .next (s.commit (Sys2Proof.Machine.d3hotEntry f s.dev))

/-- BUS_MASTER_DISABLE (R540). -/
def execBusMasterDisable (f : Func) (s : State) : Host.Outcome State Fault Refusal := .next (s.commit (Sys2Proof.Machine.busMasterDisable f s.dev))

/-- PERST_ASSERT (R394). -/
def execPerstAssert (hp : HostNo) (s : State) : Host.Outcome State Fault Refusal := .next (s.commit (Sys2Proof.Machine.perstAssert hp s.dev))

/-- PERST_DEASSERT (R398). -/
def execPerstDeassert (hp : HostNo) (s : State) : Host.Outcome State Fault Refusal := .next (s.commit (Sys2Proof.Machine.perstDeassert hp s.dev))

/-- HOT_RESET (R394). -/
def execHotReset (hp : HostNo) (s : State) : Host.Outcome State Fault Refusal := .next (s.commit (Sys2Proof.Machine.hotReset hp s.dev))

/-- HOST_LINK_DOWN (R394). -/
def execHostLinkDown (hp : HostNo) (s : State) : Host.Outcome State Fault Refusal := .next (s.commit (Sys2Proof.Machine.hostLinkDown hp s.dev))

/-- DL_ACTIVE_REACHED (R399). -/
def execDlActiveReached (hp : HostNo) (speed width : Nat) (flit : Bool) (s : State) : Host.Outcome State Fault Refusal :=
  .next (s.commit (dlActive hp speed width flit s.dev))

/-- HOST_LOSS_DESTROY (R396). -/
def execHostLossDestroy (hp : HostNo) (s : State) : Host.Outcome State Fault Refusal := .next (s.commit (lossDestroy hp s.dev))

/-- PRESENCE_TAKEN (R392). -/
def execPresenceTaken (hp : HostNo) (s : State) : Host.Outcome State Fault Refusal := .next (s.commit (Sys2Proof.Machine.presenceTaken hp s.dev))

/-- PRESENCE_LOST (R392). -/
def execPresenceLost (hp : HostNo) (s : State) : Host.Outcome State Fault Refusal := .next (s.commit (Sys2Proof.Machine.presenceLost hp s.dev))

/-- POWER_FAULT_TAKEN (R392). -/
def execPowerFaultTaken (hp : HostNo) (s : State) : Host.Outcome State Fault Refusal := .next (s.commit (Sys2Proof.Machine.powerFaultTaken hp s.dev))

/-- BUTTON_PRESS (R391). -/
def execButtonPress (hp : HostNo) (s : State) : Host.Outcome State Fault Refusal := .next (s.commit (Sys2Proof.Machine.buttonPress hp s.dev))

/-- POWERING_DONE (R392). -/
def execPoweringDone (hp : HostNo) (s : State) : Host.Outcome State Fault Refusal := .next (s.commit (Sys2Proof.Machine.poweringDone hp s.dev))

/-- RETURN_TO_D0 (R385). -/
def execReturnToD0 (f : Func) (s : State) : Host.Outcome State Fault Refusal := .next (s.commit (Sys2Proof.Machine.returnToD0 f s.dev))

end Sys2Proof.Machine
end

