-- ==== Sys2Proof/Machine/HostReadCmds.lean ====
section
/-! DEFINITION. Completions of reads of host memory (R389, R390): one meaning per command. -/

namespace Sys2Proof.Machine

/-- RING_ENTRY_ARRIVAL (R72). -/
def execRingEntryArrival (req : Nat) (status : RdStatus) (data : List Byte) (s : State) : Host.Outcome State Fault Refusal :=
  .next (s.commit (npComplete req status data s.dev))

/-- CONTEXT_FETCH_COMPLETE (R90). -/
def execContextFetchComplete (req : Nat) (status : RdStatus) (data : List Byte) (s : State) : Host.Outcome State Fault Refusal :=
  .next (s.commit (npComplete req status data s.dev))

/-- ATOMIC_READ_COMPLETE (R130). -/
def execAtomicReadComplete (req : Nat) (status : RdStatus) (data : List Byte) (s : State) : Host.Outcome State Fault Refusal :=
  .next (s.commit (npComplete req status data s.dev))

/-- FLUSH_READ_COMPLETE (R122). -/
def execFlushReadComplete (req : Nat) (status : RdStatus) (s : State) : Host.Outcome State Fault Refusal :=
  .next (s.commit (npComplete req status [] s.dev))

/-- HOST_READ_COMPLETE (R390). -/
def execHostReadComplete (req : Nat) (status : RdStatus) (data : List Byte) (s : State) : Host.Outcome State Fault Refusal :=
  .next (s.commit (npComplete req status data s.dev))

/-- WALK_READ_COMPLETE (R108). -/
def execWalkReadComplete (req : Nat) (status : RdStatus) (data : List Byte) (s : State) : Host.Outcome State Fault Refusal :=
  .next (s.commit (npComplete req status data s.dev))

/-- HEAD_WORD_READ_COMPLETE (R83). -/
def execHeadWordReadComplete (req : Nat) (status : RdStatus) (data : List Byte) (s : State) : Host.Outcome State Fault Refusal :=
  .next (s.commit (npComplete req status data s.dev))

/-- COMPLETION_TIMEOUT (R390). -/
def execCompletionTimeout (req : Nat) (s : State) : Host.Outcome State Fault Refusal := .next (s.commit (npComplete req .timeout [] s.dev))

end Sys2Proof.Machine
end

