-- ==== Sys2Proof/Machine/IdentityAdmin.lean ====
section
/-! DEFINITION. Admin commands 0x01xx (R440): one meaning per command. -/

namespace Sys2Proof.Machine

/-- IDENTIFY (R440). -/
def execIdentify (c : AdminCtx) (s : State) : Host.Outcome State Fault Refusal := .next (s.commit (adminRow adminCmds identifyCmd c [] s.dev))

/-- CAPS_QUERY (R440). -/
def execCapsQuery (c : AdminCtx) (s : State) : Host.Outcome State Fault Refusal := .next (s.commit (adminRow adminCmds capsQueryCmd c [] s.dev))

/-- ECHO (R440). -/
def execEcho (c : AdminCtx) (lo hi : Nat) (s : State) : Host.Outcome State Fault Refusal :=
  .next (s.commit (adminRow adminCmds echoCmd c [lo, hi] s.dev))

/-- ADMIN_STATS (R440). -/
def execAdminStats (c : AdminCtx) (s : State) : Host.Outcome State Fault Refusal := .next (s.commit (adminRow adminCmds adminStatsCmd c [] s.dev))

end Sys2Proof.Machine
end

