-- ==== Sys2Proof/Machine/LaneAdmin.lean ====
section
/-! DEFINITION. Admin commands 0x09xx (R350): one meaning per command. -/

namespace Sys2Proof.Machine

/-- LANE_QUERY (R350). -/
def execLaneQuery (c : AdminCtx) (port : Nat) (s : State) : Host.Outcome State Fault Refusal :=
  .next (s.commit (adminRow adminCmds laneQueryCmd c [port] s.dev))

/-- LANE_RETRAIN (R338). -/
def execLaneRetrain (c : AdminCtx) (port kind lane : Nat) (s : State) : Host.Outcome State Fault Refusal :=
  .next (s.commit (adminRow adminCmds laneRetrainCmd c [port, kind, lane] s.dev))

/-- LANE_HISTORY_CLEAR (R350). -/
def execLaneHistoryClear (c : AdminCtx) (port : Nat) (s : State) : Host.Outcome State Fault Refusal :=
  .next (s.commit (adminRow adminCmds laneHistoryClearCmd c [port] s.dev))

/-- CLOCK_PARENT_SET (R330). -/
def execClockParentSet (c : AdminCtx) (p0 p1 p2 p3 : Nat) (s : State) : Host.Outcome State Fault Refusal :=
  .next (s.commit (adminRow adminCmds clockParentSetCmd c [p0, p1, p2, p3] s.dev))

/-- CLOCK_PARENT_QUERY (R350). -/
def execClockParentQuery (c : AdminCtx) (s : State) : Host.Outcome State Fault Refusal :=
  .next (s.commit (adminRow adminCmds clockParentQueryCmd c [] s.dev))

/-- LANE_TEST_ENTER (R343). -/
def execLaneTestEnter (c : AdminCtx) (port remoteAllow : Nat) (s : State) : Host.Outcome State Fault Refusal :=
  .next (s.commit (adminRow adminCmds laneTestEnterCmd c [port, remoteAllow] s.dev))

/-- LANE_TEST_EXIT (R343). -/
def execLaneTestExit (c : AdminCtx) (port : Nat) (s : State) : Host.Outcome State Fault Refusal :=
  .next (s.commit (adminRow adminCmds laneTestExitCmd c [port] s.dev))

/-- LANE_PATTERN_SET (R342). -/
def execLanePatternSet (c : AdminCtx) (port mask gen chk user : Nat) (s : State) : Host.Outcome State Fault Refusal :=
  .next (s.commit (adminRow adminCmds lanePatternSetCmd c [port, mask, gen, chk, user] s.dev))

/-- LANE_LOOPBACK_SET (R344). -/
def execLaneLoopbackSet (c : AdminCtx) (port kind mask : Nat) (s : State) : Host.Outcome State Fault Refusal :=
  .next (s.commit (adminRow adminCmds laneLoopbackSetCmd c [port, kind, mask] s.dev))

/-- LANE_ERR_INJECT (R345). -/
def execLaneErrInject (c : AdminCtx) (port lane kind count stop : Nat) (s : State) : Host.Outcome State Fault Refusal :=
  .next (s.commit (adminRow adminCmds laneErrInjectCmd c [port, lane, kind, count, stop] s.dev))

/-- LANE_EYE_SCAN (R346). -/
def execLaneEyeScan (c : AdminCtx) (port lane eye ph0 ph1 phStep of0 of1 ofStep dwell result : Nat) (s : State) : Host.Outcome State Fault Refusal :=
  .next (s.commit (adminRow adminCmds laneEyeScanCmd c [port, lane, eye, ph0, ph1, phStep, of0, of1, ofStep, dwell, result] s.dev))

/-- LANE_PRBS_READ (R350). -/
def execLanePrbsRead (c : AdminCtx) (port : Nat) (s : State) : Host.Outcome State Fault Refusal :=
  .next (s.commit (adminRow adminCmds lanePrbsReadCmd c [port] s.dev))

/-- CAGE_SET (R348). -/
def execCageSet (c : AdminCtx) (port auto autoPwr pwrEn indA indB : Nat) (s : State) : Host.Outcome State Fault Refusal :=
  .next (s.commit (adminRow adminCmds cageSetCmd c [port, auto, autoPwr, pwrEn, indA, indB] s.dev))

end Sys2Proof.Machine
end

