-- ==== Sys2Proof/Machine/LaneCmds.lean ====
section
/-! DEFINITION. Lanes, training and cages (R318 to R348): one meaning per command. -/

namespace Sys2Proof.Machine

/-- ISB_SCAN (R347). -/
def execIsbScan (din : BitVec 512) (s : State) : Host.Outcome State Fault Refusal := .next (s.commit (Sys2Proof.Machine.isbScan din s.dev))

/-- SERVICE_SYNC_ACQUIRE (R323). -/
def execServiceSyncAcquire (port : PortNo) (s : State) : Host.Outcome State Fault Refusal := .next (s.commit (syncGain port s.dev))

/-- SERVICE_SYNC_LOSS (R323). -/
def execServiceSyncLoss (port : PortNo) (s : State) : Host.Outcome State Fault Refusal := .next (s.commit (syncLoss port s.dev))

/-- CLK_TOLERANCE_LOSS (R332). -/
def execClkToleranceLoss (port : PortNo) (s : State) : Host.Outcome State Fault Refusal := .next (s.commit (clkLoss port s.dev))

/-- CODEWORD_LOCK_LOSS (R322). -/
def execCodewordLockLoss (port : PortNo) (s : State) : Host.Outcome State Fault Refusal := .next (s.commit (lockLoss port s.dev))

/-- TRAIN_REQ (R336). -/
def execTrainReq (port : PortNo) (fr : Frame) (s : State) : Host.Outcome State Fault Refusal := .next (s.commit (frameIn port fr s.dev))

/-- TRAIN_RSP (R336). -/
def execTrainRsp (port : PortNo) (fr : Frame) (s : State) : Host.Outcome State Fault Refusal := .next (s.commit (frameIn port fr s.dev))

/-- TRAIN_REQ_RESEND (R336). -/
def execTrainReqResend (port : PortNo) (lane : Fin 2) (s : State) : Host.Outcome State Fault Refusal :=
  .next (s.commit (trainResend port lane.val s.dev))

/-- TRAIN_STATE (R334). -/
def execTrainState (port : PortNo) (fr : Frame) (s : State) : Host.Outcome State Fault Refusal := .next (s.commit (frameIn port fr s.dev))

/-- TRAIN_STATE_SEND (R327). -/
def execTrainStateSend (port : PortNo) (s : State) : Host.Outcome State Fault Refusal := .next (s.commit (stateTick port s.dev))

/-- IDENTITY (R335). -/
def execIdentity (port : PortNo) (fr : Frame) (s : State) : Host.Outcome State Fault Refusal := .next (s.commit (frameIn port fr s.dev))

/-- IDENTITY_SEND (R335). -/
def execIdentitySend (port : PortNo) (s : State) : Host.Outcome State Fault Refusal := .next (s.commit (identityTick port s.dev))

/-- IDENTITY_RETRY (R335). -/
def execIdentityRetry (port : PortNo) (s : State) : Host.Outcome State Fault Refusal := .next (s.commit (holdEnd port .oneS s.dev))

/-- LANE_READY (R336). -/
def execLaneReady (port : PortNo) (lane : Fin 2) (errors : Nat) (s : State) : Host.Outcome State Fault Refusal :=
  .next (s.commit (Sys2Proof.Machine.laneReady port lane.val errors s.dev))

/-- ALIGN_LOCK (R337). -/
def execAlignLock (port : PortNo) (lane : Fin 2) (s : State) : Host.Outcome State Fault Refusal :=
  .next (s.commit (Sys2Proof.Machine.alignLock port lane.val s.dev))

/-- PORT_ENTER_SERVICE (R334). -/
def execPortEnterService (port : PortNo) (s : State) : Host.Outcome State Fault Refusal := .next (s.commit (portActive port s.dev))

/-- EQ_LIMIT_EXPIRY (R337). -/
def execEqLimitExpiry (port : PortNo) (s : State) : Host.Outcome State Fault Refusal := .next (s.commit (eqLimit port s.dev))

/-- BRINGUP_RETRY (R337). -/
def execBringupRetry (port : PortNo) (s : State) : Host.Outcome State Fault Refusal := .next (s.commit (holdEnd port .tenMs s.dev))

/-- TRAINING_HISTORY_WRITE (R337). -/
def execTrainingHistoryWrite (port : PortNo) (s : State) : Host.Outcome State Fault Refusal := .next (s.commit (histWrite port s.dev))

/-- LEARNING_EXPIRY (R278). -/
def execLearningExpiry (port : PortNo) (s : State) : Host.Outcome State Fault Refusal := .next (s.commit (learned port s.dev))

/-- PROPOSE (R340). -/
def execPropose (port : PortNo) (fr : Frame) (s : State) : Host.Outcome State Fault Refusal := .next (s.commit (frameIn port fr s.dev))

/-- ACCEPT (R338). -/
def execAccept (port : PortNo) (fr : Frame) (s : State) : Host.Outcome State Fault Refusal := .next (s.commit (frameIn port fr s.dev))

/-- REJECT (R339). -/
def execReject (port : PortNo) (fr : Frame) (s : State) : Host.Outcome State Fault Refusal := .next (s.commit (frameIn port fr s.dev))

/-- DONE (R338). -/
def execDone (port : PortNo) (fr : Frame) (s : State) : Host.Outcome State Fault Refusal := .next (s.commit (frameIn port fr s.dev))

/-- PROPOSE_RESEND (R338). -/
def execProposeResend (port : PortNo) (s : State) : Host.Outcome State Fault Refusal := .next (s.commit (proposeAgain port s.dev))

/-- PROPOSAL_ABANDON (R338). -/
def execProposalAbandon (port : PortNo) (s : State) : Host.Outcome State Fault Refusal := .next (s.commit (proposeDrop port s.dev))

/-- RETRAIN_TIMEOUT (R339). -/
def execRetrainTimeout (port : PortNo) (s : State) : Host.Outcome State Fault Refusal := .next (s.commit (retrainLate port s.dev))

/-- LINK_HEALTH (R338). -/
def execLinkHealth (port : PortNo) (fr : Frame) (s : State) : Host.Outcome State Fault Refusal := .next (s.commit (frameIn port fr s.dev))

/-- LINK_HEALTH_SEND (R327). -/
def execLinkHealthSend (port : PortNo) (eye0 eye1 : BitVec 7) (s : State) : Host.Outcome State Fault Refusal :=
  .next (s.commit (healthSend port eye0.toNat eye1.toNat s.dev))

/-- LOOPBACK (R344). -/
def execLoopback (port : PortNo) (fr : Frame) (s : State) : Host.Outcome State Fault Refusal := .next (s.commit (frameIn port fr s.dev))

/-- HEALTH_PERIOD (R315). -/
def execHealthPeriod (port : PortNo) (s : State) : Host.Outcome State Fault Refusal := .next (s.commit (Sys2Proof.Machine.healthPeriod port s.dev))

/-- CLK_OK_RESTORED (R332). -/
def execClkOkRestored (port : PortNo) (s : State) : Host.Outcome State Fault Refusal := .next (s.commit (clkGain port s.dev))

/-- PRBS_CHECKER_LOCK (R342). -/
def execPrbsCheckerLock (port : PortNo) (lane : Fin 3) (s : State) : Host.Outcome State Fault Refusal :=
  .next (s.commit (prbsLock port lane.val s.dev))

end Sys2Proof.Machine
end

