-- ==== Sys2Proof/Machine/LinkCmds.lean ====
section
/-! DEFINITION. The link layer (R300 to R316): one meaning per command. -/

namespace Sys2Proof.Machine

/-- LINK_ACK (R308). -/
def execLinkAck (port : PortNo) (fr : Frame) (s : State) : Host.Outcome State Fault Refusal := .next (s.commit (frameIn port fr s.dev))

/-- DOWN_HOLD_EXPIRY (R314). -/
def execDownHoldExpiry (port : PortNo) (s : State) : Host.Outcome State Fault Refusal := .next (s.commit (holdEnd port .tenMs s.dev))

/-- HEADER_BEAD_ARRIVAL (R303). -/
def execHeaderBeadArrival (port : PortNo) (b : Bead) (s : State) : Host.Outcome State Fault Refusal := .next (s.commit (beadIn port b s.dev))

/-- BEAD_ARRIVAL (R303). -/
def execBeadArrival (port : PortNo) (b : Bead) (s : State) : Host.Outcome State Fault Refusal := .next (s.commit (beadIn port b s.dev))

/-- LINK_ACK_TIMER (R306). -/
def execLinkAckTimer (port : PortNo) (s : State) : Host.Outcome State Fault Refusal :=
  .next (s.commit (Sys2Proof.Machine.linkAckTimer port.val s.dev))

/-- REPLAY_TIMER (R309). -/
def execReplayTimer (port : PortNo) (s : State) : Host.Outcome State Fault Refusal := .next (s.commit (replayExpire port s.dev))

/-- REPLAY_COMPLETE (R309). -/
def execReplayComplete (port : PortNo) (s : State) : Host.Outcome State Fault Refusal := .next (s.commit (replayDone port s.dev))

/-- RTT_PERIOD (R311). -/
def execRttPeriod (port : PortNo) (s : State) : Host.Outcome State Fault Refusal := .next (s.commit (rttPeriodEnd port s.dev))

/-- LINK_TRANSMIT_START (R302). -/
def execLinkTransmitStart (port : PortNo) (s : State) : Host.Outcome State Fault Refusal := .next (s.commit (transmitStart port s.dev))

end Sys2Proof.Machine
end

