-- ==== Sys2Proof/Machine/MatchAdmin.lean ====
section
/-! DEFINITION. Admin commands 0x05xx (R170): one meaning per command. -/

namespace Sys2Proof.Machine

/-- MATCH_CTX_CREATE (R150). -/
def execMatchCtxCreate (c : AdminCtx) (ep recBase uBase b spBase sz : Nat) (s : State) : Host.Outcome State Fault Refusal :=
  .next (s.commit (adminRow adminCmds matchCtxCreateCmd c [ep, recBase, uBase, b, spBase, sz] s.dev))

/-- MATCH_CTX_DESTROY (R171). -/
def execMatchCtxDestroy (c : AdminCtx) (ep : Nat) (s : State) : Host.Outcome State Fault Refusal :=
  .next (s.commit (adminRow adminCmds matchCtxDestroyCmd c [ep] s.dev))

/-- MATCH_QUERY (R171). -/
def execMatchQuery (c : AdminCtx) (ep : Nat) (s : State) : Host.Outcome State Fault Refusal :=
  .next (s.commit (adminRow adminCmds matchQueryCmd c [ep] s.dev))

/-- MATCH_PROBE (R171). -/
def execMatchProbe (c : AdminCtx) (ep comm srcRank tag ignoreLow anySrc : Nat) (s : State) : Host.Outcome State Fault Refusal :=
  .next (s.commit (adminRow adminCmds matchProbeCmd c [ep, comm, srcRank, tag, ignoreLow, anySrc] s.dev))

end Sys2Proof.Machine
end

