-- ==== Sys2Proof/Machine/MgfCmds.lean ====
section
/-! DEFINITION. The management FIFOs (R441 to R446): one meaning per command. -/

namespace Sys2Proof.Machine

/-- TX_DATA (R442). -/
def execTxData (m : Master) (word : BitVec 64) (s : State) : Host.Outcome State Fault Refusal :=
  .next (s.commit (regWrite m (MGF + 0x050) 64 word.toNat false s.dev))

/-- TX_END (R442). -/
def execTxEnd (m : Master) (word : BitVec 64) (s : State) : Host.Outcome State Fault Refusal :=
  .next (s.commit (regWrite m (MGF + 0x058) 64 word.toNat false s.dev))

/-- RX_DATA_READ (R444). -/
def execRxDataRead (m : Master) (width : Nat) (s : State) : Host.Outcome State Fault Refusal := .next (s.commit (regRead m (MGF + 0x040) width s.dev))

/-- RX_DATA_STALL_END (R445). -/
def execRxDataStallEnd (m : Master) (s : State) : Host.Outcome State Fault Refusal := .next (s.commit (stallEnd m s.dev))

/-- FLUSH_RX (R446). -/
def execFlushRx (m : Master) (s : State) : Host.Outcome State Fault Refusal := .next (s.commit (regWrite m (MGF + 0x038) 32 1 false s.dev))

/-- FLUSH_TX (R446). -/
def execFlushTx (m : Master) (s : State) : Host.Outcome State Fault Refusal := .next (s.commit (regWrite m (MGF + 0x038) 32 2 false s.dev))

/-- FLUSH_TAKE_EFFECT (R446). -/
def execFlushTakeEffect (rx : Bool) (s : State) : Host.Outcome State Fault Refusal := .next (s.commit (flushGo rx s.dev))

/-- MGMT_RX (R441). -/
def execMgmtRx (st : Strand) (s : State) : Host.Outcome State Fault Refusal := .next (s.commit (mgmtIn st s.dev))

/-- REMOTE_ADMIN (R443). -/
def execRemoteAdmin (st : Strand) (s : State) : Host.Outcome State Fault Refusal := .next (s.commit (mgmtIn st s.dev))

/-- DATA_WRITE (R443). -/
def execDataWrite (st : Strand) (s : State) : Host.Outcome State Fault Refusal := .next (s.commit (mgmtIn st s.dev))

/-- DATA_READ (R443). -/
def execDataRead (st : Strand) (s : State) : Host.Outcome State Fault Refusal := .next (s.commit (mgmtIn st s.dev))

end Sys2Proof.Machine
end

