-- ==== Sys2Proof/Machine/PowerAdmin.lean ====
section
/-! DEFINITION. Admin commands 0x0Dxx (R507): one meaning per command. -/

namespace Sys2Proof.Machine

/-- PWR_QUERY (R509). -/
def execPwrQuery (c : AdminCtx) (s : State) : Host.Outcome State Fault Refusal := .next (s.commit (adminRow adminCmds pwrQueryCmd c [] s.dev))

/-- PWR_LIMIT_SET (R509). -/
def execPwrLimitSet (c : AdminCtx) (slew droop stretch persist : Nat) (s : State) : Host.Outcome State Fault Refusal :=
  .next (s.commit (adminRow adminCmds pwrLimitSetCmd c [slew, droop, stretch, persist] s.dev))

/-- PWR_THERMAL_SET (R509). -/
def execPwrThermalSet (c : AdminCtx) (warn thr1 thr2 persist : Nat) (s : State) : Host.Outcome State Fault Refusal :=
  .next (s.commit (adminRow adminCmds pwrThermalSetCmd c [warn, thr1, thr2, persist] s.dev))

/-- PWR_RAIL_MAP (R509). -/
def execPwrRailMap (c : AdminCtx) (rail addr page persist : Nat) (s : State) : Host.Outcome State Fault Refusal :=
  .next (s.commit (adminRow adminCmds pwrRailMapCmd c [rail, addr, page, persist] s.dev))

/-- PWR_PREWARN_FORCE (R500). -/
def execPwrPrewarnForce (c : AdminCtx) (mask duration : Nat) (s : State) : Host.Outcome State Fault Refusal :=
  .next (s.commit (adminRow adminCmds pwrPrewarnForceCmd c [mask, duration] s.dev))

/-- PWR_SENSOR_READ (R509). -/
def execPwrSensorRead (c : AdminCtx) (s : State) : Host.Outcome State Fault Refusal :=
  .next (s.commit (adminRow adminCmds pwrSensorReadCmd c [] s.dev))

end Sys2Proof.Machine
end

