-- ==== Sys2Proof/Machine/PowerCmds.lean ====
section
/-! DEFINITION. The power manager (R490 to R502): one meaning per command. -/

namespace Sys2Proof.Machine

/-- THERMAL_READING (R501). -/
def execThermalReading (readings : List Int) (s : State) : Host.Outcome State Fault Refusal :=
  .next (s.commit (Sys2Proof.Machine.thermalReading readings s.dev))

/-- THERMTRIP (R502). -/
def execThermtrip (reading : Int) (s : State) : Host.Outcome State Fault Refusal := .next (s.commit (Sys2Proof.Machine.thermtrip reading s.dev))

/-- DROOP_DETECT (R498). -/
def execDroopDetect (mvBelow : Nat) (s : State) : Host.Outcome State Fault Refusal := .next (s.commit (Sys2Proof.Machine.droopDetect mvBelow s.dev))

/-- DROOP_END (R498). -/
def execDroopEnd (s : State) : Host.Outcome State Fault Refusal := .next (s.commit (Sys2Proof.Machine.droopEnd s.dev))

/-- DROOP_LONG (R499). -/
def execDroopLong (s : State) : Host.Outcome State Fault Refusal := .next (s.commit (Sys2Proof.Machine.droopLong s.dev))

/-- SLEW_GRANT_REQUEST (R495). -/
def execSlewGrantRequest (blk : SlewBlock) (rise : Bool) (amount : Nat) (s : State) : Host.Outcome State Fault Refusal :=
  .next (s.commit (slewRequest blk rise amount s.dev))

/-- PMBUS_POLL (R494). -/
def execPmbusPoll (rails : List RailReading) (s : State) : Host.Outcome State Fault Refusal :=
  .next (s.commit (Sys2Proof.Machine.pmbusPoll rails s.dev))

/-- PM_ALERT (R494). -/
def execPmAlert (rails : List RailReading) (s : State) : Host.Outcome State Fault Refusal :=
  .next (s.commit (Sys2Proof.Machine.pmbusPoll rails s.dev))

/-- AVS_STEP (R493). -/
def execAvsStep (measured : Option Nat) (s : State) : Host.Outcome State Fault Refusal := .next (s.commit (Sys2Proof.Machine.avsStep measured s.dev))

/-- PREWARN_FORCE_EXPIRY (R500). -/
def execPrewarnForceExpiry (s : State) : Host.Outcome State Fault Refusal := .next (s.commit (prewarnForce 0 s.dev))

end Sys2Proof.Machine
end

