-- ==== Sys2Proof/Machine/RegisterCmds.lean ====
section
/-! DEFINITION. Register accesses and doorbells (R418 to R425): one meaning per command. -/

namespace Sys2Proof.Machine

/-- CTRL_EN_SET (R424). -/
def execCtrlEnSet (m : Master) (off value : Nat) (s : State) : Host.Outcome State Fault Refusal :=
  .next (s.commit (regWrite m off 32 value false s.dev))

/-- CTRL_EN_CLEAR (R424). -/
def execCtrlEnClear (m : Master) (off value : Nat) (s : State) : Host.Outcome State Fault Refusal :=
  .next (s.commit (regWrite m off 32 value false s.dev))

/-- REGISTER_WRITE (R421). -/
def execRegisterWrite (m : Master) (off width value : Nat) (poisoned : Bool) (s : State) : Host.Outcome State Fault Refusal :=
  .next (s.commit (regWrite m off width value poisoned s.dev))

/-- RESERVE_PEAK_READ (R421). -/
def execReservePeakRead (m : Master) (s : State) : Host.Outcome State Fault Refusal := .next (s.commit (regRead m (RTR + 0x068) 32 s.dev))

/-- TIME_NOW_LATCH (R366). -/
def execTimeNowLatch (m : Master) (s : State) : Host.Outcome State Fault Refusal := .next (s.commit (regRead m (TIME + 0x040) 32 s.dev))

/-- CHAINED_COUNTER_READ (R524). -/
def execChainedCounterRead (m : Master) (off : Nat) (s : State) : Host.Outcome State Fault Refusal := .next (s.commit (regRead m off 64 s.dev))

/-- DOORBELL_WRITE (R57). -/
def execDoorbellWrite (f : Func) (off len : Nat) (poisoned : Bool) (s : State) : Host.Outcome State Fault Refusal :=
  .next (s.commit (Sys2Proof.Machine.doorbellWrite f off len poisoned s.dev))

/-- CQ_ARM (R84). -/
def execCqArm (f : Func) (cq : Nat) (s : State) : Host.Outcome State Fault Refusal :=
  .next (s.commit (regWrite (.host f) (HOSTB f.hp.val + 0x380) 32 cq false s.dev))

/-- DMA_KICK (R409). -/
def execDmaKick (m : Master) (ch : Fin 64) (s : State) : Host.Outcome State Fault Refusal :=
  .next (s.commit (regWrite m (DMA + 0x030) 32 ch.val false s.dev))

/-- FENCE_REQ (R460). -/
def execFenceReq (m : Master) (logical : Fin 64) (s : State) : Host.Outcome State Fault Refusal :=
  .next (s.commit (regWrite m (EMBER + 0x028) 32 logical.val false s.dev))

/-- FLT_FORCE (R518). -/
def execFltForce (m : Master) (w : Fin 32) (bits : BitVec 32) (s : State) : Host.Outcome State Fault Refusal :=
  .next (s.commit (regWrite m (FLT + 0x180 + 4 * w.val) 32 bits.toNat false s.dev))

/-- FLT_STICKY_CLEAR (R515). -/
def execFltStickyClear (m : Master) (w : Fin 32) (bits : BitVec 32) (s : State) : Host.Outcome State Fault Refusal :=
  .next (s.commit (regWrite m (FLT + 0x100 + 4 * w.val) 32 bits.toNat false s.dev))

end Sys2Proof.Machine
end

