-- ==== Sys2Proof/Machine/ResetCmds.lean ====
section
/-! DEFINITION. Resets, boot, power failure and reference clocks (R17, R461 to R488): one meaning per command. -/

namespace Sys2Proof.Machine

/-- COLD_RESET (R461). -/
def execColdReset (straps : BitVec 4) (s : State) : Host.Outcome State Fault Refusal := .next (s.commit (Sys2Proof.Machine.coldReset straps s.dev))

/-- RESET_PIN_ASSERT (R461). -/
def execResetPinAssert (s : State) : Host.Outcome State Fault Refusal := .next (s.commit (resetPin s.dev))

/-- DEVICE_LEVEL_RESET (R462). -/
def execDeviceLevelReset (s : State) : Host.Outcome State Fault Refusal := .next (s.commit (resetDue s.dev))

/-- BOOT_SEQUENCE (R466). -/
def execBootSequence (failedEngines : List (Nat × Nat)) (s : State) : Host.Outcome State Fault Refusal :=
  .next (s.commit (Sys2Proof.Machine.bootSequence failedEngines s.dev))

/-- PFAIL_TAKEN (R484). -/
def execPfailTaken (s : State) : Host.Outcome State Fault Refusal := .next (s.commit (Sys2Proof.Machine.pfailTaken s.dev))

/-- PFAIL_RECOVERED (R488). -/
def execPfailRecovered (s : State) : Host.Outcome State Fault Refusal := .next (s.commit (Sys2Proof.Machine.pfailRecovered s.dev))

/-- POWER_GOOD_FALL (R492). -/
def execPowerGoodFall (s : State) : Host.Outcome State Fault Refusal := .next (s.commit (Sys2Proof.Machine.powerGoodFall s.dev))

/-- REFCLK_A_FAIL (R17). -/
def execRefclkAFail (bWithin : Bool) (s : State) : Host.Outcome State Fault Refusal := .next (s.commit (refclkA bWithin s.dev))

/-- REFCLK_B_FAIL (R17). -/
def execRefclkBFail (s : State) : Host.Outcome State Fault Refusal := .next (s.commit (refclkB s.dev))

end Sys2Proof.Machine
end

