-- ==== Sys2Proof/Machine/RouterAdmin.lean ====
section
/-! DEFINITION. Admin commands 0x08xx (R299): one meaning per command. -/

namespace Sys2Proof.Machine

/-- DEVICE_DA_SET (R299). -/
def execDeviceDaSet (c : AdminCtx) (da persist : Nat) (s : State) : Host.Outcome State Fault Refusal :=
  .next (s.commit (adminRow adminCmds deviceDaSetCmd c [da, persist] s.dev))

/-- PORT_ROLE_SET (R27). -/
def execPortRoleSet (c : AdminCtx) (port role persist : Nat) (s : State) : Host.Outcome State Fault Refusal :=
  .next (s.commit (adminRow adminCmds portRoleSetCmd c [port, role, persist] s.dev))

/-- PORT_DRAIN (R296). -/
def execPortDrain (c : AdminCtx) (port drain : Nat) (s : State) : Host.Outcome State Fault Refusal :=
  .next (s.commit (adminRow adminCmds portDrainCmd c [port, drain] s.dev))

/-- PORT_QUERY (R299). -/
def execPortQuery (c : AdminCtx) (port : Nat) (s : State) : Host.Outcome State Fault Refusal :=
  .next (s.commit (adminRow adminCmds portQueryCmd c [port] s.dev))

/-- ROUTE_LOAD (R291). -/
def execRouteLoad (c : AdminCtx) (version image length allow persist : Nat) (s : State) : Host.Outcome State Fault Refusal :=
  .next (s.commit (adminRow adminCmds routeLoadCmd c [version, image, length, allow, persist] s.dev))

/-- ROUTE_ENTRY_SET (R287). -/
def execRouteEntrySet (c : AdminCtx) (version table index entry allow persist : Nat) (s : State) : Host.Outcome State Fault Refusal :=
  .next (s.commit (adminRow adminCmds routeEntrySetCmd c [version, table, index, entry, allow, persist] s.dev))

/-- ROUTE_ENTRY_READ (R299). -/
def execRouteEntryRead (c : AdminCtx) (version table index : Nat) (s : State) : Host.Outcome State Fault Refusal :=
  .next (s.commit (adminRow adminCmds routeEntryReadCmd c [version, table, index] s.dev))

/-- ROUTE_EPOCH_SET (R288). -/
def execRouteEpochSet (c : AdminCtx) (epoch persist : Nat) (s : State) : Host.Outcome State Fault Refusal :=
  .next (s.commit (adminRow adminCmds routeEpochSetCmd c [epoch, persist] s.dev))

/-- ROUTE_DEFL_SET (R299). -/
def execRouteDeflSet (c : AdminCtx) (port queue dth : Nat) (s : State) : Host.Outcome State Fault Refusal :=
  .next (s.commit (adminRow adminCmds routeDeflSetCmd c [port, queue, dth] s.dev))

/-- ROUTE_PARAM_SET (R299). -/
def execRouteParamSet (c : AdminCtx) (hintW dim seed age : Nat) (s : State) : Host.Outcome State Fault Refusal :=
  .next (s.commit (adminRow adminCmds routeParamSetCmd c [hintW, dim, seed, age] s.dev))

/-- ROUTE_LAND_SET (R299). -/
def execRouteLandSet (c : AdminCtx) (hp trimTh : Nat) (s : State) : Host.Outcome State Fault Refusal :=
  .next (s.commit (adminRow adminCmds routeLandSetCmd c [hp, trimTh] s.dev))

/-- ROUTE_PROBE (R299). -/
def execRouteProbe (c : AdminCtx) (dstDa srcDa epoch vn tc entropy det arrival : Nat) (s : State) : Host.Outcome State Fault Refusal :=
  .next (s.commit (adminRow adminCmds routeProbeCmd c [dstDa, srcDa, epoch, vn, tc, entropy, det, arrival] s.dev))

end Sys2Proof.Machine
end

