-- ==== Sys2Proof/Machine/RouterCmds.lean ====
section
/-! DEFINITION. The router core and the schedulers (R259 to R299): one meaning per command. -/

namespace Sys2Proof.Machine

/-- CONG_HINT (R280). -/
def execCongHint (port : PortNo) (fr : Frame) (s : State) : Host.Outcome State Fault Refusal := .next (s.commit (frameIn port fr s.dev))

/-- CONG_HINT_SEND (R280). -/
def execCongHintSend (s : State) : Host.Outcome State Fault Refusal := .next (s.commit (sendHints s.dev))

/-- HINT_STALE (R280). -/
def execHintStale (port : PortNo) (s : State) : Host.Outcome State Fault Refusal := .next (s.commit (Sys2Proof.Machine.hintStale port.val s.dev))

/-- SCHEDULER_CHOICE (R259). -/
def execSchedulerChoice (target : Fin 136) (s : State) : Host.Outcome State Fault Refusal :=
  .next (s.commit (if target.val < 128 then portChoose target.val s.dev else injChoose (target.val - 128) s.dev))

/-- AGE_LIMIT_TRIM (R286). -/
def execAgeLimitTrim (target : Fin 136) (queue : Fin 8) (pos : Nat) (s : State) : Host.Outcome State Fault Refusal :=
  .next (s.commit (if target.val < 128 then ageOut target.val queue.val pos s.dev else ageLand (target.val - 128) queue.val pos s.dev))

/-- QDEPTH_SAMPLE (R267). -/
def execQdepthSample (s : State) : Host.Outcome State Fault Refusal := .next (s.commit (depthSample s.dev))

/-- HOST_INJECTION_ADMIT (R274). -/
def execHostInjectionAdmit (hp : HostNo) (s : State) : Host.Outcome State Fault Refusal := .next (s.commit (injectAdmit hp s.dev))

end Sys2Proof.Machine
end

