-- ==== Sys2Proof/Machine/SchedAdmin.lean ====
section
/-! DEFINITION. Admin commands 0x07xx (R245, R269): one meaning per command. -/

namespace Sys2Proof.Machine

/-- BRAID_QUERY (R270). -/
def execBraidQuery (c : AdminCtx) (da vn : Nat) (s : State) : Host.Outcome State Fault Refusal :=
  .next (s.commit (adminRow adminCmds braidQueryCmd c [da, vn] s.dev))

/-- BRAID_RATE_SET (R270). -/
def execBraidRateSet (c : AdminCtx) (da vn rate alpha : Nat) (s : State) : Host.Outcome State Fault Refusal :=
  .next (s.commit (adminRow adminCmds braidRateSetCmd c [da, vn, rate, alpha] s.dev))

/-- SCHED_QUEUE_SET (R263). -/
def execSchedQueueSet (c : AdminCtx) (target queue weight rate burst resetMode : Nat) (s : State) : Host.Outcome State Fault Refusal :=
  .next (s.commit (adminRow adminCmds schedQueueSetCmd c [target, queue, weight, rate, burst, resetMode] s.dev))

/-- SCHED_PORT_SHAPE_SET (R263). -/
def execSchedPortShapeSet (c : AdminCtx) (target rate burst overhead resetMode : Nat) (s : State) : Host.Outcome State Fault Refusal :=
  .next (s.commit (adminRow adminCmds schedPortShapeSetCmd c [target, rate, burst, overhead, resetMode] s.dev))

/-- SCHED_MARK_SET (R270). -/
def execSchedMarkSet (c : AdminCtx) (target queue kmin kmax pmax : Nat) (s : State) : Host.Outcome State Fault Refusal :=
  .next (s.commit (adminRow adminCmds schedMarkSetCmd c [target, queue, kmin, kmax, pmax] s.dev))

/-- SCHED_HIST_SELECT (R268). -/
def execSchedHistSelect (c : AdminCtx) (target queue : Nat) (s : State) : Host.Outcome State Fault Refusal :=
  .next (s.commit (adminRow adminCmds schedHistSelectCmd c [target, queue] s.dev))

/-- SHAPE_GROUP_SET (R264). -/
def execShapeGroupSet (c : AdminCtx) (hp group rate burst resetMode : Nat) (s : State) : Host.Outcome State Fault Refusal :=
  .next (s.commit (adminRow adminCmds shapeGroupSetCmd c [hp, group, rate, burst, resetMode] s.dev))

/-- SHAPE_GROUP_BIND (R264). -/
def execShapeGroupBind (c : AdminCtx) (ep group : Nat) (s : State) : Host.Outcome State Fault Refusal :=
  .next (s.commit (adminRow adminCmds shapeGroupBindCmd c [ep, group] s.dev))

/-- SCHED_STATS_READ (R270). -/
def execSchedStatsRead (c : AdminCtx) (target : Nat) (s : State) : Host.Outcome State Fault Refusal :=
  .next (s.commit (adminRow adminCmds schedStatsReadCmd c [target] s.dev))

end Sys2Proof.Machine
end

