-- ==== Sys2Proof/Machine/StrandCmds.lean ====
section
/-! DEFINITION. Strands that reach the device (R116 to R190, R217 to R244): one meaning per command. -/

namespace Sys2Proof.Machine

/-- WRITE_STRAND (R122). -/
def execWriteStrand (st : Strand) (s : State) : Host.Outcome State Fault Refusal := .next (s.commit (xportRx st (unland st s.dev)))

/-- WRITE_IMM_STRAND (R123). -/
def execWriteImmStrand (st : Strand) (s : State) : Host.Outcome State Fault Refusal := .next (s.commit (xportRx st (unland st s.dev)))

/-- PUT_COUNT_STRAND (R123). -/
def execPutCountStrand (st : Strand) (s : State) : Host.Outcome State Fault Refusal := .next (s.commit (xportRx st (unland st s.dev)))

/-- SEND_STRAND (R71). -/
def execSendStrand (st : Strand) (s : State) : Host.Outcome State Fault Refusal := .next (s.commit (xportRx st (unland st s.dev)))

/-- SEND_TAGGED_STRAND (R154). -/
def execSendTaggedStrand (st : Strand) (s : State) : Host.Outcome State Fault Refusal := .next (s.commit (xportRx st (unland st s.dev)))

/-- RNDV_RTS_STRAND (R160). -/
def execRndvRtsStrand (st : Strand) (s : State) : Host.Outcome State Fault Refusal := .next (s.commit (xportRx st (unland st s.dev)))

/-- RNDV_DONE_STRAND (R161). -/
def execRndvDoneStrand (st : Strand) (s : State) : Host.Outcome State Fault Refusal := .next (s.commit (xportRx st (unland st s.dev)))

/-- READ_REQ_STRAND (R127). -/
def execReadReqStrand (st : Strand) (s : State) : Host.Outcome State Fault Refusal := .next (s.commit (xportRx st (unland st s.dev)))

/-- RNDV_READ_STRAND (R162). -/
def execRndvReadStrand (st : Strand) (s : State) : Host.Outcome State Fault Refusal := .next (s.commit (xportRx st (unland st s.dev)))

/-- READ_RSP_STRAND (R127). -/
def execReadRspStrand (st : Strand) (s : State) : Host.Outcome State Fault Refusal := .next (s.commit (xportRx st (unland st s.dev)))

/-- RNDV_READ_RSP (R160). -/
def execRndvReadRsp (st : Strand) (s : State) : Host.Outcome State Fault Refusal := .next (s.commit (xportRx st (unland st s.dev)))

/-- ATOMIC_STRAND (R130). -/
def execAtomicStrand (st : Strand) (s : State) : Host.Outcome State Fault Refusal := .next (s.commit (xportRx st (unland st s.dev)))

/-- ATOMIC_RSP_STRAND (R121). -/
def execAtomicRspStrand (st : Strand) (s : State) : Host.Outcome State Fault Refusal := .next (s.commit (xportRx st (unland st s.dev)))

/-- LOCK_ACQUIRE (R137). -/
def execLockAcquire (st : Strand) (s : State) : Host.Outcome State Fault Refusal := .next (s.commit (xportRx st (unland st s.dev)))

/-- LOCK_TRY (R137). -/
def execLockTry (st : Strand) (s : State) : Host.Outcome State Fault Refusal := .next (s.commit (xportRx st (unland st s.dev)))

/-- LOCK_RELEASE (R137). -/
def execLockRelease (st : Strand) (s : State) : Host.Outcome State Fault Refusal := .next (s.commit (xportRx st (unland st s.dev)))

/-- LOCK_GRANT (R138). -/
def execLockGrant (st : Strand) (s : State) : Host.Outcome State Fault Refusal := .next (s.commit (xportRx st (unland st s.dev)))

/-- LOCK_BUSY (R121). -/
def execLockBusy (st : Strand) (s : State) : Host.Outcome State Fault Refusal := .next (s.commit (xportRx st (unland st s.dev)))

/-- LOCK_INHERIT (R139). -/
def execLockInherit (st : Strand) (s : State) : Host.Outcome State Fault Refusal := .next (s.commit (xportRx st (unland st s.dev)))

/-- LOCK_RELEASED (R121). -/
def execLockReleased (st : Strand) (s : State) : Host.Outcome State Fault Refusal := .next (s.commit (xportRx st (unland st s.dev)))

/-- LOCK_REMOVED (R143). -/
def execLockRemoved (st : Strand) (s : State) : Host.Outcome State Fault Refusal := .next (s.commit (xportRx st (unland st s.dev)))

/-- STEP_DATA (R190). -/
def execStepData (st : Strand) (s : State) : Host.Outcome State Fault Refusal := .next (s.commit (xportRx st (unland st s.dev)))

/-- ARM_FIRE (R208). -/
def execArmFire (st : Strand) (s : State) : Host.Outcome State Fault Refusal := .next (s.commit (xportRx st (unland st s.dev)))

/-- ACK_STRAND (R226). -/
def execAckStrand (st : Strand) (s : State) : Host.Outcome State Fault Refusal := .next (s.commit (xportRx st (unland st s.dev)))

/-- NACK_STRAND (R229). -/
def execNackStrand (st : Strand) (s : State) : Host.Outcome State Fault Refusal := .next (s.commit (xportRx st (unland st s.dev)))

/-- RESYNC_NACK (R219). -/
def execResyncNack (st : Strand) (s : State) : Host.Outcome State Fault Refusal := .next (s.commit (xportRx st (unland st s.dev)))

/-- TRIM_NOTICE_STRAND (R243). -/
def execTrimNoticeStrand (st : Strand) (s : State) : Host.Outcome State Fault Refusal := .next (s.commit (xportRx st (unland st s.dev)))

/-- EP_GONE_STRAND (R229). -/
def execEpGoneStrand (st : Strand) (s : State) : Host.Outcome State Fault Refusal := .next (s.commit (xportRx st (unland st s.dev)))

end Sys2Proof.Machine
end

