-- ==== Sys2Proof/Machine/SystemAdmin.lean ====
section
/-! DEFINITION. Admin commands 0x0Exx (R489): one meaning per command. -/

namespace Sys2Proof.Machine

/-- DEVICE_RESET (R465). -/
def execDeviceReset (c : AdminCtx) (s : State) : Host.Outcome State Fault Refusal := .next (s.commit (adminRow adminCmds deviceResetCmd c [] s.dev))

/-- PORT_RESET (R464). -/
def execPortReset (c : AdminCtx) (port : Nat) (s : State) : Host.Outcome State Fault Refusal :=
  .next (s.commit (adminRow adminCmds portResetCmd c [port] s.dev))

/-- BLOCK_RESET (R463). -/
def execBlockReset (c : AdminCtx) (blk inst : Nat) (s : State) : Host.Outcome State Fault Refusal :=
  .next (s.commit (adminRow adminCmds blockResetCmd c [blk, inst] s.dev))

/-- SET_MODE (R20). -/
def execSetMode (c : AdminCtx) (mode : Nat) (s : State) : Host.Outcome State Fault Refusal :=
  .next (s.commit (adminRow adminCmds setModeCmd c [mode] s.dev))

/-- BOOT_MODE_SET (R475). -/
def execBootModeSet (c : AdminCtx) (mode : Nat) (s : State) : Host.Outcome State Fault Refusal :=
  .next (s.commit (adminRow adminCmds bootModeSetCmd c [mode] s.dev))

/-- LC_QUERY (R489). -/
def execLcQuery (c : AdminCtx) (s : State) : Host.Outcome State Fault Refusal := .next (s.commit (adminRow adminCmds lcQueryCmd c [] s.dev))

/-- LC_CHANGE (R479). -/
def execLcChange (c : AdminCtx) (lc : Nat) (s : State) : Host.Outcome State Fault Refusal :=
  .next (s.commit (adminRow adminCmds lcChangeCmd c [lc] s.dev))

/-- IDENTITY_WRITE (R489). -/
def execIdentityWrite (c : AdminCtx) (serial keyAddr : Nat) (s : State) : Host.Outcome State Fault Refusal :=
  .next (s.commit (adminRow adminCmds identityWriteCmd c [serial, keyAddr] s.dev))

/-- CALIBRATION_WRITE (R489). -/
def execCalibrationWrite (c : AdminCtx) (offset addr length : Nat) (s : State) : Host.Outcome State Fault Refusal :=
  .next (s.commit (adminRow adminCmds calibrationWriteCmd c [offset, addr, length] s.dev))

/-- PEAT_QUERY (R483). -/
def execPeatQuery (c : AdminCtx) (s : State) : Host.Outcome State Fault Refusal := .next (s.commit (adminRow adminCmds peatQueryCmd c [] s.dev))

/-- JOURNAL_READ (R486). -/
def execJournalRead (c : AdminCtx) (age page : Nat) (s : State) : Host.Outcome State Fault Refusal :=
  .next (s.commit (adminRow adminCmds journalReadCmd c [age, page] s.dev))

/-- PEAT_READ (R489). -/
def execPeatRead (c : AdminCtx) (offset length : Nat) (s : State) : Host.Outcome State Fault Refusal :=
  .next (s.commit (adminRow adminCmds peatReadCmd c [offset, length] s.dev))

/-- PEAT_WRITE (R489). -/
def execPeatWrite (c : AdminCtx) (offset addr length : Nat) (s : State) : Host.Outcome State Fault Refusal :=
  .next (s.commit (adminRow adminCmds peatWriteCmd c [offset, addr, length] s.dev))

/-- FW_WRITE (R473). -/
def execFwWrite (c : AdminCtx) (slot offset addr length : Nat) (s : State) : Host.Outcome State Fault Refusal :=
  .next (s.commit (adminRow adminCmds fwWriteCmd c [slot, offset, addr, length] s.dev))

/-- FW_VERIFY (R473). -/
def execFwVerify (c : AdminCtx) (slot : Nat) (s : State) : Host.Outcome State Fault Refusal :=
  .next (s.commit (adminRow adminCmds fwVerifyCmd c [slot] s.dev))

/-- FW_ACTIVATE (R473). -/
def execFwActivate (c : AdminCtx) (slot : Nat) (s : State) : Host.Outcome State Fault Refusal :=
  .next (s.commit (adminRow adminCmds fwActivateCmd c [slot] s.dev))

/-- FW_COMMIT (R472). -/
def execFwCommit (c : AdminCtx) (s : State) : Host.Outcome State Fault Refusal := .next (s.commit (adminRow adminCmds fwCommitCmd c [] s.dev))

/-- FW_QUERY (R489). -/
def execFwQuery (c : AdminCtx) (s : State) : Host.Outcome State Fault Refusal := .next (s.commit (adminRow adminCmds fwQueryCmd c [] s.dev))

/-- PERSONALITY_SET (R474). -/
def execPersonalitySet (c : AdminCtx) (personality : Nat) (s : State) : Host.Outcome State Fault Refusal :=
  .next (s.commit (adminRow adminCmds personalitySetCmd c [personality] s.dev))

end Sys2Proof.Machine
end

