-- ==== Sys2Proof/Machine/TallyCmds.lean ====
section
/-! DEFINITION. TALLY (R527 to R530): one meaning per command. -/

namespace Sys2Proof.Machine

/-- TALLY_TICK (R527). -/
def execTallyTick (s : State) : Host.Outcome State Fault Refusal := .next (s.commit (Sys2Proof.Machine.tallyTick s.dev))

end Sys2Proof.Machine
end

