-- ==== Sys2Proof/Machine/TimeAdmin.lean ====
section
/-! DEFINITION. Admin commands 0x0Axx (R371): one meaning per command. -/

namespace Sys2Proof.Machine

/-- TIME_QUERY (R372). -/
def execTimeQuery (c : AdminCtx) (s : State) : Host.Outcome State Fault Refusal := .next (s.commit (adminRow adminCmds timeQueryCmd c [] s.dev))

/-- TIME_CFG_SET (R357). -/
def execTimeCfgSet (c : AdminCtx) (mode isGm prio lockTh unlockTh stepTh holdLim persist : Nat) (s : State) : Host.Outcome State Fault Refusal :=
  .next (s.commit (adminRow adminCmds timeCfgSetCmd c [mode, isGm, prio, lockTh, unlockTh, stepTh, holdLim, persist] s.dev))

/-- TIME_SET (R359). -/
def execTimeSet (c : AdminCtx) (ns frac : Nat) (s : State) : Host.Outcome State Fault Refusal :=
  .next (s.commit (adminRow adminCmds timeSetCmd c [ns, frac] s.dev))

/-- TIME_UTC_SET (R372). -/
def execTimeUtcSet (c : AdminCtx) (utc persist : Nat) (s : State) : Host.Outcome State Fault Refusal :=
  .next (s.commit (adminRow adminCmds timeUtcSetCmd c [utc, persist] s.dev))

/-- TIME_PORT_QUERY (R372). -/
def execTimePortQuery (c : AdminCtx) (port : Nat) (s : State) : Host.Outcome State Fault Refusal :=
  .next (s.commit (adminRow adminCmds timePortQueryCmd c [port] s.dev))

/-- TIME_ASYM_SET (R355). -/
def execTimeAsymSet (c : AdminCtx) (port asym persist : Nat) (s : State) : Host.Outcome State Fault Refusal :=
  .next (s.commit (adminRow adminCmds timeAsymSetCmd c [port, asym, persist] s.dev))

/-- TIME_MIRROR_SET (R367). -/
def execTimeMirrorSet (c : AdminCtx) (mirror hp fn addr period : Nat) (s : State) : Host.Outcome State Fault Refusal :=
  .next (s.commit (adminRow adminCmds timeMirrorSetCmd c [mirror, hp, fn, addr, period] s.dev))

/-- TIME_PPS_SET (R372). -/
def execTimePpsSet (c : AdminCtx) (outEn outAny outWidth outDelay inEn inDisc inDelay todEn persist : Nat) (s : State) : Host.Outcome State Fault Refusal :=
  .next (s.commit (adminRow adminCmds timePpsSetCmd c [outEn, outAny, outWidth, outDelay, inEn, inDisc, inDelay, todEn, persist] s.dev))

end Sys2Proof.Machine
end

