-- ==== Sys2Proof/Machine/TimeCmds.lean ====
section
/-! DEFINITION. Fabric time (R351 to R370): one meaning per command. -/

namespace Sys2Proof.Machine

/-- PPS_IN_EDGE (R369). -/
def execPpsInEdge (s : State) : Host.Outcome State Fault Refusal := .next (s.commit (ppsIn s.dev))

/-- GM_PPS_TIMEOUT (R359). -/
def execGmPpsTimeout (s : State) : Host.Outcome State Fault Refusal := .next (s.commit (ppsTimeout s.dev))

/-- PPS_OUT_EDGE (R368). -/
def execPpsOutEdge (s : State) : Host.Outcome State Fault Refusal := .next (s.commit (ppsOut s.dev))

/-- TOD_LINE (R370). -/
def execTodLine (s : State) : Host.Outcome State Fault Refusal := .next (s.commit (todSend s.dev))

/-- MIRROR_WRITE (R367). -/
def execMirrorWrite (mirror : Fin 64) (s : State) : Host.Outcome State Fault Refusal :=
  .next (s.commit (Sys2Proof.Machine.mirrorWrite mirror.val s.dev))

/-- MARKER_SEND (R354). -/
def execMarkerSend (port : PortNo) (s : State) : Host.Outcome State Fault Refusal := .next (s.commit (Sys2Proof.Machine.markerSend port s.dev))

/-- MARKER_ARRIVAL (R354). -/
def execMarkerArrival (port : PortNo) (s : State) : Host.Outcome State Fault Refusal := .next (s.commit (markerIn port s.dev))

/-- TIME_STAMP (R355). -/
def execTimeStamp (port : PortNo) (fr : Frame) (s : State) : Host.Outcome State Fault Refusal := .next (s.commit (frameIn port fr s.dev))

/-- SERVO_NO_THETA (R360). -/
def execServoNoTheta (s : State) : Host.Outcome State Fault Refusal := .next (s.commit (noTheta s.dev))

/-- HOLDOVER_LIMIT (R360). -/
def execHoldoverLimit (s : State) : Host.Outcome State Fault Refusal := .next (s.commit (holdoverEnd s.dev))

/-- CLOCK_PARENT_LOSS (R331). -/
def execClockParentLoss (s : State) : Host.Outcome State Fault Refusal := .next (s.commit (parentLoss s.dev))

/-- ANNOUNCE_SEND (R358). -/
def execAnnounceSend (s : State) : Host.Outcome State Fault Refusal := .next (s.commit (announce s.dev))

/-- TIME_ANNOUNCEMENT (R358). -/
def execTimeAnnouncement (port : PortNo) (st : Strand) (s : State) : Host.Outcome State Fault Refusal :=
  .next (s.commit (announceIn port st (unland st s.dev)))

/-- ELECTION_EVALUATE (R358). -/
def execElectionEvaluate (s : State) : Host.Outcome State Fault Refusal := .next (s.commit (elect s.dev))

end Sys2Proof.Machine
end

