-- ==== Sys2Proof/Machine/XlatAdmin.lean ====
section
/-! DEFINITION. Admin commands 0x03xx (R115): one meaning per command. -/

namespace Sys2Proof.Machine

/-- JOB_SLOT_CREATE (R116). -/
def execJobSlotCreate (c : AdminCtx) (job hp fn root mrBase m : Nat) (s : State) : Host.Outcome State Fault Refusal :=
  .next (s.commit (adminRow adminCmds jobSlotCreateCmd c [job, hp, fn, root, mrBase, m] s.dev))

/-- JOB_SLOT_DESTROY (R116). -/
def execJobSlotDestroy (c : AdminCtx) (slot : Nat) (s : State) : Host.Outcome State Fault Refusal :=
  .next (s.commit (adminRow adminCmds jobSlotDestroyCmd c [slot] s.dev))

/-- ROOT_SET (R111). -/
def execRootSet (c : AdminCtx) (slot root : Nat) (s : State) : Host.Outcome State Fault Refusal :=
  .next (s.commit (adminRow adminCmds rootSetCmd c [slot, root] s.dev))

/-- SEG_SET (R96). -/
def execSegSet (c : AdminCtx) (slot seg iovaBase size busBase ctl rsv : Nat) (s : State) : Host.Outcome State Fault Refusal :=
  .next (s.commit (adminRow adminCmds segSetCmd c [slot, seg, iovaBase, size, busBase, ctl, rsv] s.dev))

/-- XLAT_INVALIDATE (R111). -/
def execXlatInvalidate (c : AdminCtx) (slot iova pages scope : Nat) (s : State) : Host.Outcome State Fault Refusal :=
  .next (s.commit (adminRow adminCmds xlatInvalidateCmd c [slot, iova, pages, scope] s.dev))

/-- XLAT_INVALIDATE_SLOT (R111). -/
def execXlatInvalidateSlot (c : AdminCtx) (slot : Nat) (s : State) : Host.Outcome State Fault Refusal :=
  .next (s.commit (adminRow adminCmds xlatInvalidateSlotCmd c [slot] s.dev))

/-- MR_INVALIDATE (R114). -/
def execMrInvalidate (c : AdminCtx) (slot region : Nat) (s : State) : Host.Outcome State Fault Refusal :=
  .next (s.commit (adminRow adminCmds mrInvalidateCmd c [slot, region] s.dev))

/-- XLAT_PROBE (R116). -/
def execXlatProbe (c : AdminCtx) (slot iova : Nat) (s : State) : Host.Outcome State Fault Refusal :=
  .next (s.commit (adminRow adminCmds xlatProbeCmd c [slot, iova] s.dev))

end Sys2Proof.Machine
end

