-- ==== Sys2Proof/Machine/Dispatch.lean ====
section
/-! DEFINITION. The meaning of each command: one arm per constructor. -/

namespace Sys2Proof.Machine

def exec (i : Instr) (s : State) : Host.Outcome State Fault Refusal :=
  match i with
  | .coldReset straps => Sys2Proof.Machine.execColdReset straps s
  | .resetPinAssert => Sys2Proof.Machine.execResetPinAssert s
  | .deviceLevelReset => Sys2Proof.Machine.execDeviceLevelReset s
  | .bootSequence failedEngines => Sys2Proof.Machine.execBootSequence failedEngines s
  | .pfailTaken => Sys2Proof.Machine.execPfailTaken s
  | .pfailRecovered => Sys2Proof.Machine.execPfailRecovered s
  | .powerGoodFall => Sys2Proof.Machine.execPowerGoodFall s
  | .refclkAFail bWithin => Sys2Proof.Machine.execRefclkAFail bWithin s
  | .refclkBFail => Sys2Proof.Machine.execRefclkBFail s
  | .thermalReading readings => Sys2Proof.Machine.execThermalReading readings s
  | .thermtrip reading => Sys2Proof.Machine.execThermtrip reading s
  | .droopDetect mvBelow => Sys2Proof.Machine.execDroopDetect mvBelow s
  | .droopEnd => Sys2Proof.Machine.execDroopEnd s
  | .droopLong => Sys2Proof.Machine.execDroopLong s
  | .slewGrantRequest blk rise amount => Sys2Proof.Machine.execSlewGrantRequest blk rise amount s
  | .pmbusPoll rails => Sys2Proof.Machine.execPmbusPoll rails s
  | .pmAlert rails => Sys2Proof.Machine.execPmAlert rails s
  | .avsStep measured => Sys2Proof.Machine.execAvsStep measured s
  | .sramEccError blk uncorrectable obj => Sys2Proof.Machine.execSramEccError blk uncorrectable obj s
  | .dieLinkFail die => Sys2Proof.Machine.execDieLinkFail die s
  | .containmentAction source => Sys2Proof.Machine.execContainmentAction source s
  | .kilnLogWrite => Sys2Proof.Machine.execKilnLogWrite s
  | .wearUpdate => Sys2Proof.Machine.execWearUpdate s
  | .ctrlEnSet m off value => Sys2Proof.Machine.execCtrlEnSet m off value s
  | .ctrlEnClear m off value => Sys2Proof.Machine.execCtrlEnClear m off value s
  | .registerWrite m off width value poisoned => Sys2Proof.Machine.execRegisterWrite m off width value poisoned s
  | .reservePeakRead m => Sys2Proof.Machine.execReservePeakRead m s
  | .timeNowLatch m => Sys2Proof.Machine.execTimeNowLatch m s
  | .chainedCounterRead m off => Sys2Proof.Machine.execChainedCounterRead m off s
  | .doorbellWrite f off len poisoned => Sys2Proof.Machine.execDoorbellWrite f off len poisoned s
  | .ringEntryArrival req status data => Sys2Proof.Machine.execRingEntryArrival req status data s
  | .pollTimer ep => Sys2Proof.Machine.execPollTimer ep s
  | .cqArm f cq => Sys2Proof.Machine.execCqArm f cq s
  | .dmaKick m ch => Sys2Proof.Machine.execDmaKick m ch s
  | .fenceReq m logical => Sys2Proof.Machine.execFenceReq m logical s
  | .fltForce m w bits => Sys2Proof.Machine.execFltForce m w bits s
  | .fltStickyClear m w bits => Sys2Proof.Machine.execFltStickyClear m w bits s
  | .txData m word => Sys2Proof.Machine.execTxData m word s
  | .txEnd m word => Sys2Proof.Machine.execTxEnd m word s
  | .rxDataRead m width => Sys2Proof.Machine.execRxDataRead m width s
  | .rxDataStallEnd m => Sys2Proof.Machine.execRxDataStallEnd m s
  | .flushRx m => Sys2Proof.Machine.execFlushRx m s
  | .flushTx m => Sys2Proof.Machine.execFlushTx m s
  | .flushTakeEffect rx => Sys2Proof.Machine.execFlushTakeEffect rx s
  | .adminRingEnable m hp => Sys2Proof.Machine.execAdminRingEnable m hp s
  | .adminRingDisable m hp => Sys2Proof.Machine.execAdminRingDisable m hp s
  | .admCmdTail m hp count => Sys2Proof.Machine.execAdmCmdTail m hp count s
  | .admRspHead m hp count => Sys2Proof.Machine.execAdmRspHead m hp count s
  | .adminCommandFetch f => Sys2Proof.Machine.execAdminCommandFetch f s
  | .adminCommandBegin p => Sys2Proof.Machine.execAdminCommandBegin p s
  | .adminTimeout p => Sys2Proof.Machine.execAdminTimeout p s
  | .mbxGo => Sys2Proof.Machine.execMbxGo s
  | .maintenanceRequest bytes => Sys2Proof.Machine.execMaintenanceRequest bytes s
  | .mctpRequest bytes => Sys2Proof.Machine.execMctpRequest bytes s
  | .maintenanceGap => Sys2Proof.Machine.execMaintenanceGap s
  | .msixUnmask f vector cond => Sys2Proof.Machine.execMsixUnmask f vector cond s
  | .eqModerationTimer f eq => Sys2Proof.Machine.execEqModerationTimer f eq s
  | .flr f => Sys2Proof.Machine.execFlr f s
  | .vfDisable hp => Sys2Proof.Machine.execVfDisable hp s
  | .d3hotEntry f => Sys2Proof.Machine.execD3hotEntry f s
  | .busMasterDisable f => Sys2Proof.Machine.execBusMasterDisable f s
  | .perstAssert hp => Sys2Proof.Machine.execPerstAssert hp s
  | .perstDeassert hp => Sys2Proof.Machine.execPerstDeassert hp s
  | .hotReset hp => Sys2Proof.Machine.execHotReset hp s
  | .hostLinkDown hp => Sys2Proof.Machine.execHostLinkDown hp s
  | .dlActiveReached hp speed width flit => Sys2Proof.Machine.execDlActiveReached hp speed width flit s
  | .hostLossDestroy hp => Sys2Proof.Machine.execHostLossDestroy hp s
  | .presenceTaken hp => Sys2Proof.Machine.execPresenceTaken hp s
  | .presenceLost hp => Sys2Proof.Machine.execPresenceLost hp s
  | .powerFaultTaken hp => Sys2Proof.Machine.execPowerFaultTaken hp s
  | .buttonPress hp => Sys2Proof.Machine.execButtonPress hp s
  | .poweringDone hp => Sys2Proof.Machine.execPoweringDone hp s
  | .isbScan din => Sys2Proof.Machine.execIsbScan din s
  | .ppsInEdge => Sys2Proof.Machine.execPpsInEdge s
  | .gmPpsTimeout => Sys2Proof.Machine.execGmPpsTimeout s
  | .ppsOutEdge => Sys2Proof.Machine.execPpsOutEdge s
  | .todLine => Sys2Proof.Machine.execTodLine s
  | .mirrorWrite mirror => Sys2Proof.Machine.execMirrorWrite mirror s
  | .markerSend port => Sys2Proof.Machine.execMarkerSend port s
  | .markerArrival port => Sys2Proof.Machine.execMarkerArrival port s
  | .timeStamp port fr => Sys2Proof.Machine.execTimeStamp port fr s
  | .servoNoTheta => Sys2Proof.Machine.execServoNoTheta s
  | .holdoverLimit => Sys2Proof.Machine.execHoldoverLimit s
  | .clockParentLoss => Sys2Proof.Machine.execClockParentLoss s
  | .announceSend => Sys2Proof.Machine.execAnnounceSend s
  | .timeAnnouncement port st => Sys2Proof.Machine.execTimeAnnouncement port st s
  | .electionEvaluate => Sys2Proof.Machine.execElectionEvaluate s
  | .serviceSyncAcquire port => Sys2Proof.Machine.execServiceSyncAcquire port s
  | .serviceSyncLoss port => Sys2Proof.Machine.execServiceSyncLoss port s
  | .clkToleranceLoss port => Sys2Proof.Machine.execClkToleranceLoss port s
  | .codewordLockLoss port => Sys2Proof.Machine.execCodewordLockLoss port s
  | .linkAck port fr => Sys2Proof.Machine.execLinkAck port fr s
  | .congHint port fr => Sys2Proof.Machine.execCongHint port fr s
  | .congHintSend => Sys2Proof.Machine.execCongHintSend s
  | .hintStale port => Sys2Proof.Machine.execHintStale port s
  | .trainReq port fr => Sys2Proof.Machine.execTrainReq port fr s
  | .trainRsp port fr => Sys2Proof.Machine.execTrainRsp port fr s
  | .trainReqResend port lane => Sys2Proof.Machine.execTrainReqResend port lane s
  | .trainState port fr => Sys2Proof.Machine.execTrainState port fr s
  | .trainStateSend port => Sys2Proof.Machine.execTrainStateSend port s
  | .identity port fr => Sys2Proof.Machine.execIdentity port fr s
  | .identitySend port => Sys2Proof.Machine.execIdentitySend port s
  | .identityRetry port => Sys2Proof.Machine.execIdentityRetry port s
  | .laneReady port lane errors => Sys2Proof.Machine.execLaneReady port lane errors s
  | .alignLock port lane => Sys2Proof.Machine.execAlignLock port lane s
  | .portEnterService port => Sys2Proof.Machine.execPortEnterService port s
  | .eqLimitExpiry port => Sys2Proof.Machine.execEqLimitExpiry port s
  | .bringupRetry port => Sys2Proof.Machine.execBringupRetry port s
  | .trainingHistoryWrite port => Sys2Proof.Machine.execTrainingHistoryWrite port s
  | .learningExpiry port => Sys2Proof.Machine.execLearningExpiry port s
  | .propose port fr => Sys2Proof.Machine.execPropose port fr s
  | .accept port fr => Sys2Proof.Machine.execAccept port fr s
  | .reject port fr => Sys2Proof.Machine.execReject port fr s
  | .done port fr => Sys2Proof.Machine.execDone port fr s
  | .proposeResend port => Sys2Proof.Machine.execProposeResend port s
  | .proposalAbandon port => Sys2Proof.Machine.execProposalAbandon port s
  | .retrainTimeout port => Sys2Proof.Machine.execRetrainTimeout port s
  | .linkHealth port fr => Sys2Proof.Machine.execLinkHealth port fr s
  | .linkHealthSend port eye0 eye1 => Sys2Proof.Machine.execLinkHealthSend port eye0 eye1 s
  | .loopback port fr => Sys2Proof.Machine.execLoopback port fr s
  | .downHoldExpiry port => Sys2Proof.Machine.execDownHoldExpiry port s
  | .headerBeadArrival port b => Sys2Proof.Machine.execHeaderBeadArrival port b s
  | .beadArrival port b => Sys2Proof.Machine.execBeadArrival port b s
  | .linkAckTimer port => Sys2Proof.Machine.execLinkAckTimer port s
  | .replayTimer port => Sys2Proof.Machine.execReplayTimer port s
  | .replayComplete port => Sys2Proof.Machine.execReplayComplete port s
  | .rttPeriod port => Sys2Proof.Machine.execRttPeriod port s
  | .healthPeriod port => Sys2Proof.Machine.execHealthPeriod port s
  | .linkTransmitStart port => Sys2Proof.Machine.execLinkTransmitStart port s
  | .schedulerChoice target => Sys2Proof.Machine.execSchedulerChoice target s
  | .ageLimitTrim target queue pos => Sys2Proof.Machine.execAgeLimitTrim target queue pos s
  | .qdepthSample => Sys2Proof.Machine.execQdepthSample s
  | .hostInjectionAdmit hp => Sys2Proof.Machine.execHostInjectionAdmit hp s
  | .calendarSlotDue => Sys2Proof.Machine.execCalendarSlotDue s
  | .increaseTimer da vn => Sys2Proof.Machine.execIncreaseTimer da vn s
  | .idleReset da vn => Sys2Proof.Machine.execIdleReset da vn s
  | .rateFloor da vn => Sys2Proof.Machine.execRateFloor da vn s
  | .retransmitTimer da vn bsn => Sys2Proof.Machine.execRetransmitTimer da vn bsn s
  | .unreachableExpiry da => Sys2Proof.Machine.execUnreachableExpiry da s
  | .ackDelayTimer da vn => Sys2Proof.Machine.execAckDelayTimer da vn s
  | .notReadyBackoff id => Sys2Proof.Machine.execNotReadyBackoff id s
  | .trimResend id => Sys2Proof.Machine.execTrimResend id s
  | .readResend st => Sys2Proof.Machine.execReadResend st s
  | .sendRecordIdle k => Sys2Proof.Machine.execSendRecordIdle k s
  | .recvRecordIdle k => Sys2Proof.Machine.execRecvRecordIdle k s
  | .parkingTimeout st => Sys2Proof.Machine.execParkingTimeout st s
  | .contextFetchComplete req status data => Sys2Proof.Machine.execContextFetchComplete req status data s
  | .contextFetchTimeout st => Sys2Proof.Machine.execContextFetchTimeout st s
  | .writeStrand st => Sys2Proof.Machine.execWriteStrand st s
  | .writeImmStrand st => Sys2Proof.Machine.execWriteImmStrand st s
  | .putCountStrand st => Sys2Proof.Machine.execPutCountStrand st s
  | .sendStrand st => Sys2Proof.Machine.execSendStrand st s
  | .sendTaggedStrand st => Sys2Proof.Machine.execSendTaggedStrand st s
  | .rndvRtsStrand st => Sys2Proof.Machine.execRndvRtsStrand st s
  | .rndvDoneStrand st => Sys2Proof.Machine.execRndvDoneStrand st s
  | .readReqStrand st => Sys2Proof.Machine.execReadReqStrand st s
  | .rndvReadStrand st => Sys2Proof.Machine.execRndvReadStrand st s
  | .readRspStrand st => Sys2Proof.Machine.execReadRspStrand st s
  | .rndvReadRsp st => Sys2Proof.Machine.execRndvReadRsp st s
  | .atomicStrand st => Sys2Proof.Machine.execAtomicStrand st s
  | .atomicReadComplete req status data => Sys2Proof.Machine.execAtomicReadComplete req status data s
  | .atomicRspStrand st => Sys2Proof.Machine.execAtomicRspStrand st s
  | .lockAcquire st => Sys2Proof.Machine.execLockAcquire st s
  | .lockTry st => Sys2Proof.Machine.execLockTry st s
  | .lockRelease st => Sys2Proof.Machine.execLockRelease st s
  | .lockGrant st => Sys2Proof.Machine.execLockGrant st s
  | .lockBusy st => Sys2Proof.Machine.execLockBusy st s
  | .lockInherit st => Sys2Proof.Machine.execLockInherit st s
  | .lockReleased st => Sys2Proof.Machine.execLockReleased st s
  | .lockRemoved st => Sys2Proof.Machine.execLockRemoved st s
  | .stepData st => Sys2Proof.Machine.execStepData st s
  | .armFire st => Sys2Proof.Machine.execArmFire st s
  | .ackStrand st => Sys2Proof.Machine.execAckStrand st s
  | .nackStrand st => Sys2Proof.Machine.execNackStrand st s
  | .resyncNack st => Sys2Proof.Machine.execResyncNack st s
  | .trimNoticeStrand st => Sys2Proof.Machine.execTrimNoticeStrand st s
  | .epGoneStrand st => Sys2Proof.Machine.execEpGoneStrand st s
  | .mgmtRx st => Sys2Proof.Machine.execMgmtRx st s
  | .remoteAdmin st => Sys2Proof.Machine.execRemoteAdmin st s
  | .dataWrite st => Sys2Proof.Machine.execDataWrite st s
  | .dataRead st => Sys2Proof.Machine.execDataRead st s
  | .flushReadComplete req status => Sys2Proof.Machine.execFlushReadComplete req status s
  | .hostReadComplete req status data => Sys2Proof.Machine.execHostReadComplete req status data s
  | .walkReadComplete req status data => Sys2Proof.Machine.execWalkReadComplete req status data s
  | .headWordReadComplete req status data => Sys2Proof.Machine.execHeadWordReadComplete req status data s
  | .completionTimeout req => Sys2Proof.Machine.execCompletionTimeout req s
  | .triggeredStart ep => Sys2Proof.Machine.execTriggeredStart ep s
  | .nop ep => Sys2Proof.Machine.execNop ep s
  | .write ep => Sys2Proof.Machine.execWrite ep s
  | .writeImm ep => Sys2Proof.Machine.execWriteImm ep s
  | .read ep => Sys2Proof.Machine.execRead ep s
  | .putCount ep => Sys2Proof.Machine.execPutCount ep s
  | .send ep => Sys2Proof.Machine.execSend ep s
  | .sendTagged ep => Sys2Proof.Machine.execSendTagged ep s
  | .atomic ep => Sys2Proof.Machine.execAtomic ep s
  | .claspAcquire ep => Sys2Proof.Machine.execClaspAcquire ep s
  | .claspTry ep => Sys2Proof.Machine.execClaspTry ep s
  | .claspRelease ep => Sys2Proof.Machine.execClaspRelease ep s
  | .collStart ep => Sys2Proof.Machine.execCollStart ep s
  | .recv ep => Sys2Proof.Machine.execRecv ep s
  | .recvTagged ep => Sys2Proof.Machine.execRecvTagged ep s
  | .instanceRun inst => Sys2Proof.Machine.execInstanceRun inst s
  | .collTimeout inst => Sys2Proof.Machine.execCollTimeout inst s
  | .releaseDelivery hp => Sys2Proof.Machine.execReleaseDelivery hp s
  | .prewarnAssert output => Sys2Proof.Machine.execPrewarnAssert output s
  | .prewarnDeassert output => Sys2Proof.Machine.execPrewarnDeassert output s
  | .spillReturn ep => Sys2Proof.Machine.execSpillReturn ep s
  | .dmaCopy ch => Sys2Proof.Machine.execDmaCopy ch s
  | .dmaPut ch => Sys2Proof.Machine.execDmaPut ch s
  | .dmaGet ch => Sys2Proof.Machine.execDmaGet ch s
  | .dmaPeatRead ch => Sys2Proof.Machine.execDmaPeatRead ch s
  | .dmaPeatWrite ch => Sys2Proof.Machine.execDmaPeatWrite ch s
  | .dmaChunkSelect => Sys2Proof.Machine.execDmaChunkSelect s
  | .watchdog cluster => Sys2Proof.Machine.execWatchdog cluster s
  | .takeover => Sys2Proof.Machine.execTakeover s
  | .takeoverDrained => Sys2Proof.Machine.execTakeoverDrained s
  | .tallyTick => Sys2Proof.Machine.execTallyTick s
  | .epBlockAssign c block hp fn job backing => Sys2Proof.Machine.execEpBlockAssign c block hp fn job backing s
  | .epBlockRelease c block => Sys2Proof.Machine.execEpBlockRelease c block s
  | .epCreate c ep typ sBase sN rBase rN sCq rCq eq pin poll => Sys2Proof.Machine.execEpCreate c ep typ sBase sN rBase rN sCq rCq eq pin poll s
  | .epEnable c ep => Sys2Proof.Machine.execEpEnable c ep s
  | .epDisable c ep => Sys2Proof.Machine.execEpDisable c ep s
  | .epReset c ep => Sys2Proof.Machine.execEpReset c ep s
  | .epDestroy c ep => Sys2Proof.Machine.execEpDestroy c ep s
  | .epQuery c ep => Sys2Proof.Machine.execEpQuery c ep s
  | .cqCreate c cq function base n head eq arm whole => Sys2Proof.Machine.execCqCreate c cq function base n head eq arm whole s
  | .cqReset c cq => Sys2Proof.Machine.execCqReset c cq s
  | .cqDestroy c cq => Sys2Proof.Machine.execCqDestroy c cq s
  | .eqCreate c function eq base n head vector modCount modTime => Sys2Proof.Machine.execEqCreate c function eq base n head vector modCount modTime s
  | .eqModerate c function eq modCount modTime => Sys2Proof.Machine.execEqModerate c function eq modCount modTime s
  | .eqDestroy c function eq => Sys2Proof.Machine.execEqDestroy c function eq s
  | .jobSlotCreate c job hp fn root mrBase m => Sys2Proof.Machine.execJobSlotCreate c job hp fn root mrBase m s
  | .jobSlotDestroy c slot => Sys2Proof.Machine.execJobSlotDestroy c slot s
  | .rootSet c slot root => Sys2Proof.Machine.execRootSet c slot root s
  | .segSet c slot seg iovaBase size busBase ctl rsv => Sys2Proof.Machine.execSegSet c slot seg iovaBase size busBase ctl rsv s
  | .xlatInvalidate c slot iova pages scope => Sys2Proof.Machine.execXlatInvalidate c slot iova pages scope s
  | .xlatInvalidateSlot c slot => Sys2Proof.Machine.execXlatInvalidateSlot c slot s
  | .mrInvalidate c slot region => Sys2Proof.Machine.execMrInvalidate c slot region s
  | .xlatProbe c slot iova => Sys2Proof.Machine.execXlatProbe c slot iova s
  | .claspDomainCreate c domain slot fairness members => Sys2Proof.Machine.execClaspDomainCreate c domain slot fairness members s
  | .claspDomainDestroy c domain => Sys2Proof.Machine.execClaspDomainDestroy c domain s
  | .claspQuery c record slot iova => Sys2Proof.Machine.execClaspQuery c record slot iova s
  | .claspForceRelease c record => Sys2Proof.Machine.execClaspForceRelease c record s
  | .claspWaiterRemove c record da ep => Sys2Proof.Machine.execClaspWaiterRemove c record da ep s
  | .matchCtxCreate c ep recBase uBase b spBase sz => Sys2Proof.Machine.execMatchCtxCreate c ep recBase uBase b spBase sz s
  | .matchCtxDestroy c ep => Sys2Proof.Machine.execMatchCtxDestroy c ep s
  | .matchQuery c ep => Sys2Proof.Machine.execMatchQuery c ep s
  | .matchProbe c ep comm srcRank tag ignoreLow anySrc => Sys2Proof.Machine.execMatchProbe c ep comm srcRank tag ignoreLow anySrc s
  | .collGroupCreate c group key slot n table scratch size => Sys2Proof.Machine.execCollGroupCreate c group key slot n table scratch size s
  | .collGroupDestroy c group => Sys2Proof.Machine.execCollGroupDestroy c group s
  | .collGroupQuery c group => Sys2Proof.Machine.execCollGroupQuery c group s
  | .collRickLoad c rick image length => Sys2Proof.Machine.execCollRickLoad c rick image length s
  | .collRickUnload c rick => Sys2Proof.Machine.execCollRickUnload c rick s
  | .collRickQuery c rick => Sys2Proof.Machine.execCollRickQuery c rick s
  | .collCounterAlloc c slot count mirror => Sys2Proof.Machine.execCollCounterAlloc c slot count mirror s
  | .collCounterFree c first count => Sys2Proof.Machine.execCollCounterFree c first count s
  | .collCounterRead c index => Sys2Proof.Machine.execCollCounterRead c index s
  | .collCounterWrite c index value => Sys2Proof.Machine.execCollCounterWrite c index value s
  | .collCounterBind c ep dir index => Sys2Proof.Machine.execCollCounterBind c ep dir index s
  | .collCounterArm c index tag => Sys2Proof.Machine.execCollCounterArm c index tag s
  | .collCounterDisarm c index => Sys2Proof.Machine.execCollCounterDisarm c index s
  | .collArmFire c da ep job counter tag inc => Sys2Proof.Machine.execCollArmFire c da ep job counter tag inc s
  | .collAbort c group ep => Sys2Proof.Machine.execCollAbort c group ep s
  | .braidQuery c da vn => Sys2Proof.Machine.execBraidQuery c da vn s
  | .braidRateSet c da vn rate alpha => Sys2Proof.Machine.execBraidRateSet c da vn rate alpha s
  | .schedQueueSet c target queue weight rate burst resetMode => Sys2Proof.Machine.execSchedQueueSet c target queue weight rate burst resetMode s
  | .schedPortShapeSet c target rate burst overhead resetMode => Sys2Proof.Machine.execSchedPortShapeSet c target rate burst overhead resetMode s
  | .schedMarkSet c target queue kmin kmax pmax => Sys2Proof.Machine.execSchedMarkSet c target queue kmin kmax pmax s
  | .schedHistSelect c target queue => Sys2Proof.Machine.execSchedHistSelect c target queue s
  | .shapeGroupSet c hp group rate burst resetMode => Sys2Proof.Machine.execShapeGroupSet c hp group rate burst resetMode s
  | .shapeGroupBind c ep group => Sys2Proof.Machine.execShapeGroupBind c ep group s
  | .schedStatsRead c target => Sys2Proof.Machine.execSchedStatsRead c target s
  | .deviceDaSet c da persist => Sys2Proof.Machine.execDeviceDaSet c da persist s
  | .portRoleSet c port role persist => Sys2Proof.Machine.execPortRoleSet c port role persist s
  | .portDrain c port drain => Sys2Proof.Machine.execPortDrain c port drain s
  | .portQuery c port => Sys2Proof.Machine.execPortQuery c port s
  | .routeLoad c version image length allow persist => Sys2Proof.Machine.execRouteLoad c version image length allow persist s
  | .routeEntrySet c version table index entry allow persist => Sys2Proof.Machine.execRouteEntrySet c version table index entry allow persist s
  | .routeEntryRead c version table index => Sys2Proof.Machine.execRouteEntryRead c version table index s
  | .routeEpochSet c epoch persist => Sys2Proof.Machine.execRouteEpochSet c epoch persist s
  | .routeDeflSet c port queue dth => Sys2Proof.Machine.execRouteDeflSet c port queue dth s
  | .routeParamSet c hintW dim seed age => Sys2Proof.Machine.execRouteParamSet c hintW dim seed age s
  | .routeLandSet c hp trimTh => Sys2Proof.Machine.execRouteLandSet c hp trimTh s
  | .routeProbe c dstDa srcDa epoch vn tc entropy det arrival => Sys2Proof.Machine.execRouteProbe c dstDa srcDa epoch vn tc entropy det arrival s
  | .laneQuery c port => Sys2Proof.Machine.execLaneQuery c port s
  | .laneRetrain c port kind lane => Sys2Proof.Machine.execLaneRetrain c port kind lane s
  | .laneHistoryClear c port => Sys2Proof.Machine.execLaneHistoryClear c port s
  | .clockParentSet c p0 p1 p2 p3 => Sys2Proof.Machine.execClockParentSet c p0 p1 p2 p3 s
  | .clockParentQuery c => Sys2Proof.Machine.execClockParentQuery c s
  | .laneTestEnter c port remoteAllow => Sys2Proof.Machine.execLaneTestEnter c port remoteAllow s
  | .laneTestExit c port => Sys2Proof.Machine.execLaneTestExit c port s
  | .lanePatternSet c port mask gen chk user => Sys2Proof.Machine.execLanePatternSet c port mask gen chk user s
  | .laneLoopbackSet c port kind mask => Sys2Proof.Machine.execLaneLoopbackSet c port kind mask s
  | .laneErrInject c port lane kind count stop => Sys2Proof.Machine.execLaneErrInject c port lane kind count stop s
  | .laneEyeScan c port lane eye ph0 ph1 phStep of0 of1 ofStep dwell result => Sys2Proof.Machine.execLaneEyeScan c port lane eye ph0 ph1 phStep of0 of1 ofStep dwell result s
  | .lanePrbsRead c port => Sys2Proof.Machine.execLanePrbsRead c port s
  | .cageSet c port auto autoPwr pwrEn indA indB => Sys2Proof.Machine.execCageSet c port auto autoPwr pwrEn indA indB s
  | .timeQuery c => Sys2Proof.Machine.execTimeQuery c s
  | .timeCfgSet c mode isGm prio lockTh unlockTh stepTh holdLim persist => Sys2Proof.Machine.execTimeCfgSet c mode isGm prio lockTh unlockTh stepTh holdLim persist s
  | .timeSet c ns frac => Sys2Proof.Machine.execTimeSet c ns frac s
  | .timeUtcSet c utc persist => Sys2Proof.Machine.execTimeUtcSet c utc persist s
  | .timePortQuery c port => Sys2Proof.Machine.execTimePortQuery c port s
  | .timeAsymSet c port asym persist => Sys2Proof.Machine.execTimeAsymSet c port asym persist s
  | .timeMirrorSet c mirror hp fn addr period => Sys2Proof.Machine.execTimeMirrorSet c mirror hp fn addr period s
  | .timePpsSet c outEn outAny outWidth outDelay inEn inDisc inDelay todEn persist => Sys2Proof.Machine.execTimePpsSet c outEn outAny outWidth outDelay inEn inDisc inDelay todEn persist s
  | .hostQuery c hp => Sys2Proof.Machine.execHostQuery c hp s
  | .hostFuncConfig c hp totalVfs pfVec vfVec persist => Sys2Proof.Machine.execHostFuncConfig c hp totalVfs pfVec vfVec persist s
  | .hostSplitSet c ctl split persist => Sys2Proof.Machine.execHostSplitSet c ctl split persist s
  | .hostSlotSet c hp auto autoPwr pwrEn attnInd pwrInd notify persist => Sys2Proof.Machine.execHostSlotSet c hp auto autoPwr pwrEn attnInd pwrInd notify persist s
  | .hostSlotRemove c hp => Sys2Proof.Machine.execHostSlotRemove c hp s
  | .hostWake c hp => Sys2Proof.Machine.execHostWake c hp s
  | .dmaChCreate c ch hp slotA slotB ring n ep ord tc prio vector halfInt fullInt errInt => Sys2Proof.Machine.execDmaChCreate c ch hp slotA slotB ring n ep ord tc prio vector halfInt fullInt errInt s
  | .dmaChTargetSet c ch target da ep rkey => Sys2Proof.Machine.execDmaChTargetSet c ch target da ep rkey s
  | .dmaChStart c ch => Sys2Proof.Machine.execDmaChStart c ch s
  | .dmaChStop c ch => Sys2Proof.Machine.execDmaChStop c ch s
  | .dmaChReset c ch => Sys2Proof.Machine.execDmaChReset c ch s
  | .dmaChDestroy c ch => Sys2Proof.Machine.execDmaChDestroy c ch s
  | .dmaChQuery c ch => Sys2Proof.Machine.execDmaChQuery c ch s
  | .dmaChPrioSet c ch prio => Sys2Proof.Machine.execDmaChPrioSet c ch prio s
  | .identify c => Sys2Proof.Machine.execIdentify c s
  | .capsQuery c => Sys2Proof.Machine.execCapsQuery c s
  | .echo c lo hi => Sys2Proof.Machine.execEcho c lo hi s
  | .adminStats c => Sys2Proof.Machine.execAdminStats c s
  | .deviceReset c => Sys2Proof.Machine.execDeviceReset c s
  | .portReset c port => Sys2Proof.Machine.execPortReset c port s
  | .blockReset c blk inst => Sys2Proof.Machine.execBlockReset c blk inst s
  | .setMode c mode => Sys2Proof.Machine.execSetMode c mode s
  | .bootModeSet c mode => Sys2Proof.Machine.execBootModeSet c mode s
  | .lcQuery c => Sys2Proof.Machine.execLcQuery c s
  | .lcChange c lc => Sys2Proof.Machine.execLcChange c lc s
  | .identityWrite c serial keyAddr => Sys2Proof.Machine.execIdentityWrite c serial keyAddr s
  | .calibrationWrite c offset addr length => Sys2Proof.Machine.execCalibrationWrite c offset addr length s
  | .peatQuery c => Sys2Proof.Machine.execPeatQuery c s
  | .journalRead c age page => Sys2Proof.Machine.execJournalRead c age page s
  | .peatRead c offset length => Sys2Proof.Machine.execPeatRead c offset length s
  | .peatWrite c offset addr length => Sys2Proof.Machine.execPeatWrite c offset addr length s
  | .fwWrite c slot offset addr length => Sys2Proof.Machine.execFwWrite c slot offset addr length s
  | .fwVerify c slot => Sys2Proof.Machine.execFwVerify c slot s
  | .fwActivate c slot => Sys2Proof.Machine.execFwActivate c slot s
  | .fwCommit c => Sys2Proof.Machine.execFwCommit c s
  | .fwQuery c => Sys2Proof.Machine.execFwQuery c s
  | .personalitySet c personality => Sys2Proof.Machine.execPersonalitySet c personality s
  | .pwrQuery c => Sys2Proof.Machine.execPwrQuery c s
  | .pwrLimitSet c slew droop stretch persist => Sys2Proof.Machine.execPwrLimitSet c slew droop stretch persist s
  | .pwrThermalSet c warn thr1 thr2 persist => Sys2Proof.Machine.execPwrThermalSet c warn thr1 thr2 persist s
  | .pwrRailMap c rail addr page persist => Sys2Proof.Machine.execPwrRailMap c rail addr page persist s
  | .pwrPrewarnForce c mask duration => Sys2Proof.Machine.execPwrPrewarnForce c mask duration s
  | .pwrSensorRead c => Sys2Proof.Machine.execPwrSensorRead c s
  | .fltQuery c source => Sys2Proof.Machine.execFltQuery c source s
  | .fltSeveritySet c first count sev persist => Sys2Proof.Machine.execFltSeveritySet c first count sev persist s
  | .fltRouteSet c group mask persist => Sys2Proof.Machine.execFltRouteSet c group mask persist s
  | .faultLogRead c first count => Sys2Proof.Machine.execFaultLogRead c first count s
  | .tallyStart c hp ring m period groups portMaskLo portMaskHi hostMask => Sys2Proof.Machine.execTallyStart c hp ring m period groups portMaskLo portMaskHi hostMask s
  | .tallyStop c => Sys2Proof.Machine.execTallyStop c s
  | .counterChain c offset chain => Sys2Proof.Machine.execCounterChain c offset chain s
  | .counterClear c blk inst => Sys2Proof.Machine.execCounterClear c blk inst s
  | .counterWrapClear c offset => Sys2Proof.Machine.execCounterWrapClear c offset s
  | .clkOkRestored port => Sys2Proof.Machine.execClkOkRestored port s
  | .prewarnForceExpiry => Sys2Proof.Machine.execPrewarnForceExpiry s
  | .prbsCheckerLock port lane => Sys2Proof.Machine.execPrbsCheckerLock port lane s
  | .firmwareTrap cluster => Sys2Proof.Machine.execFirmwareTrap cluster s
  | .filigreeStop cluster => Sys2Proof.Machine.execFiligreeStop cluster s
  | .lockstep => Sys2Proof.Machine.execLockstep s
  | .controllerUncorrectable hp => Sys2Proof.Machine.execControllerUncorrectable hp s
  | .correctableLinkError hp => Sys2Proof.Machine.execCorrectableLinkError hp s
  | .returnToD0 f => Sys2Proof.Machine.execReturnToD0 f s

end Sys2Proof.Machine
end

