-- ==== Sys2Proof/WellFormed.lean ====
section
/-! DEFINITION. Which commands are well formed: operands that fit what carries them. The meanings are total: what
they do with others is no claim about the hardware. -/

namespace Sys2Proof

/-- An admin command as it is carried: its opcode, its parts and its parameters. -/
structure AdminPart where
  op : Nat
  ctx : AdminCtx
  params : List Nat
deriving DecidableEq, Repr

/-- The admin command that a command is (R428, R429). -/
def Instr.adminPart : Instr → Option AdminPart
  | .epBlockAssign c block hp fn job backing => some ⟨0x0201, c, [block, hp, fn, job, backing]⟩
  | .epBlockRelease c block => some ⟨0x0202, c, [block]⟩
  | .epCreate c ep typ sBase sN rBase rN sCq rCq eq pin poll => some ⟨0x0210, c, [ep, typ, sBase, sN, rBase, rN, sCq, rCq, eq, pin, poll]⟩
  | .epEnable c ep => some ⟨0x0211, c, [ep]⟩
  | .epDisable c ep => some ⟨0x0212, c, [ep]⟩
  | .epReset c ep => some ⟨0x0213, c, [ep]⟩
  | .epDestroy c ep => some ⟨0x0214, c, [ep]⟩
  | .epQuery c ep => some ⟨0x0215, c, [ep]⟩
  | .cqCreate c cq function base n head eq arm whole => some ⟨0x0220, c, [cq, function, base, n, head, eq, arm, whole]⟩
  | .cqReset c cq => some ⟨0x0221, c, [cq]⟩
  | .cqDestroy c cq => some ⟨0x0222, c, [cq]⟩
  | .eqCreate c function eq base n head vector modCount modTime => some ⟨0x0230, c, [function, eq, base, n, head, vector, modCount, modTime]⟩
  | .eqModerate c function eq modCount modTime => some ⟨0x0231, c, [function, eq, modCount, modTime]⟩
  | .eqDestroy c function eq => some ⟨0x0232, c, [function, eq]⟩
  | .jobSlotCreate c job hp fn root mrBase m => some ⟨0x0301, c, [job, hp, fn, root, mrBase, m]⟩
  | .jobSlotDestroy c slot => some ⟨0x0302, c, [slot]⟩
  | .rootSet c slot root => some ⟨0x0303, c, [slot, root]⟩
  | .segSet c slot seg iovaBase size busBase ctl rsv => some ⟨0x0310, c, [slot, seg, iovaBase, size, busBase, ctl, rsv]⟩
  | .xlatInvalidate c slot iova pages scope => some ⟨0x0320, c, [slot, iova, pages, scope]⟩
  | .xlatInvalidateSlot c slot => some ⟨0x0321, c, [slot]⟩
  | .mrInvalidate c slot region => some ⟨0x0330, c, [slot, region]⟩
  | .xlatProbe c slot iova => some ⟨0x0340, c, [slot, iova]⟩
  | .claspDomainCreate c domain slot fairness members => some ⟨0x0401, c, [domain, slot, fairness, members]⟩
  | .claspDomainDestroy c domain => some ⟨0x0402, c, [domain]⟩
  | .claspQuery c record slot iova => some ⟨0x0410, c, [record, slot, iova]⟩
  | .claspForceRelease c record => some ⟨0x0411, c, [record]⟩
  | .claspWaiterRemove c record da ep => some ⟨0x0412, c, [record, da, ep]⟩
  | .matchCtxCreate c ep recBase uBase b spBase sz => some ⟨0x0501, c, [ep, recBase, uBase, b, spBase, sz]⟩
  | .matchCtxDestroy c ep => some ⟨0x0502, c, [ep]⟩
  | .matchQuery c ep => some ⟨0x0510, c, [ep]⟩
  | .matchProbe c ep comm srcRank tag ignoreLow anySrc => some ⟨0x0511, c, [ep, comm, srcRank, tag, ignoreLow, anySrc]⟩
  | .collGroupCreate c group key slot n table scratch size => some ⟨0x0601, c, [group, key, slot, n, table, scratch, size]⟩
  | .collGroupDestroy c group => some ⟨0x0602, c, [group]⟩
  | .collGroupQuery c group => some ⟨0x0603, c, [group]⟩
  | .collRickLoad c rick image length => some ⟨0x0610, c, [rick, image, length]⟩
  | .collRickUnload c rick => some ⟨0x0611, c, [rick]⟩
  | .collRickQuery c rick => some ⟨0x0612, c, [rick]⟩
  | .collCounterAlloc c slot count mirror => some ⟨0x0620, c, [slot, count, mirror]⟩
  | .collCounterFree c first count => some ⟨0x0621, c, [first, count]⟩
  | .collCounterRead c index => some ⟨0x0622, c, [index]⟩
  | .collCounterWrite c index value => some ⟨0x0623, c, [index, value]⟩
  | .collCounterBind c ep dir index => some ⟨0x0624, c, [ep, dir, index]⟩
  | .collCounterArm c index tag => some ⟨0x0630, c, [index, tag]⟩
  | .collCounterDisarm c index => some ⟨0x0631, c, [index]⟩
  | .collArmFire c da ep job counter tag inc => some ⟨0x0632, c, [da, ep, job, counter, tag, inc]⟩
  | .collAbort c group ep => some ⟨0x0640, c, [group, ep]⟩
  | .braidQuery c da vn => some ⟨0x0701, c, [da, vn]⟩
  | .braidRateSet c da vn rate alpha => some ⟨0x0702, c, [da, vn, rate, alpha]⟩
  | .schedQueueSet c target queue weight rate burst resetMode => some ⟨0x0710, c, [target, queue, weight, rate, burst, resetMode]⟩
  | .schedPortShapeSet c target rate burst overhead resetMode => some ⟨0x0711, c, [target, rate, burst, overhead, resetMode]⟩
  | .schedMarkSet c target queue kmin kmax pmax => some ⟨0x0712, c, [target, queue, kmin, kmax, pmax]⟩
  | .schedHistSelect c target queue => some ⟨0x0713, c, [target, queue]⟩
  | .shapeGroupSet c hp group rate burst resetMode => some ⟨0x0720, c, [hp, group, rate, burst, resetMode]⟩
  | .shapeGroupBind c ep group => some ⟨0x0721, c, [ep, group]⟩
  | .schedStatsRead c target => some ⟨0x0730, c, [target]⟩
  | .deviceDaSet c da persist => some ⟨0x0801, c, [da, persist]⟩
  | .portRoleSet c port role persist => some ⟨0x0802, c, [port, role, persist]⟩
  | .portDrain c port drain => some ⟨0x0803, c, [port, drain]⟩
  | .portQuery c port => some ⟨0x0804, c, [port]⟩
  | .routeLoad c version image length allow persist => some ⟨0x0810, c, [version, image, length, allow, persist]⟩
  | .routeEntrySet c version table index entry allow persist => some ⟨0x0811, c, [version, table, index, entry, allow, persist]⟩
  | .routeEntryRead c version table index => some ⟨0x0812, c, [version, table, index]⟩
  | .routeEpochSet c epoch persist => some ⟨0x0813, c, [epoch, persist]⟩
  | .routeDeflSet c port queue dth => some ⟨0x0820, c, [port, queue, dth]⟩
  | .routeParamSet c hintW dim seed age => some ⟨0x0821, c, [hintW, dim, seed, age]⟩
  | .routeLandSet c hp trimTh => some ⟨0x0822, c, [hp, trimTh]⟩
  | .routeProbe c dstDa srcDa epoch vn tc entropy det arrival => some ⟨0x0830, c, [dstDa, srcDa, epoch, vn, tc, entropy, det, arrival]⟩
  | .laneQuery c port => some ⟨0x0901, c, [port]⟩
  | .laneRetrain c port kind lane => some ⟨0x0902, c, [port, kind, lane]⟩
  | .laneHistoryClear c port => some ⟨0x0903, c, [port]⟩
  | .clockParentSet c p0 p1 p2 p3 => some ⟨0x0904, c, [p0, p1, p2, p3]⟩
  | .clockParentQuery c => some ⟨0x0905, c, []⟩
  | .laneTestEnter c port remoteAllow => some ⟨0x0910, c, [port, remoteAllow]⟩
  | .laneTestExit c port => some ⟨0x0911, c, [port]⟩
  | .lanePatternSet c port mask gen chk user => some ⟨0x0912, c, [port, mask, gen, chk, user]⟩
  | .laneLoopbackSet c port kind mask => some ⟨0x0913, c, [port, kind, mask]⟩
  | .laneErrInject c port lane kind count stop => some ⟨0x0914, c, [port, lane, kind, count, stop]⟩
  | .laneEyeScan c port lane eye ph0 ph1 phStep of0 of1 ofStep dwell result => some ⟨0x0915, c, [port, lane, eye, ph0, ph1, phStep, of0, of1, ofStep, dwell, result]⟩
  | .lanePrbsRead c port => some ⟨0x0916, c, [port]⟩
  | .cageSet c port auto autoPwr pwrEn indA indB => some ⟨0x0920, c, [port, auto, autoPwr, pwrEn, indA, indB]⟩
  | .timeQuery c => some ⟨0x0A01, c, []⟩
  | .timeCfgSet c mode isGm prio lockTh unlockTh stepTh holdLim persist => some ⟨0x0A02, c, [mode, isGm, prio, lockTh, unlockTh, stepTh, holdLim, persist]⟩
  | .timeSet c ns frac => some ⟨0x0A03, c, [ns, frac]⟩
  | .timeUtcSet c utc persist => some ⟨0x0A04, c, [utc, persist]⟩
  | .timePortQuery c port => some ⟨0x0A10, c, [port]⟩
  | .timeAsymSet c port asym persist => some ⟨0x0A11, c, [port, asym, persist]⟩
  | .timeMirrorSet c mirror hp fn addr period => some ⟨0x0A20, c, [mirror, hp, fn, addr, period]⟩
  | .timePpsSet c outEn outAny outWidth outDelay inEn inDisc inDelay todEn persist => some ⟨0x0A21, c, [outEn, outAny, outWidth, outDelay, inEn, inDisc, inDelay, todEn, persist]⟩
  | .hostQuery c hp => some ⟨0x0B01, c, [hp]⟩
  | .hostFuncConfig c hp totalVfs pfVec vfVec persist => some ⟨0x0B02, c, [hp, totalVfs, pfVec, vfVec, persist]⟩
  | .hostSplitSet c ctl split persist => some ⟨0x0B03, c, [ctl, split, persist]⟩
  | .hostSlotSet c hp auto autoPwr pwrEn attnInd pwrInd notify persist => some ⟨0x0B10, c, [hp, auto, autoPwr, pwrEn, attnInd, pwrInd, notify, persist]⟩
  | .hostSlotRemove c hp => some ⟨0x0B11, c, [hp]⟩
  | .hostWake c hp => some ⟨0x0B12, c, [hp]⟩
  | .dmaChCreate c ch hp slotA slotB ring n ep ord tc prio vector halfInt fullInt errInt => some ⟨0x0C01, c, [ch, hp, slotA, slotB, ring, n, ep, ord, tc, prio, vector, halfInt, fullInt, errInt]⟩
  | .dmaChTargetSet c ch target da ep rkey => some ⟨0x0C02, c, [ch, target, da, ep, rkey]⟩
  | .dmaChStart c ch => some ⟨0x0C03, c, [ch]⟩
  | .dmaChStop c ch => some ⟨0x0C04, c, [ch]⟩
  | .dmaChReset c ch => some ⟨0x0C05, c, [ch]⟩
  | .dmaChDestroy c ch => some ⟨0x0C06, c, [ch]⟩
  | .dmaChQuery c ch => some ⟨0x0C07, c, [ch]⟩
  | .dmaChPrioSet c ch prio => some ⟨0x0C08, c, [ch, prio]⟩
  | .identify c => some ⟨0x0101, c, []⟩
  | .capsQuery c => some ⟨0x0102, c, []⟩
  | .echo c lo hi => some ⟨0x0103, c, [lo, hi]⟩
  | .adminStats c => some ⟨0x0104, c, []⟩
  | .deviceReset c => some ⟨0x0E01, c, []⟩
  | .portReset c port => some ⟨0x0E02, c, [port]⟩
  | .blockReset c blk inst => some ⟨0x0E03, c, [blk, inst]⟩
  | .setMode c mode => some ⟨0x0E10, c, [mode]⟩
  | .bootModeSet c mode => some ⟨0x0E11, c, [mode]⟩
  | .lcQuery c => some ⟨0x0E20, c, []⟩
  | .lcChange c lc => some ⟨0x0E21, c, [lc]⟩
  | .identityWrite c serial keyAddr => some ⟨0x0E22, c, [serial, keyAddr]⟩
  | .calibrationWrite c offset addr length => some ⟨0x0E23, c, [offset, addr, length]⟩
  | .peatQuery c => some ⟨0x0E30, c, []⟩
  | .journalRead c age page => some ⟨0x0E31, c, [age, page]⟩
  | .peatRead c offset length => some ⟨0x0E32, c, [offset, length]⟩
  | .peatWrite c offset addr length => some ⟨0x0E33, c, [offset, addr, length]⟩
  | .fwWrite c slot offset addr length => some ⟨0x0E40, c, [slot, offset, addr, length]⟩
  | .fwVerify c slot => some ⟨0x0E41, c, [slot]⟩
  | .fwActivate c slot => some ⟨0x0E42, c, [slot]⟩
  | .fwCommit c => some ⟨0x0E43, c, []⟩
  | .fwQuery c => some ⟨0x0E44, c, []⟩
  | .personalitySet c personality => some ⟨0x0E50, c, [personality]⟩
  | .pwrQuery c => some ⟨0x0D01, c, []⟩
  | .pwrLimitSet c slew droop stretch persist => some ⟨0x0D02, c, [slew, droop, stretch, persist]⟩
  | .pwrThermalSet c warn thr1 thr2 persist => some ⟨0x0D03, c, [warn, thr1, thr2, persist]⟩
  | .pwrRailMap c rail addr page persist => some ⟨0x0D04, c, [rail, addr, page, persist]⟩
  | .pwrPrewarnForce c mask duration => some ⟨0x0D05, c, [mask, duration]⟩
  | .pwrSensorRead c => some ⟨0x0D06, c, []⟩
  | .fltQuery c source => some ⟨0x0F01, c, [source]⟩
  | .fltSeveritySet c first count sev persist => some ⟨0x0F02, c, [first, count, sev, persist]⟩
  | .fltRouteSet c group mask persist => some ⟨0x0F03, c, [group, mask, persist]⟩
  | .faultLogRead c first count => some ⟨0x0F10, c, [first, count]⟩
  | .tallyStart c hp ring m period groups portMaskLo portMaskHi hostMask => some ⟨0x0F20, c, [hp, ring, m, period, groups, portMaskLo, portMaskHi, hostMask]⟩
  | .tallyStop c => some ⟨0x0F21, c, []⟩
  | .counterChain c offset chain => some ⟨0x0F30, c, [offset, chain]⟩
  | .counterClear c blk inst => some ⟨0x0F31, c, [blk, inst]⟩
  | .counterWrapClear c offset => some ⟨0x0F32, c, [offset]⟩
  | _ => none

/-- The strand that a command brings. -/
def Instr.strand : Instr → Option Strand
  | .timeAnnouncement _ st => some st
  | .readResend st => some st
  | .parkingTimeout st => some st
  | .contextFetchTimeout st => some st
  | .writeStrand st => some st
  | .writeImmStrand st => some st
  | .putCountStrand st => some st
  | .sendStrand st => some st
  | .sendTaggedStrand st => some st
  | .rndvRtsStrand st => some st
  | .rndvDoneStrand st => some st
  | .readReqStrand st => some st
  | .rndvReadStrand st => some st
  | .readRspStrand st => some st
  | .rndvReadRsp st => some st
  | .atomicStrand st => some st
  | .atomicRspStrand st => some st
  | .lockAcquire st => some st
  | .lockTry st => some st
  | .lockRelease st => some st
  | .lockGrant st => some st
  | .lockBusy st => some st
  | .lockInherit st => some st
  | .lockReleased st => some st
  | .lockRemoved st => some st
  | .stepData st => some st
  | .armFire st => some st
  | .ackStrand st => some st
  | .nackStrand st => some st
  | .resyncNack st => some st
  | .trimNoticeStrand st => some st
  | .epGoneStrand st => some st
  | .mgmtRx st => some st
  | .remoteAdmin st => some st
  | .dataWrite st => some st
  | .dataRead st => some st
  | _ => none

/-- The service frame that a command brings. -/
def Instr.frame : Instr → Option Frame
  | .timeStamp _ fr => some fr
  | .linkAck _ fr => some fr
  | .congHint _ fr => some fr
  | .trainReq _ fr => some fr
  | .trainRsp _ fr => some fr
  | .trainState _ fr => some fr
  | .identity _ fr => some fr
  | .propose _ fr => some fr
  | .accept _ fr => some fr
  | .reject _ fr => some fr
  | .done _ fr => some fr
  | .linkHealth _ fr => some fr
  | .loopback _ fr => some fr
  | _ => none

/-- The bead that a command brings. -/
def Instr.bead : Instr → Option Bead
  | .headerBeadArrival _ b => some b
  | .beadArrival _ b => some b
  | _ => none

/-- The data of a read that a command completes. -/
def Instr.readData : Instr → Option Bytes
  | .ringEntryArrival _ _ data => some data
  | .contextFetchComplete _ _ data => some data
  | .atomicReadComplete _ _ data => some data
  | .hostReadComplete _ _ data => some data
  | .walkReadComplete _ _ data => some data
  | .headWordReadComplete _ _ data => some data
  | _ => none

/-- The endpoint that a descriptor command names. -/
def Instr.endpoint : Instr → Option Nat
  | .pollTimer ep => some ep
  | .triggeredStart ep => some ep
  | .nop ep => some ep
  | .write ep => some ep
  | .writeImm ep => some ep
  | .read ep => some ep
  | .putCount ep => some ep
  | .send ep => some ep
  | .sendTagged ep => some ep
  | .atomic ep => some ep
  | .claspAcquire ep => some ep
  | .claspTry ep => some ep
  | .claspRelease ep => some ep
  | .collStart ep => some ep
  | .recv ep => some ep
  | .recvTagged ep => some ep
  | .spillReturn ep => some ep
  | _ => none

/-! ### The checks -/

/-- A bead carries 64 bytes (R36) (DEDUCED, log 87). -/
def Bead.wellFormed (b : Bead) : Bool := b.content.length == 64

/-- A strand carries at most 64 payload beads (R44, R45) (DEDUCED, log 87). -/
def Strand.wellFormed (st : Strand) : Bool := decide (st.beads.length ≤ 64) && st.beads.all Bead.wellFormed

/-- The body of a received frame has at most 15 bytes, one more than R324 defines, which R325 discards (DEDUCED, log 87). -/
def Frame.wellFormed (f : Frame) : Bool := decide (f.body.length ≤ 15)

/-- Each parameter fits its field; SEQ, the ring position and REPLY_DATA fit theirs (R428, R429) (DEDUCED, log 87). -/
def AdminPart.wellFormed (p : AdminPart) : Bool :=
  decide (p.ctx.seq < 2 ^ 32) && decide (p.ctx.index < 2 ^ 16) && decide (p.ctx.replyData < 2 ^ 64)
    && p.params.length == (Machine.sizesOf p.op).length
    && ((Machine.sizesOf p.op).zip p.params).all (fun x => decide (x.2 < 256 ^ x.1.1))

/-- An access has 32 or 64 bits (R422) and its value fits it. -/
def accessWellFormed (width value : Nat) : Bool := (width == 32 || width == 64) && decide (value < 2 ^ width)

/-- What the other operands must satisfy: numbers of vectors (R382), queues (R79, R85), clusters (R448) and their
engines, of sensors (R500) and rails (R490). -/
def Instr.otherOperands : Instr → Bool
  | .ctrlEnSet _ _ v => accessWellFormed 32 v
  | .ctrlEnClear _ _ v => accessWellFormed 32 v
  | .registerWrite _ _ w v _ => accessWellFormed w v
  | .rxDataRead _ w => accessWellFormed w 0
  | .cqArm _ cq => decide (cq < 2 ^ 16)
  | .eqModerationTimer _ q => decide (q < 256)
  | .msixUnmask _ v _ => decide (v < 2048)
  | .bootSequence l => l.all (fun x => decide (x.1 < 72) && decide (x.2 < 256))
  | .thermalReading l => decide (l.length = 96)
  | .pmbusPoll l => decide (l.length = 6)
  | .pmAlert l => decide (l.length = 6)
  | .containmentAction s => decide (s < 1024)
  | _ => true

/-- Is a command well formed (DESIGN CHOICE, log 1). -/
def Instr.wellFormed (i : Instr) : Bool :=
  i.adminPart.all AdminPart.wellFormed && i.strand.all Strand.wellFormed && i.frame.all Frame.wellFormed
    && i.bead.all Bead.wellFormed && i.readData.all (fun b => decide (b.length ≤ 4096))
    && i.endpoint.all (fun e => decide (e < 2 ^ 20)) && i.otherOperands

end Sys2Proof
end

