-- ==== Sys2Proof/Safety.lean ====
section
/-! DEFINITION. What the statements call a device at rest, a command that is served, and the invariant they speak
of. -/

namespace Sys2Proof

open Machine

/-! ### The invariant -/

/-- The addressed stores (the Peat store, the flash, MBX.DATA) are in their one form: rising addresses, no byte that an
unlisted address reads as. -/
def StoresWf (d : Dev) : Prop :=
  cellsWf d.nv.peat = true ∧ cellsWf d.nv.flash = true ∧ cellsWf d.mnt.data = true

/-! ### A device at rest -/

/-- Does the state of an endpoint lag behind what it has in progress (R61). -/
def epLags (d : Dev) (e : Nat) : Bool :=
  match ep? d e with
  | none => false
  | some x =>
    match x.state with
    | .ready => epBusy d e x
    | .active => !epBusy d e x
    | .draining => !epBusy d e x
    | _ => false

/-- Is an operation waiting for something that the end of any command may bring. -/
def opLags (o : Op) : Bool := o.waitsInside || o.parts.any (fun q => !q.sent && !q.held)

/-- Is there something that the end of a command does for a DMA channel: a descriptor to be written back, or a stop to be
answered. -/
def dmaLags (x : DmaCh) : Bool :=
  x.jobs.any (fun j => j.ended || (!j.begun && j.status == 0x11)) || (x.stop.isSome && x.jobs.isEmpty)

/-- Does a port whose negotiated change has been accepted go on to train now. -/
def portLags (p : Port) : Bool := p.lane.nego.isSome && p.lane.phase == 6 && p.link.txOpen.isNone

/-- Nothing is left to be done, and nothing waits that the end of a command looks at: no work in hand, no endpoint,
operation, DMA channel or port that lags, no admin command in progress, no request of the maintenance port that waits; and
the addressed stores are in their one form. -/
def atRest (d : Dev) : Bool :=
  d.work.isEmpty && d.ept.eps.all (fun p => !epLags d p.1) && d.xp.ops.all (fun p => !opLags p.2) && d.adm.running.isEmpty
    && d.dma.chs.all (fun p => !dmaLags p.2) && d.ports.all (fun p => !portLags p.2)
    && d.mnt.waiting.isEmpty && cellsWf d.nv.peat && cellsWf d.nv.flash && cellsWf d.mnt.data

/-! ### What is claimed of a command -/

/-- A claim about a command with its operands: what it asks of the device before it, and the device after it. -/
structure Completion where
  cmd : Instr
  pre : Dev → Bool
  post : Dev → Dev

/-- On every state whose device is at rest and meets what is asked, the command answers the next state with that device
and with the queue as it was. -/
def Completion.Holds (k : Completion) : Prop :=
  ∀ s : State, atRest s.dev = true → k.pre s.dev = true → exec k.cmd s = .next { s with dev := k.post s.dev }

/-- A claim that says of the device after the command what holds of it, not all of it. -/
structure Effect where
  cmd : Instr
  pre : Dev → Bool
  post : Dev → Dev → Prop

/-- On every such state the command answers a next state with the queue as it was and a device of which that holds. -/
def Effect.Holds (k : Effect) : Prop :=
  ∀ s : State, atRest s.dev = true → k.pre s.dev = true →
    ∃ t : State, exec k.cmd s = .next t ∧ t.pending = s.pending ∧ k.post s.dev t.dev

/-! ### What a claim asks for and says -/

/-- A counter takes `n` more without a wrap (R523, R524). -/
def roomFor (d : Dev) (a n : Nat) : Bool := chainedOdd d a || decide ((reg d a).toNat + n < 2 ^ 48)

/-- A function may write host memory, in at most `n` TLPs, and nothing follows from the write (R375, R387, R484). -/
def canWrite (d : Dev) (f : Func) (n : Nat) : Bool :=
  mayIssue d f && !frozen d && (fn d f).bme && roomFor d (HOSTB f.hp + 0x200) n

/-- A function may read host memory, in at most `n` requests, and nothing else follows (R375, R390). -/
def canRead (d : Dev) (f : Func) (n : Nat) : Bool := mayIssue d f && (fn d f).bme && roomFor d (HOSTB f.hp + 0x208) n

/-- R482: PERSIST is 0 or the record was not written within the last 250 ms. -/
def mayPersist (d : Dev) (on key : Nat) : Bool := decide (on ≤ 1) && (on == 0 || !recordBusy d key)

/-- R482: with PERSIST the record takes its new values. -/
def kept (on key : Nat) (vals : Dev → List Nat) (d : Dev) : Dev := if on = 1 then recordPut key (vals d) d else d

/-- Not the fatal severity, and no host is told: the occurrence is not new, is only logged, or is routed to no host port
(R514, R517). -/
def unheard (d : Dev) (s : Nat) : Bool :=
  sevApplied d s false != 4
    && (stickyOf d s || decide (sevApplied d s false ≤ 1) || (List.range 8).all (fun m => !bitOf (routeOf d (srcGroup s)) m))

/-- What FLT keeps of such an occurrence (R514, R519, R522): the sticky bit and a mark for the log where it is new, and at
severity Contain an action that is due. -/
def noted (s : Nat) (d : Dev) : Dev :=
  let v := sevApplied d s false
  let x := d.flt
  if v = 0 ∨ srcReserved s = true then d
  else
    let new := stickyOf d s = false
    { d with flt := { x with
        sticky := if new then x.sticky ++ [s] else x.sticky
        marks := if new then x.marks ++ [{ source := s, edge := true, forced := false, sev := v }] else x.marks
        contain := if v = 3 then x.contain ++ [s] else x.contain } }

/-- A register access of a master goes through to every page: the device has booted and is not on the fatal path, the host's
function answers, and it is a PF or the maintenance port (R378, R385, R469, R520). -/
def windowOpen (d : Dev) (m : Master) : Bool :=
  !hostBarred m d && d.flt.fatal.isNone && decide (6 ≤ fld d (GLB + 0x028) 0 3) && decide ((viewFn m).fn = 0)

/-- R324: a service frame of a port with its CRC. -/
def frameOut (n typ : Nat) (body : Bytes) : Output :=
  .frame (portNo n) ⟨BitVec.ofNat 8 typ, body, crc16 (BitVec.ofNat 8 typ :: body), false⟩

/-- An output leaves during the command: the outputs after it are those before it and more, with this one among them. -/
def leaves (d d' : Dev) (o : Output) : Prop := ∃ l, d'.out = d.out ++ l ∧ o ∈ l

/-- Another device that is not declared unreachable (R214, R215). -/
def reachable (d : Dev) (da : Nat) : Bool := !isSelf d da && (peer d da).state != .unreachable

/-- A stream can give a message its MSN (R233). -/
def msnFree (d : Dev) (k : StreamKey) : Bool :=
  match aget d.xp.sendRecs k with
  | some r => decide (r.unacked.length < 8)
  | none => decide (streamsUsed d < 65536)

/-- No strand toward a device waits for its payload or its turn in its stream (R223). -/
def turnFree (d : Dev) (da : Nat) : Bool :=
  d.xp.contents.all (fun p => decide (p.2.hdr.dstDa.toNat ≠ da) || !turnOpen d p.1 p.2)
    && d.xp.held.all (fun q => q.cid != d.xp.nextCid && (content? d q.cid).all (fun c => decide (c.hdr.dstDa.toNat ≠ da)))

/-- A completion of a side of an endpoint is written at once, and nothing follows from it: its queue is not in error, not
full and not armed, and no counter is bound (R80 to R84, R204). -/
def quietCq (d : Dev) (e : Nat) (dir : Bool) : Bool :=
  (ep? d e).any (fun x => (cq? d (if dir then x.rCq else x.sCq)).any (fun c =>
    !c.error && c.waiting == [] && !queueFull c.wr c.cached c.n && !c.armed && canWrite d c.f 33))
    && (mget d.coll.binds (e * 2 + b2n dir)).isNone

/-- A new strand is the last in the queue of a Braid: `p` holds of its header as queued and of its payload (R223,
R256). -/
def queuedTo (d d' : Dev) (da : Nat) (vn : Bool) (p : Hdr → List Chunk → Prop) : Prop :=
  ∃ q c, (sendHalf (peer d' da) vn).queue = (sendHalf (peer d da) vn).queue ++ [q] ∧ q.bsn = none
    ∧ content? d' q.cid = some c ∧ p c.hdr q.data

/-! ### Admin commands by the mailbox -/

/-- An admin command comes by the mailbox to a device that carries commands out: its operands fit their fields, the device
is not on the fatal path and not in RECOVERY, no host-loss processing runs, no remote command is being answered, and for
a result of `n` bytes (0 where the reply itself holds the result) REPLY_DATA has room (R429, R432, R439). -/
def byMailbox (i : Instr) (c : AdminCtx) (n : Nat) (d : Dev) : Bool :=
  i.wellFormed && decide (c.path = .mailbox) && d.flt.fatal.isNone && curMode d != 3 && d.hosts.all (fun h => h.2.loss.isNone)
    && d.mnt.remote.isNone && (n == 0 || (c.replyData != 0 && c.replyData % 8 == 0 && decide (c.replyData + n ≤ 0x10000)))

/-- By the mailbox, on a device of which `h` holds, the command is carried out: its effect is `f`, and it replies SUCCESS
with a result (R430, R439). -/
def served (i : Instr) (c : AdminCtx) (op n : Nat) (h : Dev → Bool) (data : Dev → Bytes) (f : Dev → Dev) : Completion :=
  { cmd := i, pre := fun d => byMailbox i c n d && h d, post := fun d => replyOut c op 0 0 (data d) (f d) }

/-- By the mailbox, on a device of which `h` holds, the command is refused with a STATUS and REASON and changes nothing
but the reply (R431, R432). -/
def refused (i : Instr) (c : AdminCtx) (op : Nat) (h : Dev → Bool) (status reason : Nat) : Completion :=
  { cmd := i, pre := fun d => byMailbox i c 0 d && h d, post := fun d => replyOut c op status reason [] d }

/-- By the mailbox, on a device of which `h` holds, the command gives a result with SUCCESS and changes nothing but the
reply; of the result, `q` holds. -/
def queried (i : Instr) (c : AdminCtx) (op n : Nat) (h : Dev → Bool) (q : Dev → Bytes → Prop) : Effect :=
  { cmd := i, pre := fun d => byMailbox i c n d && h d
    post := fun d d' => ∃ data : Bytes, q d data ∧ d' = replyOut c op 0 0 data d }

end Sys2Proof
end

