-- ==== Sys2Proof/Claims/Time.lean ====
section
/-! DEFINITION. What is claimed of fabric time: PPS, the time-of-day line, mirrors, markers and samples, the servo, the
clock parent and the election (R354 to R370). -/

namespace Sys2Proof.Claims

open Machine

/-- R324, R325: a service frame that arrives unharmed. -/
def frameOk (typ : Nat) (body : Bytes) : Frame := ⟨BitVec.ofNat 8 typ, body, crc16 (BitVec.ofNat 8 typ :: body), false⟩

/-- A port takes every frame: it is neither in DOWN nor in TEST, and the device sends frames (R343, R520). -/
def hears (d : Dev) (n : Nat) : Bool := (port d n).lane.phase != 0 && (port d n).lane.phase != 7 && d.flt.fatal.isNone

/-- TIME is enabled, and the port is from phase IDENTITY onward and not in TEST (R354). -/
def keepsTime (d : Dev) (n : Nat) : Bool := hears d n && enabled d TIME && decide (2 ≤ (port d n).lane.phase)

/-! ### Time services -/

/-- R369: an accepted edge of PPS_IN on a device that is not disciplined by it is stamped in TIME.PPS_IN. -/
noncomputable def ppsInStamp : Completion :=
  { cmd := .ppsInEdge
    pre := fun d => fld d (TIME + 0x050) 2 1 == 1 && (fld d (TIME + 0x050) 3 1 == 0 || !d.time.isGm)
      && d.time.ppsLast.all (fun t => decide (t + 500000000 ≤ d.clk))
    post := fun d =>
      let stamp : Int := (d.time.ns * 65536 + d.time.frac : Int) - ps16 d.time.inDelay
      setReg (TIME + 0x058) (BitVec.ofNat 64 (stamp / 65536).toNat) { d with time := { d.time with ppsLast := some d.clk } } }

/-- R369: an edge less than 0.5 s after the last accepted one is ignored and counted. -/
noncomputable def ppsInIgnored : Completion :=
  { cmd := .ppsInEdge
    pre := fun d => fld d (TIME + 0x050) 2 1 == 1 && d.time.ppsLast.any (fun t => decide (d.clk < t + 500000000))
    post := fun d => { d with time := { d.time with ppsIgnored := d.time.ppsIgnored + 1 } } }

/-- R359, R369: the first edge on a disciplined grandmaster, within STEP_TH of a second, gives it class 0. -/
noncomputable def ppsInFirst : Completion :=
  let stamp (d : Dev) : Int := (d.time.ns * 65536 + d.time.frac : Int) - ps16 d.time.inDelay
  { cmd := .ppsInEdge
    pre := fun d => fld d (TIME + 0x050) 2 1 == 1 && fld d (TIME + 0x050) 3 1 == 1 && d.time.isGm && !d.time.ppsSeen
      && d.time.ppsLast.all (fun t => decide (t + 500000000 ≤ d.clk)) && decide ((secondError (stamp d)).natAbs ≤ stepTh d)
    post := fun d =>
      setReg (TIME + 0x058) (BitVec.ofNat 64 (stamp d / 65536).toNat)
        { d with time := { d.time with ppsLast := some d.clk, ppsSeen := true, gmClass := 0 } } }

/-- R359: 3 s without an edge, a disciplined grandmaster has class 1. -/
noncomputable def gmPpsTimeout : Completion :=
  { cmd := .gmPpsTimeout, pre := fun d => d.time.isGm && d.time.gmClass == 0
    post := fun d => { d with time := { d.time with gmClass := 1 } } }

/-- R368: PPS_OUT rises, and is to fall OUT_WIDTH ms later. -/
noncomputable def ppsOutEdge : Completion :=
  { cmd := .ppsOutEdge, pre := fun d => fld d (TIME + 0x050) 0 1 == 1 && (fld d (TIME + 0x050) 1 1 == 1 || timeQ d == 3)
    post := fun d => emit (.pin "PPS_OUT" 0 1)
      { d with time := { d.time with ppsFall := some (d.clk + 1000000 * fld d (TIME + 0x050) 8 8) } } }

/-- R368: PPS_OUT is not driven while the reported TQ is not LOCKED and OUT_ANY is 0. -/
noncomputable def ppsOutHeld : Completion :=
  { cmd := .ppsOutEdge, pre := fun d => fld d (TIME + 0x050) 1 1 == 0 && timeQ d != 3, post := id }

/-- R370: the time-of-day line. -/
noncomputable def todLineSent : Completion :=
  { cmd := .todLine
    pre := fun d => fld d (TIME + 0x050) 4 1 == 1 && fld d (TIME + 0x050) 0 1 == 1 && (fld d (TIME + 0x050) 1 1 == 1 || timeQ d == 3)
    post := fun d => emit (.tod (Machine.todLine d)) d }

/-- R367: the next slot of a mirror is written in three posted writes without Relaxed Ordering: SEQ_HEAD, what the slot
shows, SEQ_TAIL. -/
noncomputable def mirrorWrite (k : Fin 64) : Effect :=
  { cmd := .mirrorWrite k
    pre := fun d => (mget d.time.mirrors k).any (fun m => canWrite d m.f 3 && m.addr % 64 == 0 && decide (32 ≤ (fn d (pf m.f.hp)).mps))
    post := fun d d' => ∃ m, mget d.time.mirrors k = some m
      ∧ (let a := m.addr + if m.seq % 2 = 1 then 0 else 32
         let t := d.time
         let shown := toLe 8 t.ns ++ toLe 2 t.frac ++ toLe 1 (timeQ d) ++ toLe 1 0 ++ toLe 4 t.gmDa ++ toLe 2 t.utc ++ zeros 6
         d'.out = d.out ++ [.hostWrite m.f a (toLe 4 m.seq) false false, .hostWrite m.f (a + 4) shown false false,
           .hostWrite m.f (a + 28) (toLe 4 m.seq) false false])
      ∧ d'.time = { d.time with mirrors := mset d.time.mirrors k { m with seq := (m.seq + 1) % 2 ^ 32 } }
      ∧ d'.regs = (countBy (HOSTB m.f.hp + 0x200) 3 d).regs ∧ d'.ports = d.ports }

/-! ### Markers and samples -/

/-- R354, R328: TIME_STAMP with a sequence number, a time and the sender's TQ. -/
def stampBody (d : Dev) (seq ns frac event : Nat) : Bytes := toLe 2 seq ++ toLe 2 frac ++ toLe 8 ns ++ toLe 1 (timeQ d + 4 * event)

/-- R354: a marker leaves and its departure is told. -/
noncomputable def markerSend (n : PortNo) : Completion :=
  { cmd := .markerSend n, pre := fun d => keepsTime d n && decide (d.time.frac < 65536)
    post := fun d =>
      let s := (port d n).pt.seq
      emit (frameOut n 3 (stampBody d s d.time.ns d.time.frac 0))
        (emit (.marker n) (updPTime n (fun p => { p with seq := (s + 1) % 65536, t1 := some (s, d.time.ns * 65536 + d.time.frac) }) d)) }

/-- R354: a peer's marker arrives and its arrival is told with the peer's MARK_SEQ. -/
noncomputable def markerArrival (n : PortNo) : Completion :=
  { cmd := .markerArrival n, pre := fun d => keepsTime d n && decide (d.time.frac < 65536)
    post := fun d =>
      let s := (port d n).pt.rxSeq
      emit (frameOut n 3 (stampBody d s d.time.ns d.time.frac 1))
        (updPTime n (fun p => { p with rxSeq := (s + 1) % 65536, t4 := some (s, d.time.ns * 65536 + d.time.frac) }) d) }

/-- R328: a TIME_STAMP frame of the peer. -/
def stampFrame (seq ns frac q event : Nat) : Frame := frameOk 3 (toLe 2 seq ++ toLe 2 frac ++ toLe 8 ns ++ toLe 1 (q + 4 * event))

/-- The fields of a TIME_STAMP are in their ranges. -/
def stampFits (seq ns frac q : Nat) : Bool := decide (seq < 65536) && decide (ns < 2 ^ 64) && decide (frac < 65536) && decide (q < 4)

/-- R354, R355: the peer's departure is taken, with its MARK_SEQ and TQ; no sample waits for it. -/
noncomputable def stampDeparture (n : PortNo) (seq ns frac q : Nat) : Completion :=
  { cmd := .timeStamp n (stampFrame seq ns frac q 0)
    pre := fun d => keepsTime d n && stampFits seq ns frac q && (port d n).pt.t2.isNone && d.time.parent != some n.val
    post := fun d => updPTime n (fun p =>
      { p with t3 := some (seq, ns * 65536 + frac), rxSeq := (seq + 1) % 65536, tq := q, t4 := p.t4.map (fun x => (seq, x.2)) }) d }

/-- R355: the arrival of this port's own marker, of which the peer's departure is not yet known, waits. -/
noncomputable def stampArrival (n : PortNo) (seq ns frac q : Nat) : Completion :=
  { cmd := .timeStamp n (stampFrame seq ns frac q 1)
    pre := fun d => keepsTime d n && stampFits seq ns frac q && d.time.parent != some n.val && (port d n).pt.t1.any (fun x => x.1 == seq)
      && (port d n).pt.t4.any (fun x => (port d n).pt.t3.all (fun y => y.1 != x.1))
    post := fun d => updPTime n (fun p =>
      { p with tq := q, t2 := some (ns * 65536 + frac, (p.t1.getD (0, 0)).2, (p.t4.getD (0, 0)).1, (p.t4.getD (0, 0)).2) }) d }

/-- R355, R356: with the peer's departure the sample is complete; the first sample of a port that is not the clock parent
sets D. -/
noncomputable def stampSample (n : PortNo) (seq ns frac q : Nat) : Effect :=
  { cmd := .timeStamp n (stampFrame seq ns frac q 0)
    pre := fun d => keepsTime d n && stampFits seq ns frac q && d.time.parent != some n.val && (port d n).pt.d.isNone
      && (port d n).pt.t4.isSome && (port d n).pt.t2.any (fun x => x.2.2.1 == ((port d n).pt.t4.getD (0, 0)).1)
    post := fun d d' => ∃ t2 t1 t4 : Int, ∃ s, (port d n).pt.t2 = some (t2, t1, s, t4)
      ∧ (let t3 : Int := ns * 65536 + frac
         let p := (port d' n).pt
         p.d = some (((t4 - t1) - (t3 - t2)) / 2) ∧ p.lastTheta = ((t2 - t1) - (t4 - t3) + asymOf d n) / 2
           ∧ p.accepted = (port d n).pt.accepted + 1 ∧ p.runDiscards = 0 ∧ p.t2 = none)
      ∧ d'.time = d.time ∧ d'.regs = d.regs ∧ d'.out = d.out }

/-- The sample that a departure completes on the clock parent: its mean path delay and theta (R355). -/
def sampleOf (d : Dev) (n ns frac : Nat) : Int × Int :=
  match (port d n).pt.t2 with
  | none => (0, 0)
  | some (t2, t1, _, t4) =>
    let t3 : Int := ns * 65536 + frac
    (((t4 - t1) - (t3 - t2)) / 2, ((t2 - t1) - (t4 - t3) + asymOf d n) / 2)

/-- R356, R360: a departure that completes an accepted sample of the clock parent whose D is valid: its theta counts. -/
def thetaCounts (d : Dev) (n seq ns frac q : Nat) : Bool :=
  keepsTime d n && stampFits seq ns frac q && d.time.parent == some n && !d.time.isGm && decide (7 ≤ (port d n).pt.accepted)
    && decide ((port d n).pt.runDiscards < 16)
    && (port d n).pt.d.any (fun x => decide (((sampleOf d n ns frac).1 - x).natAbs ≤ 4 * 65536))
    && (port d n).pt.t4.isSome && (port d n).pt.t2.any (fun x => x.2.2.1 == ((port d n).pt.t4.getD (0, 0)).1)

/-- R362: theta is corrected by a quarter of it, clamped, over 65,536 ns. -/
def correctedBy (lim theta : Int) (t : TimeSt) : TimeSt := { t with corr := max (-lim) (min lim (theta / 4)), corrLeft := 65536, acc := 0 }

/-- R360, R362: a valid theta in LOCKED is corrected, at most 4 ns; it counts toward the four in a row above UNLOCK_TH that end
LOCKED, of which it is not the fourth here. -/
noncomputable def thetaLocked (n : PortNo) (seq ns frac q : Nat) : Effect :=
  { cmd := .timeStamp n (stampFrame seq ns frac q 0)
    pre := fun d => thetaCounts d n seq ns frac q && d.time.state == .locked && decide (d.time.bads < 3)
    post := fun d d' =>
      let theta := (sampleOf d n ns frac).2
      d'.time = correctedBy (4 * 65536) theta
          { d.time with theta := theta, parentTq := q, bads := if unlockTh d < theta.natAbs then d.time.bads + 1 else 0 }
        ∧ d'.out = d.out ∧ d'.flt = d.flt }

/-- R360, R362: a valid theta in LOCKING after fifteen in a row of at most LOCK_TH: of more than STEP_TH, fabric time steps by
it; else of at most LOCK_TH, the device is LOCKED; else the row ends and theta is corrected, at most 1,024 ns. -/
noncomputable def thetaLocking (n : PortNo) (seq ns frac q : Nat) : Effect :=
  { cmd := .timeStamp n (stampFrame seq ns frac q 0)
    pre := fun d => thetaCounts d n seq ns frac q && d.time.state == .locking && d.time.goods == 15 && unheard d (srcWin 3 2)
      && unheard d (srcWin 3 3)
    post := fun d d' =>
      let theta := (sampleOf d n ns frac).2
      let t : TimeSt := { d.time with theta := theta, parentTq := q, goods := 0 }
      let new := ((d.time.ns * 65536 + d.time.frac + theta) % 2 ^ 80).toNat
      if stepTh d < theta.natAbs then
        d'.time = { t with stepCount := t.stepCount + 1, corrLeft := 0, acc := 0, ns := new / 65536, frac := new % 65536 }
          ∧ d'.flt = (noted (srcWin 3 2) d).flt
      else if theta.natAbs ≤ lockTh d then d'.time.state = .locked ∧ d'.time.ns = d.time.ns ∧ d'.flt = (noted (srcWin 3 3) d).flt
      else d'.time = correctedBy (1024 * 65536) theta t ∧ d'.flt = d.flt }

/-! ### State changes (R359, R360) -/

/-- R360: 10 ms without a valid theta, a LOCKED device with a clock parent is LOCKING. -/
noncomputable def servoNoTheta : Completion :=
  { cmd := .servoNoTheta, pre := fun d => d.time.state == .locked && d.time.parent.isSome && unheard d (srcWin 3 3)
    post := fun d => noted (srcWin 3 3) { d with time := { d.time with state := .locking, goods := 0, bads := 0 } } }

/-- R360: HOLDOVER_LIMIT passes without a clock parent. -/
noncomputable def holdoverLimit : Completion :=
  { cmd := .holdoverLimit, pre := fun d => d.time.state == .holdover && d.time.parent.isNone && unheard d (srcWin 3 3)
    post := fun d => noted (srcWin 3 3) { d with time := { d.time with state := .freeRun, goods := 0, bads := 0 } } }

/-- R330, R331, R360: the clock parent is lost and no candidate is eligible: the device holds its frequency offset, and
leaves LOCKED for HOLDOVER. -/
noncomputable def clockParentLost : Completion :=
  { cmd := .clockParentLoss
    pre := fun d => d.time.parent.any (fun q => !parentOk d q) && (parentList d).all (fun p => !parentOk d p) && !d.time.isGm
      && d.time.state == .locked && (d.boot.refA || d.boot.refB) && unheard d (srcWin 3 3)
    post := fun d =>
      let held := ((port d (d.time.parent.getD 0)).lane.fclk).getD d.time.heldPpm
      noted (srcWin 3 3) { d with time := { d.time with
        parent := none, state := .holdover, goods := 0, bads := 0, heldPpm := held, parentTq := 0, holdSince := d.clk } } }

/-- R331, R360: with another candidate eligible, the first of them is the parent, and the state stays. -/
noncomputable def clockParentMoves (p : Nat) : Completion :=
  { cmd := .clockParentLoss
    pre := fun d => d.time.parent.any (fun q => !parentOk d q && q != p) && (parentList d).find? (parentOk d) == some p && !d.time.isGm
    post := fun d =>
      let held := ((port d (d.time.parent.getD 0)).lane.fclk).getD d.time.heldPpm
      { d with time := { d.time with parent := some p, goods := 0, bads := 0, heldPpm := held, parentTq := (port d p).pt.tq } } }

/-! ### Election (R358) -/

/-- R358: the announcement of the device to a neighbour. -/
def announcement (d : Dev) (da : Nat) (h : Hdr) : Prop :=
  h.vn = true ∧ h.tc = 0 ∧ h.kind = 9 ∧ h.op.toNat = 0xA0 ∧ h.dstDa = BitVec.ofNat 17 da ∧ h.srcDa = BitVec.ofNat 17 d.rtr.da ∧ h.len = 0
    ∧ h.opw = BitVec.ofNat 128 (d.time.gmDa + 2 ^ 24 * d.time.gmPrio + 2 ^ 32 * d.time.gmClass + 2 ^ 36 * d.time.steps)

/-- R358: in ELECT, each in-service LOCAL or GLOBAL port queues an announcement to its neighbour. -/
noncomputable def announceSend : Effect :=
  { cmd := .announceSend
    pre := fun d => enabled d TIME && fld d (TIME + 0x020) 0 1 == 1 && decide (d.ports.map (·.1)).Nodup
      && d.ports.all (fun p => p.2.out.qs.length == 8)
    post := fun d d' =>
      (∀ p ∈ d.ports, p.2.state ≠ 0 → p.2.role < 2 → ∀ da pn, p.2.neighbour = some (da, pn) →
        ∃ e, (port d' p.1).out.q 4 = p.2.out.q 4 ++ [e] ∧ announcement d da e.st.hdr ∧ e.cells = 1 ∧ e.whole = true)
      ∧ d'.regs = d.regs ∧ d'.time = d.time ∧ d'.out = d.out }

/-- R358: a neighbour's announcement is kept with the time of its arrival. -/
noncomputable def timeAnnouncement (n : PortNo) (st : Strand) : Completion :=
  { cmd := .timeAnnouncement n st
    pre := fun d => st.hdr.kind == 9 && st.hdr.op == 0xA0 && decide (unland st d = d)
    post := fun d =>
      let w := st.hdr.opw.toNat
      updPTime n (fun p => { p with offer := some (w / 2 ^ 24 % 256, w / 2 ^ 32 % 4, w % 2 ^ 17, w / 2 ^ 36 % 16, d.clk) }) d }

/-- R358: an offer of a port that counts: its priority, class and grandmaster, and its STEPS. -/
def liveOffer (d : Dev) (n : Nat) : Option ((Nat × Nat × Nat) × Nat) :=
  match (port d n).pt.offer with
  | none => none
  | some (pr, c, da, st, t) => if st ≤ 14 ∧ d.clk - t ≤ 3000000 then some ((pr, c, da), st) else none

/-- The own offer of a device (R358, R359). -/
def ownOffer (d : Dev) : Nat × Nat × Nat := (fld d (TIME + 0x020) 8 8, ownClass d, d.rtr.da)

/-- R358: the grandmaster finds no better offer and stays grandmaster; its candidate list is empty. -/
noncomputable def electionKept : Completion :=
  { cmd := .electionEvaluate
    pre := fun d => enabled d TIME && electMode d && d.time.isGm && decide (fld d (TIME + 0x020) 8 8 < 255)
      && d.ports.all (fun p => port d p.1 == p.2 && (liveOffer d p.1).all (fun o => offerLt (ownOffer d) o.1))
    post := fun d => { d with time := { d.time with elected := [], gmPrio := fld d (TIME + 0x020) 8 8, gmDa := d.rtr.da, steps := 0 } } }

/-- R358, R359: a LOCKED or HOLDOVER device without a better offer becomes grandmaster with class 1 and keeps its time; it
uses no clock parent. -/
noncomputable def electionWon : Effect :=
  { cmd := .electionEvaluate
    pre := fun d => enabled d TIME && electMode d && !d.time.isGm && decide (fld d (TIME + 0x020) 8 8 < 255)
      && (d.time.state == .locked || d.time.state == .holdover) && (d.boot.refA || d.boot.refB) && unheard d (srcWin 3 3)
      && d.ports.all (fun p => port d p.1 == p.2 && (liveOffer d p.1).all (fun o => offerLt (ownOffer d) o.1))
    post := fun d d' =>
      let t := d'.time
      t.isGm = true ∧ t.state = .locked ∧ t.gmClass = 1 ∧ t.gmPrio = fld d (TIME + 0x020) 8 8 ∧ t.gmDa = d.rtr.da ∧ t.steps = 0
        ∧ t.elected = [] ∧ t.parent = none ∧ t.ns = d.time.ns ∧ t.frac = d.time.frac ∧ d'.regs = d.regs ∧ d'.out = d.out }

/-- R358: a device that is not grandmaster with the only offer on port `n`, better than its own: its candidate is that port,
its STEPS one more than the offer's. -/
noncomputable def electionLost (n : PortNo) : Effect :=
  { cmd := .electionEvaluate
    pre := fun d => enabled d TIME && electMode d && !d.time.isGm && parentOk d n && (d.boot.refA || d.boot.refB)
      && d.ports.all (fun p => port d p.1 == p.2 && (p.1 == n.val || (liveOffer d p.1).isNone)) && decide (d.ports.map (·.1)).Nodup
      && mhas d.ports n.val && (liveOffer d n).any (fun o => fld d (TIME + 0x020) 8 8 == 255 || offerLt o.1 (ownOffer d))
    post := fun d d' => ∃ pr c da st, liveOffer d n = some ((pr, c, da), st)
      ∧ (let t := d'.time
         t.isGm = false ∧ t.elected = [n.val] ∧ t.parent = some n.val ∧ t.steps = st + 1 ∧ t.gmDa = da ∧ t.gmPrio = pr ∧ t.gmClass = c
           ∧ t.state = d.time.state)
      ∧ d'.regs = d.regs ∧ d'.out = d.out }

end Sys2Proof.Claims
end

