-- ==== Sys2Proof/Claims/Links.lean ====
section
/-! DEFINITION. What is claimed of lanes and links: the service lane, bring-up and training, negotiated changes, health,
test, cages (R278, R280, R315 to R348), and the link layer (R300 to R311). -/

namespace Sys2Proof.Claims

open Machine

/-! ### What a port is asked for -/

/-- Nothing that the port has asked of its peer, or that an admin command asked of it, is outstanding. -/
def settled (d : Dev) (n : Nat) : Bool := (port d n).lane.nego.isNone && (port d n).lane.again.isEmpty && (port d n).role == (port d n).roleNext

/-- A port that is not in service returns to DOWN and holds there (R333, R337). -/
def wentDown (d d' : Dev) (n : Nat) (hold : PortHold) : Prop :=
  let l := (port d' n).lane
  (port d' n).state = 0 ∧ l.phase = 0 ∧ l.lanes = 0 ∧ l.half = false ∧ l.hold = hold ∧ (port d' n).pt = { asym := (port d n).pt.asym }

/-- A port in service holds no strand: its queues, its replay buffer and its receiver are empty. -/
def holdsNothing (d : Dev) (n : Nat) : Bool :=
  let p := port d n
  p.out.qs.all (·.isEmpty) && p.txNext.isNone && p.link.rep.isEmpty && p.link.cur.isNone

/-- A port that held nothing has left service for a cause (R314). -/
def leftService (d d' : Dev) (n cause : Nat) (hold : PortHold) : Prop :=
  wentDown d d' n hold ∧ (port d' n).neighbour = none ∧ (port d' n).link.cause = cause ∧ d'.flt = (noted (srcPort n 0) d).flt
    ∧ d'.out = d.out ∧ d'.nv = d.nv

/-! ### Service sync and clocks (R322, R323, R332) -/

/-- R323: the service lane has sync. -/
noncomputable def syncAcquired (n : PortNo) : Completion :=
  { cmd := .serviceSyncAcquire n, pre := fun d => (port d n).lane.phase != 1
    post := updLane n (fun l => { l with svcSync := true }) }

/-- R334: with service sync and CLK_OK a port in SYNC goes on to IDENTITY. -/
noncomputable def syncToIdentity (n : PortNo) : Effect :=
  { cmd := .serviceSyncAcquire n, pre := fun d => (port d n).lane.phase == 1 && (port d n).lane.clkOk && d.flt.fatal.isNone
    post := fun d d' => (port d' n).lane = { (port d n).lane with svcSync := true, phase := 2 }
      ∧ ∃ body, d'.out = d.out ++ [frameOut n 8 body] ∧ body.length = 14 ∧ leAt body 0 3 = (d.rtr.da + n * 2 ^ 17) % 2 ^ 24 }

/-- R323: a port out of service only loses sync, which is counted. -/
noncomputable def syncLost (n : PortNo) : Completion :=
  { cmd := .serviceSyncLoss n, pre := fun d => (port d n).lane.svcSync && (port d n).state == 0
    post := fun d => countErr (LANE n.val + 0x090) 1 (updLane n (fun l => { l with svcSync := false }) d) }

/-- R314, R323: a port in service leaves it with cause SYNC_LOST. -/
noncomputable def syncLostInService (n : PortNo) : Effect :=
  { cmd := .serviceSyncLoss n
    pre := fun d => (port d n).lane.svcSync && (port d n).state != 0 && settled d n && holdsNothing d n && (port d n).lane.phase != 7
      && unheard d (srcPort n 0)
    post := fun d d' => leftService d d' n 2 .tenMs ∧ (port d' n).lane.svcSync = false }

/-- R332: out of tolerance, a port out of service only loses CLK_OK. -/
noncomputable def clkLost (n : PortNo) : Completion :=
  { cmd := .clkToleranceLoss n, pre := fun d => (port d n).lane.phase != 5
    post := updLane n (fun l => { l with clkOk := false, fclk := none }) }

/-- R328, R338: a NEGOTIATE frame of this device. -/
def negotiate (d : Dev) (n msg kind lane seq : Nat) : Output :=
  frameOut n 7 (toLe 1 (msg + 16 * kind + 128 * lane) ++ toLe 3 (128 * d.rtr.da + n) ++ toLe 1 seq)

/-- R338: a change is proposed with a new SEQ. -/
noncomputable def proposed (n : PortNo) (d : Dev) : Dev :=
  let s := (port d n).lane.negSeq
  emit (negotiate d n 1 0 0 s) (updLane n (fun l => { l with nego := some { kind := 0, lane := 0, seq := s, mine := true }, negSeq := (s + 1) % 256 }) d)

/-- R322, R332: of a port in service the device proposes a retrain. -/
noncomputable def clkLostInService (n : PortNo) : Completion :=
  { cmd := .clkToleranceLoss n, pre := fun d => (port d n).lane.phase == 5 && (port d n).lane.nego.isNone && d.flt.fatal.isNone
    post := fun d => proposed n (updLane n (fun l => { l with clkOk := false, fclk := none }) d) }

/-- R322: after a loss of codeword lock the receiving end proposes a retrain. -/
noncomputable def codewordLockLost (n : PortNo) : Completion :=
  { cmd := .codewordLockLoss n, pre := fun d => (port d n).lane.phase == 5 && (port d n).lane.nego.isNone && d.flt.fatal.isNone
    post := proposed n }

/-- R332: the forwarded clock is back in tolerance, within ±200 ppm; where no clock parent is missing, nothing else
follows. -/
noncomputable def clkRestored (n : PortNo) : Effect :=
  { cmd := .clkOkRestored n, pre := fun d => (port d n).lane.phase != 1 && d.time.isGm && d.time.parent.isNone
    post := fun d d' => ∃ v : Int, -20000 ≤ v ∧ v ≤ 20000
      ∧ d' = updLane n (fun l => { l with clkOk := true, fclk := some v }) { d with free := d.free + 1 } }

/-! ### Bring-up (R333 to R337) -/

/-- R327, R328: TRAIN_STATE of a port. -/
def trainStateOf (d : Dev) (n : Nat) : Output :=
  frameOut n 6 (toLe 1 ((port d n).lane.phase + 16 * rxrOf (port d n).lane + 64 * b2n (port d n).lane.half) ++ toLe 1 (txaOf (port d n).lane))

/-- R327: TRAIN_STATE is sent outside service and during a retrain. -/
noncomputable def trainStateSend (n : PortNo) : Completion :=
  { cmd := .trainStateSend n, pre := fun d => hears d n && ((port d n).state == 0 || (port d n).lane.phase != 5)
    post := fun d => emit (trainStateOf d n) d }

/-- R328: a TRAIN_STATE frame of the peer. -/
def trainStateFrame (phase rxr half txa : Nat) : Frame := frameOk 6 (toLe 1 (phase + 16 * rxr + 64 * half) ++ toLe 1 txa)

/-- R334: what the peer's TRAIN_STATE shows is kept. -/
noncomputable def trainStateHeard (n : PortNo) (phase rxr half txa : Nat) : Completion :=
  { cmd := .trainState n (trainStateFrame phase rxr half txa)
    pre := fun d => hears d n && decide (phase < 8) && decide (rxr < 4) && decide (half < 2) && decide (txa < 4) && (port d n).lane.phase != 3
    post := updLane n (fun l => { l with peerPhase := phase, peerRxr := rxr }) }

/-- R334: with both ends ready on every lane in use, a port in EQUALISE goes on to ALIGN. -/
noncomputable def trainStateAligns (n : PortNo) (half txa : Nat) : Completion :=
  { cmd := .trainState n (trainStateFrame 3 3 half txa)
    pre := fun d => hears d n && decide (half < 2) && decide (txa < 4) && (port d n).state == 0 && (port d n).lane.phase == 3
      && (port d n).lane.lanes == 3 && !(port d n).lane.onePeer && (port d n).lane.ends.map (·.ready) == [true, true]
    post := updLane n (fun l =>
      { l with peerPhase := 3, peerRxr := 3, phase := 4, ends := l.ends.map (fun e => { e with locked := false }) }) }

/-- R328, R335: IDENTITY of a port. -/
def identityOf (d : Dev) (n : Nat) : Output :=
  let c := fld d (LANE n + 0x020)
  frameOut n 8 (toLe 3 (d.rtr.da + n * 2 ^ 17)
    ++ toLe 1 ((port d n).role + 4 * b2n d.rtr.daValid + 8 * c 0 1 + 16 * (1 - c 1 1)) ++ toLe 1 (fld d (GLB + 0x020) 0 8) ++ [0] ++ toLe 8 d.nv.serial)

/-- R335: IDENTITY is sent until the peer is seen in EQUALISE. -/
noncomputable def identitySend (n : PortNo) : Completion :=
  { cmd := .identitySend n
    pre := fun d => hears d n && ((port d n).lane.phase == 2 || ((port d n).lane.phase == 3 && decide ((port d n).lane.peerPhase < 3)))
    post := fun d => emit (identityOf d n) d }

/-- R328: an IDENTITY frame of the peer. -/
def identityFrame (da pn role valid halfOk two pers serial : Nat) : Frame :=
  frameOk 8 (toLe 3 (da + pn * 2 ^ 17) ++ toLe 1 (role + 4 * valid + 8 * halfOk + 16 * two) ++ toLe 1 pers ++ [0] ++ toLe 8 serial)

/-- The fields of an IDENTITY are in their ranges. -/
def identityFits (da pn role halfOk two pers serial : Nat) : Bool :=
  decide (da < 2 ^ 17) && decide (pn < 128) && decide (role < 4) && decide (halfOk < 2) && decide (two < 2) && decide (pers < 256)
    && decide (serial < 2 ^ 64)

/-- R28: a LOCAL neighbour is another device of the group, a GLOBAL one is in another group, a LOOP one is the device
itself; the ports are not one and the same (R340). -/
def mayNeighbour (d : Dev) (n da pn : Nat) : Bool :=
  let own := d.rtr.da
  d.rtr.daValid && (da * 128 + pn != own * 128 + n)
    && (match (port d n).role with
      | 0 => da / 64 == own / 64 && da != own
      | 1 => da / 64 != own / 64
      | _ => da == own)

/-- R335, R337: a valid identity brings a port of two lanes to a cold EQUALISE: the neighbour is kept, the start is counted,
and the preset is requested on both lanes. -/
noncomputable def identityAccepted (n : PortNo) (da pn role halfOk pers serial : Nat) : Effect :=
  { cmd := .identity n (identityFrame da pn role 1 halfOk 1 pers serial)
    pre := fun d => hears d n && identityFits da pn role halfOk 1 pers serial && (port d n).lane.phase == 2 && (port d n).state == 0
      && mayNeighbour d n da pn && fld d (LANE n.val + 0x020) 1 1 == 0 && (port d n).lane.coldNext && (port d n).lane.ends.length == 2
      && roomFor d (LANE n.val + 0x138) 1
    post := fun d d' =>
      let l := (port d' n).lane
      l.phase = 3 ∧ (port d' n).neighbour = some (da, pn) ∧ l.lanes = 3 ∧ l.half = false ∧ l.warm = false ∧ l.coldNext = false
        ∧ l.peerSerial = serial ∧ l.peerHalfOk = (halfOk == 1) ∧ l.ends.map (·.ready) = [false, false] ∧ l.ends.map (·.sends) = [1, 1]
        ∧ (∃ b0 b1, d'.out = d.out ++ [frameOut n 4 b0, frameOut n 4 b1]
          ∧ leAt b0 0 1 = 2 + 4 * fld d (LANE n.val + 0x020) 4 3 + 32 * b2n (lget (port d n).lane.ends 0 {}).farPre
          ∧ leAt b1 0 1 = 3 + 4 * fld d (LANE n.val + 0x020) 4 3 + 32 * b2n (lget (port d n).lane.ends 1 {}).farPre)
        ∧ d'.regs = (count (LANE n.val + 0x138) d).regs }

/-- R28, R335: an identity that fails the checks returns the port to DOWN for 1 s with cause IDENTITY. -/
noncomputable def identityRefused (n : PortNo) (da pn role valid halfOk two pers serial : Nat) : Effect :=
  { cmd := .identity n (identityFrame da pn role valid halfOk two pers serial)
    pre := fun d => hears d n && identityFits da pn role halfOk two pers serial && decide (valid < 2) && (port d n).lane.phase == 2
      && (port d n).state == 0 && settled d n && (!mayNeighbour d n da pn || valid == 0) && unheard d (srcPort n 0)
    post := fun d d' => wentDown d d' n .oneS ∧ (port d' n).link.cause = 4 ∧ d'.flt = (noted (srcPort n 0) d).flt
      ∧ d'.regs = (countErr (LANE n.val + 0x094) 1 d).regs ∧ d'.out = d.out }

/-- A port may be brought up once its hold in DOWN ends, and does not go past SYNC at once (R333, R334). -/
def mayRise (d : Dev) (n : Nat) (h : PortHold) : Bool :=
  let p := port d n
  p.lane.hold == h && p.lane.phase == 0 && p.state == 0 && p.role == p.roleNext && p.role != 2 && d.nv.lc != 5 && enabled d (LANE n)
    && enabled d (LINK n) && enabled d RTR && (!p.lane.svcSync || !p.lane.clkOk)

/-- R333: bring-up begins in SYNC. -/
def rises (n : Nat) (d : Dev) : Dev := updLane n (fun l => { l with hold := .none, phase := 1, failedFull := false }) d

/-- R335: the port tries again 1 s after a failed identity exchange. -/
noncomputable def identityRetry (n : PortNo) : Completion :=
  { cmd := .identityRetry n, pre := fun d => mayRise d n .oneS, post := rises n }

/-- R337: the port tries again 10 ms after a failed bring-up. -/
noncomputable def bringupRetry (n : PortNo) : Completion :=
  { cmd := .bringupRetry n, pre := fun d => mayRise d n .tenMs, post := rises n }

/-- R314: the hold of a port that left service ends. -/
noncomputable def downHoldExpiry (n : PortNo) : Completion :=
  { cmd := .downHoldExpiry n, pre := fun d => mayRise d n .tenMs, post := rises n }

/-- R336: a preset is applied and answered. -/
noncomputable def trainPreset (n : PortNo) (lane : Fin 2) (k : Fin 8) (pre seq : Nat) : Completion :=
  { cmd := .trainReq n (frameOk 4 (toLe 1 (lane + 2 + 4 * k.val + 32 * pre) ++ [0, 0] ++ toLe 1 seq))
    pre := fun d => hears d n && decide (2 ≤ (port d n).lane.phase) && decide (pre < 2) && decide (seq < 256)
      && (lget (port d n).lane.ends lane {}).lastSeq != some seq
    post := fun d =>
      let taps := lget presets k []
      let rsp := toLe 1 (lane + 2 * pre) ++ toLe 1 seq ++ toLe 2 0 ++ taps.map (fun t => BitVec.ofNat 8 (ofSigned 8 t))
      emit (frameOut n 5 rsp) (updEnd n lane (fun e => { e with taps := taps, pre := pre == 1, lastSeq := some seq, lastRsp := rsp }) d) }

/-- R336: one tap is moved up by one unit, within its range and the sum of 64. -/
noncomputable def trainIncrement (n : PortNo) (lane : Fin 2) (k : Fin 4) (seq : Nat) : Effect :=
  { cmd := .trainReq n (frameOk 4 (toLe 1 lane ++ toLe 1 (4 ^ k.val) ++ [0] ++ toLe 1 seq))
    pre := fun d =>
      let e := lget (port d n).lane.ends lane {}
      hears d n && decide (2 ≤ (port d n).lane.phase) && decide (seq < 256) && e.lastSeq != some seq && e.taps.length == 6
        && (port d n).lane.ends.length == 2 && decide (lget e.taps k 0 < (lget tapRange k (0, 0)).2)
        && decide (sumOf ((e.taps.set k (lget e.taps k 0 + 1)).map Int.natAbs) ≤ 64)
    post := fun d d' =>
      let e := lget (port d n).lane.ends lane {}
      (lget (port d' n).lane.ends lane {}).taps = e.taps.set k (lget e.taps k 0 + 1)
        ∧ ∃ rsp, d'.out = d.out ++ [frameOut n 5 rsp] ∧ leAt rsp 1 1 = seq ∧ leAt rsp 2 2 = 0 }

/-- R336: a repeated request is answered again without being applied again. -/
noncomputable def trainRepeated (n : PortNo) (lane : Fin 2) (body : Bytes) : Completion :=
  { cmd := .trainReq n (frameOk 4 body)
    pre := fun d => hears d n && decide (2 ≤ (port d n).lane.phase) && body.length == 4 && leAt body 0 1 % 2 == lane.val
      && (lget (port d n).lane.ends lane {}).lastSeq == some (leAt body 3 1)
    post := fun d => emit (frameOut n 5 (lget (port d n).lane.ends lane {}).lastRsp) d }

/-- R336: the response to the outstanding request gives the far taps. -/
noncomputable def trainAnswered (n : PortNo) (lane : Fin 2) (pre seq : Nat) (taps : Vector Byte 6) : Completion :=
  { cmd := .trainRsp n (frameOk 5 (toLe 1 (lane + 2 * pre) ++ toLe 1 seq ++ [0, 0] ++ taps.toList))
    pre := fun d =>
      let e := lget (port d n).lane.ends lane {}
      hears d n && decide (pre < 2) && decide (seq < 256) && e.req.any (fun r => leAt r 3 1 == seq) && e.want.isNone
        && (port d n).lane.ends.length == 2
    post := updEnd n lane (fun e => { e with req := none, sends := 0, far := taps.toList.map (fun b => toSigned 8 b.toNat), farPre := pre == 1 }) }

/-- R336: a request without a response is sent again. -/
noncomputable def trainResent (n : PortNo) (lane : Fin 2) : Effect :=
  { cmd := .trainReqResend n lane
    pre := fun d =>
      let e := lget (port d n).lane.ends lane {}
      d.flt.fatal.isNone && e.req.isSome && decide (e.sends < 8) && (port d n).lane.ends.length == 2
    post := fun d d' => ∃ r, (lget (port d n).lane.ends lane {}).req = some r
      ∧ d' = emit (frameOut n 4 r) (updEnd n lane (fun e => { e with sends := e.sends + 1 }) d) }

/-- R336, R337: after 8 sends without a response bring-up fails: counted in ERR[5], tried again after 10 ms. -/
noncomputable def trainGivenUp (n : PortNo) (lane : Fin 2) : Effect :=
  { cmd := .trainReqResend n lane
    pre := fun d =>
      let e := lget (port d n).lane.ends lane {}
      e.req.isSome && decide (8 ≤ e.sends) && (port d n).state == 0 && (port d n).lane.phase != 7 && settled d n
    post := fun d d' => wentDown d d' n .tenMs ∧ d'.regs = (countErr (LANE n.val + 0x094) 1 d).regs ∧ d'.flt = d.flt ∧ d'.out = d.out }

/-- R336: a lane with at most 4,294 errors in 2^32 bits is ready. -/
noncomputable def laneReady (n : PortNo) (lane : Fin 2) (errors : Nat) : Completion :=
  { cmd := .laneReady n lane errors
    pre := fun d => decide (errors ≤ 4294) && (port d n).lane.phase == 3 && bitOf (port d n).lane.lanes lane && (port d n).state == 0
      && decide ((port d n).lane.peerPhase < 3)
    post := updEnd n lane (fun e => { e with ready := true }) }

/-- R336: a lane with more errors is not. -/
noncomputable def laneNotReady (n : PortNo) (lane : Fin 2) (errors : Nat) : Completion :=
  { cmd := .laneReady n lane errors, pre := fun _ => decide (4294 < errors), post := id }

/-- R337: a lane locks to the alignment codewords. -/
noncomputable def alignLock (n : PortNo) (lane : Fin 2) : Completion :=
  { cmd := .alignLock n lane, pre := fun d => (port d n).lane.phase == 4 && bitOf (port d n).lane.lanes lane && (port d n).state == 0
    post := updEnd n lane (fun e => { e with locked := true }) }

/-- R278, R300, R334: with the bead stream the port enters service: LEARNING, its link layer empty. -/
noncomputable def enterService (n : PortNo) : Completion :=
  { cmd := .portEnterService n
    pre := fun d =>
      let l := (port d n).lane
      (port d n).state == 0 && l.phase == 4 && l.lanes == 3 && l.ends.map (·.locked) == [true, true] && l.peerRxr == 3 && decide (4 ≤ l.peerPhase)
        && d.time.parent.isNone && (d.time.isGm || (parentList d).all (fun p => p != n.val && !parentOk d p))
    post := fun d => updPort n (fun p =>
      { p with state := 1, inSince := d.clk, dimmed := false, link := { slot := p.link.slot }, lane := { p.lane with phase := 5, score := [0, 0] } }) d }

/-- R338, step 5: after a retrain the port is ACTIVE again; it sends DONE and counts the retrain. Nothing waits for replay
here. -/
noncomputable def retrained (n : PortNo) : Effect :=
  { cmd := .portEnterService n
    pre := fun d =>
      let l := (port d n).lane
      (port d n).state != 0 && l.phase == 4 && l.lanes == 3 && l.ends.map (·.locked) == [true, true] && l.peerRxr == 3 && decide (4 ≤ l.peerPhase)
        && l.nego.any (fun g => g.kind == 0) && l.again.isEmpty && (port d n).link.rep.isEmpty && (port d n).link.txOpen.isNone
        && d.flt.fatal.isNone && roomFor d (LANE n.val + 0x120) 1
    post := fun d d' => ∃ g, (port d n).lane.nego = some g
      ∧ (port d' n).lane.phase = 5 ∧ (port d' n).lane.nego = none ∧ (port d' n).state = (port d n).state
      ∧ leaves d d' (negotiate d n 4 0 g.lane g.seq) ∧ d'.regs = (count (LANE n.val + 0x120) d).regs }

/-- R337: not ready within EQ_LIMIT at full baud, both ends HALF_OK: EQUALISE again, cold, at half baud. -/
noncomputable def eqLimitHalf (n : PortNo) : Effect :=
  { cmd := .eqLimitExpiry n
    pre := fun d =>
      let l := (port d n).lane
      l.phase == 3 && l.lanes == 3 && l.ends.map (·.ready) != [true, true] && l.ends.length == 2 && !l.half && l.peerHalfOk
        && fld d (LANE n.val + 0x020) 0 1 == 1 && (port d n).state == 0 && roomFor d (LANE n.val + 0x138) 1
    post := fun d d' =>
      let l := (port d' n).lane
      l.phase = 3 ∧ l.half = true ∧ l.warm = false ∧ l.failedFull = true ∧ l.lanes = 3 ∧ l.ends.map (·.ready) = [false, false] ∧ d'.flt = d.flt }

/-- R337: not ready within the second EQ_LIMIT: bring-up fails. -/
noncomputable def eqLimitFails (n : PortNo) : Effect :=
  { cmd := .eqLimitExpiry n
    pre := fun d =>
      let l := (port d n).lane
      l.phase == 3 && l.lanes == 3 && l.ends.map (·.ready) != [true, true] && l.ends.length == 2 && l.half && (port d n).state == 0 && settled d n
    post := fun d d' => wentDown d d' n .tenMs ∧ d'.regs = (countErr (LANE n.val + 0x094) 1 d).regs ∧ d'.flt = d.flt ∧ d'.out = d.out }

/-- R337: the training history of a port in service is written where it differs from what is stored. -/
noncomputable def historyWritten (n : PortNo) (da pn : Nat) : Completion :=
  let h (d : Dev) : TrainHist :=
    let l := (port d n).lane
    { da := da, port := pn, serial := l.peerSerial, half := l.half, taps := l.ends.map (·.far), pre := l.ends.map (·.farPre) }
  { cmd := .trainingHistoryWrite n
    pre := fun d => (port d n).state != 0 && (port d n).neighbour == some (da, pn) && mget d.nv.hist n != some (h d)
    post := fun d => { d with nv := { d.nv with hist := mset d.nv.hist n (h d) } } }

/-- R278: a LEARNING port is ACTIVE. -/
noncomputable def learningExpiry (n : PortNo) : Completion :=
  { cmd := .learningExpiry n, pre := fun d => (port d n).state == 1, post := updPort n (fun p => { p with state := 2 }) }

/-! ### Negotiated changes (R338 to R340) -/

/-- R328: a NEGOTIATE frame of the peer. -/
def negotiateFrame (msg kind lane key seq : Nat) : Frame := frameOk 7 (toLe 1 (msg + 16 * kind + 128 * lane) ++ toLe 3 key ++ toLe 1 seq)

/-- The fields of a NEGOTIATE are in their ranges. -/
def negotiateFits (kind lane key seq : Nat) : Bool := decide (kind < 8) && decide (lane < 2) && decide (key < 2 ^ 24) && decide (seq < 256)

/-- R338, step 3: QUIESCE, with the strand that is being sent still to be finished. -/
def quiesced (n : Nat) (g : Nego) (d : Dev) : Dev :=
  updLane n (fun l => { l with nego := some g, phase := 6, peerPhase := 0, peerRxr := 0 }) d

/-- R328: TRAIN_STATE of a port in QUIESCE. -/
def quiesceOut (d : Dev) (n : Nat) : Output := frameOut n 6 (toLe 1 (6 + 64 * b2n (port d n).lane.half) ++ [0])

/-- R338: a proposal that this end can carry is accepted, and the port enters QUIESCE; here a strand is being sent, which is
finished first. -/
noncomputable def proposalAccepted (n : PortNo) (kind lane key seq : Nat) : Completion :=
  { cmd := .propose n (negotiateFrame 1 kind lane key seq)
    pre := fun d => hears d n && negotiateFits kind lane key seq && (port d n).state != 0 && (port d n).lane.phase == 5
      && (port d n).lane.nego.isNone && key != 128 * d.rtr.da + n && (port d n).link.txOpen.isSome
      && (kind == 0 || (kind == 1 && (port d n).lane.lanes == 3) || (kind == 2 && fld d (LANE n.val + 0x020) 1 1 == 0)
        || (kind == 3 && !(port d n).lane.failedFull) || (kind == 4 && fld d (LANE n.val + 0x020) 0 1 == 1))
    post := fun d => emit (quiesceOut d n) (emit (negotiate d n 2 kind lane seq)
      (quiesced n { kind := kind, lane := lane, seq := seq, mine := false, accepted := true } d)) }

/-- R338, R339: WIDEN on an end of one lane, NARROW on a one-lane port, BAUD_FULL after its failure and BAUD_HALF where it is
not allowed are rejected, and nothing changes. -/
noncomputable def proposalRejected (n : PortNo) (kind lane key seq : Nat) : Completion :=
  { cmd := .propose n (negotiateFrame 1 kind lane key seq)
    pre := fun d => hears d n && negotiateFits kind lane key seq && (port d n).state != 0 && (port d n).lane.phase == 5
      && (port d n).lane.nego.isNone && key != 128 * d.rtr.da + n
      && ((kind == 1 && (port d n).lane.lanes != 3) || (kind == 2 && fld d (LANE n.val + 0x020) 1 1 == 1)
        || (kind == 3 && (port d n).lane.failedFull) || (kind == 4 && fld d (LANE n.val + 0x020) 0 1 == 0))
    post := fun d => emit (negotiate d n 3 kind lane seq) d }

/-- R340: the end with the lower key ignores the peer's proposal while its own is outstanding. -/
noncomputable def proposalIgnored (n : PortNo) (kind lane key seq : Nat) : Completion :=
  { cmd := .propose n (negotiateFrame 1 kind lane key seq)
    pre := fun d => hears d n && negotiateFits kind lane key seq && (port d n).state != 0 && (port d n).lane.nego.any (fun g => !g.accepted)
      && decide (128 * d.rtr.da + n < key)
    post := id }

/-- R340: the other end withdraws its own automatic proposal and answers the leader's. -/
noncomputable def proposalWithdrawn (n : PortNo) (lane key seq : Nat) : Effect :=
  { cmd := .propose n (negotiateFrame 1 0 lane key seq)
    pre := fun d => hears d n && negotiateFits 0 lane key seq && (port d n).state != 0 && (port d n).lane.phase == 5
      && (port d n).lane.nego.any (fun g => !g.accepted && g.cmd.isNone) && (port d n).lane.again.isEmpty
      && decide (key < 128 * d.rtr.da + n) && (port d n).link.txOpen.isSome
    post := fun d d' => ∃ g, (port d n).lane.nego = some g
      ∧ d' = emit (quiesceOut d n) (emit (negotiate d n 2 0 lane seq)
          (quiesced n { kind := 0, lane := lane, seq := seq, mine := false, accepted := true } (updLane n (fun l => { l with again := [g] }) d))) }

/-- R338: the answer ACCEPT brings the proposer to QUIESCE; here a strand is being sent. -/
noncomputable def acceptHeard (n : PortNo) (kind lane key seq : Nat) : Effect :=
  { cmd := .accept n (negotiateFrame 2 kind lane key seq)
    pre := fun d => hears d n && negotiateFits kind lane key seq && (port d n).state != 0 && (port d n).link.txOpen.isSome
      && (port d n).lane.nego.any (fun g => g.mine && !g.accepted && g.seq == seq && g.cmd.isNone)
    post := fun d d' => ∃ g, (port d n).lane.nego = some g ∧ d' = emit (quiesceOut d n) (quiesced n { g with accepted := true } d) }

/-- R339: a REJECT leaves the port as it was. -/
noncomputable def rejectHeard (n : PortNo) (kind lane key seq : Nat) : Completion :=
  { cmd := .reject n (negotiateFrame 3 kind lane key seq)
    pre := fun d => hears d n && negotiateFits kind lane key seq
      && (port d n).lane.nego.any (fun g => g.mine && !g.accepted && g.seq == seq && g.cmd.isNone)
    post := updLane n (fun l => { l with nego := none }) }

/-- R340: after DONE, a withdrawn retrain whose clock is still out of tolerance is proposed again. -/
noncomputable def doneHeard (n : PortNo) (kind lane key seq : Nat) : Completion :=
  { cmd := .done n (negotiateFrame 4 kind lane key seq)
    pre := fun d => hears d n && negotiateFits kind lane key seq && (port d n).lane.phase == 5 && (port d n).lane.nego.isNone
      && (port d n).lane.again.map (fun g => (g.kind, g.lane)) == [(0, 0)] && !(port d n).lane.clkOk
    post := fun d => proposed n (updLane n (fun l => { l with again := [] }) d) }

/-- R338: an unanswered proposal is sent again with its SEQ. -/
noncomputable def proposeResent (n : PortNo) : Effect :=
  { cmd := .proposeResend n, pre := fun d => d.flt.fatal.isNone && (port d n).lane.nego.any (fun g => g.mine && !g.accepted)
    post := fun d d' => ∃ g, (port d n).lane.nego = some g ∧ d' = emit (negotiate d n 1 g.kind g.lane g.seq) d }

/-- R338: a proposal without an answer for 1 ms is abandoned. -/
noncomputable def proposalAbandoned (n : PortNo) : Completion :=
  { cmd := .proposalAbandon n, pre := fun d => (port d n).lane.nego.any (fun g => g.mine && !g.accepted && g.cmd.isNone)
    post := updLane n (fun l => { l with nego := none }) }

/-- R338, R350: one that LANE_RETRAIN asked for replies by the mailbox that the change failed. -/
noncomputable def retrainAbandoned (n : PortNo) (c : AdminCtx) : Effect :=
  { cmd := .proposalAbandon n
    pre := fun d => c.path == .mailbox && (port d n).lane.nego.any (fun g => g.mine && !g.accepted && g.cmd == some c)
      && d.mnt.remote.isNone && d.flt.fatal.isNone
    post := fun d d' => (port d' n).lane.nego = none ∧ d'.mnt = (replyOut c 0x0902 0 0 (toLe 1 3) d).mnt }

/-- R314, R339: an accepted change that is not ACTIVE within its bound takes the port out of service with cause
RETRAIN_FAILED. -/
noncomputable def retrainTimeout (n : PortNo) : Effect :=
  { cmd := .retrainTimeout n
    pre := fun d => (port d n).state != 0 && (port d n).lane.nego.any (fun g => g.accepted && g.cmd.isNone) && (port d n).lane.again.isEmpty
      && (port d n).role == (port d n).roleNext && (port d n).lane.phase != 7 && holdsNothing d n && unheard d (srcPort n 0)
    post := fun d d' => leftService d d' n 3 .tenMs ∧ (port d' n).lane.nego = none }

/-! ### Hints and health (R280, R315, R327) -/

/-- R280: the levels of a hint are kept. -/
noncomputable def congHint (n : PortNo) (req rsp : Nat) : Completion :=
  { cmd := .congHint n (frameOk 2 (toLe 1 (req + 16 * rsp)))
    pre := fun d => hears d n && (port d n).state != 0 && decide (req < 16) && decide (rsp < 16)
    post := updPort n (fun p => { p with hintReq := req, hintRsp := rsp }) }

/-- R280: the largest depth of the queues of a virtual network over the other ports. -/
def deepest (d : Dev) (n vn : Nat) : Nat :=
  ((d.ports.filter (fun p => p.1 != n)).flatMap (fun p => (List.range 4).map (fun i => portDepth d p.1 (4 * vn + i)))).foldl max 0

/-- R280: a hint on every in-service port. -/
noncomputable def congHintSend : Completion :=
  { cmd := .congHintSend, pre := fun d => d.flt.fatal.isNone
    post := fun d => { d with out := d.out ++ (d.ports.filter (fun p => p.2.state != 0)).map (fun p =>
      frameOut p.1 2 (toLe 1 (min 15 (deepest d p.1 0 / 256) + 16 * min 15 (deepest d p.1 1 / 256)))) } }

/-- R280: without a hint the levels are 15. -/
noncomputable def hintStale (n : PortNo) : Completion :=
  { cmd := .hintStale n, pre := fun _ => true, post := updPort n (fun p => { p with hintReq := 15, hintRsp := 15 }) }

/-- R338: the peer's corrected and uncorrectable counts feed the scores of the lanes. -/
noncomputable def linkHealth (n : PortNo) (corr0 corr1 unc0 unc1 eye0 eye1 : Nat) : Completion :=
  { cmd := .linkHealth n (frameOk 9 (toLe 3 corr0 ++ toLe 3 corr1 ++ toLe 1 (unc0 + 16 * unc1) ++ toLe 1 eye0 ++ toLe 1 eye1))
    pre := fun d => hears d n && decide (corr0 < 2 ^ 24) && decide (corr1 < 2 ^ 24) && decide (unc0 < 16) && decide (unc1 < 16)
    post := updLane n (fun l =>
      { l with score := [lget l.score 0 0 + (corr0 + 16 * unc0), lget l.score 1 0 + (corr1 + 16 * unc1)] }) }

/-- R327, R328: LINK_HEALTH with the eye heights. -/
noncomputable def linkHealthSend (n : PortNo) (eye0 eye1 : BitVec 7) : Completion :=
  { cmd := .linkHealthSend n eye0 eye1, pre := fun d => d.flt.fatal.isNone && (port d n).state != 0
    post := fun d => emit (frameOut n 9 (zeros 7 ++ toLe 1 eye0.toNat ++ toLe 1 eye1.toNat)) d }

/-- R315: a period with fewer than 1,000,000 beads sent for the first time is not evaluated. -/
noncomputable def healthSkipped (n : PortNo) : Completion :=
  { cmd := .healthPeriod n, pre := fun d => decide ((port d n).link.firstBeads < 1000000)
    post := updPort n (fun p => { p with link := { p.link with firstBeads := 0, replayedBeads := 0 }, lane := { p.lane with score := [0, 0] } }) }

/-- R315: a rate of at least 10 times DIM_TH ppm, too low to narrow the port, dims it and raises the link-degrade source. -/
noncomputable def healthDims (n : PortNo) : Completion :=
  let rate (d : Dev) : Nat := (port d n).link.replayedBeads * 1000000 / (port d n).link.firstBeads
  { cmd := .healthPeriod n
    pre := fun d => (port d n).state != 0 && decide (1000000 ≤ (port d n).link.firstBeads) && !(port d n).dimmed
      && decide (10 * fld d (LINK n.val + 0x024) 16 8 ≤ rate d) && decide (rate d < 100 * fld d (LINK n.val + 0x024) 24 8)
      && unheard d (srcPort n 1)
    post := fun d => noted (srcPort n 1) (updPort n (fun p =>
      { p with
        dimmed := true, lane := { p.lane with score := [0, 0] }
        link := { p.link with firstBeads := 0, replayedBeads := 0, rate := min 65535 (rate d), lowRuns := 0, highRuns := 0 } }) d) }

/-- R315, R338: the third period in a row at 100 times NARROW_TH ppm or more proposes to narrow a two-lane port to the lane
with the lower score, lane 0 on a tie. -/
noncomputable def healthNarrows (n : PortNo) : Effect :=
  let rate (d : Dev) : Nat := (port d n).link.replayedBeads * 1000000 / (port d n).link.firstBeads
  { cmd := .healthPeriod n
    pre := fun d => (port d n).state != 0 && decide (1000000 ≤ (port d n).link.firstBeads) && (port d n).dimmed
      && decide (5 * fld d (LINK n.val + 0x024) 16 8 ≤ rate d) && decide (100 * fld d (LINK n.val + 0x024) 24 8 ≤ rate d)
      && (port d n).link.highRuns == 2 && (port d n).lane.lanes == 3 && (port d n).lane.phase == 5 && (port d n).lane.nego.isNone
      && fld d (LINK n.val + 0x024) 3 1 == 1 && d.flt.fatal.isNone && unheard d (srcPort n 1)
    post := fun d d' =>
      let l := (port d n).lane
      let keep := if lget l.score 1 0 < lget l.score 0 0 then 1 else 0
      (port d' n).lane.nego = some { kind := 1, lane := keep, seq := l.negSeq, mine := true } ∧ (port d' n).link.narrowed = true
        ∧ (port d' n).link.highRuns = 0 ∧ d'.out = d.out ++ [negotiate d n 1 1 keep l.negSeq] ∧ d'.flt = (noted (srcPort n 1) d).flt }

/-! ### Test (R342 to R344) -/

/-- R344: in TEST with REMOTE_ALLOW the far end's loopback request is carried out. -/
noncomputable def loopback (n : PortNo) (enable lanes : Nat) : Completion :=
  { cmd := .loopback n (frameOk 10 (toLe 1 (enable + 2 * lanes)))
    pre := fun d => (port d n).lane.phase == 7 && !svcBusy (port d n).lane && (port d n).lane.remoteAllow && decide (enable < 2)
      && decide (lanes < 4)
    post := updLane n (fun l => { l with remoteLooped := enable == 1 }) }

/-- R344: it is ignored otherwise. -/
noncomputable def loopbackIgnored (n : PortNo) (enable lanes : Nat) : Completion :=
  { cmd := .loopback n (frameOk 10 (toLe 1 (enable + 2 * lanes)))
    pre := fun d => (port d n).lane.phase != 7 || !(port d n).lane.remoteAllow, post := id }

/-- R342: a checker of a lane in TEST locks. -/
noncomputable def prbsLocked (n : PortNo) (lane : Fin 3) : Completion :=
  { cmd := .prbsCheckerLock n lane
    pre := fun d => (port d n).lane.phase == 7 && (port d n).lane.chk != 0 && bitOf (port d n).lane.patMask lane
    post := fun d =>
      if lane.val = 2 then updLane n (fun l => { l with svcChk := true }) d else updEnd n lane (fun e => { e with chkLock := true }) d }

/-! ### Cages (R347, R348) -/

/-- The inputs of a cage with one scan more, newest first. -/
def cageScans (d : Dev) (n : Nat) (din : BitVec 512) : List Nat := (bitsOf din.toNat (4 * n) 4 :: (port d n).lane.cageIn).take 3

/-- R348: a scan brings no change of a cage's presence, fault and button. -/
def cageSteady (d : Dev) (n : Nat) (din : BitVec 512) : Bool :=
  let l := (port d n).lane
  let ins := cageScans d n din
  (steady ins 0 3).getD l.present == l.present && (steady ins 1 2).getD l.fault == l.fault && (steady ins 2 3).getD l.button == l.button

/-- R347, R348: a scan with no change shifts the frame of outputs out and keeps what every cage showed. -/
noncomputable def isbScanSteady (din : BitVec 512) : Effect :=
  { cmd := .isbScan din
    pre := fun d => (List.range 128).all (fun n => din.getLsbD (4 * n + 3) && cageSteady d n din)
    post := fun d d' => d'.out = d.out ++ [.isb (isbFrame d)] ∧ d'.isb = { last := isbFrame d, scans := d.isb.scans + 1 }
      ∧ (∀ n < 128, (port d' n).lane.cageIn = cageScans d n din ∧ (port d' n).lane.present = (port d n).lane.present
        ∧ (port d' n).lane.fault = (port d n).lane.fault ∧ (port d' n).lane.phase = (port d n).lane.phase)
      ∧ d'.flt = d.flt ∧ d'.regs = d.regs }

/-- R348: a module that appears in a cage raises the cage source of the port, and with AUTO_PWR 1 gets its power. -/
noncomputable def isbScanPresent (k : PortNo) (din : BitVec 512) : Effect :=
  { cmd := .isbScan din
    pre := fun d => (List.range 128).all (fun n => din.getLsbD (4 * n + 3) && (n == k.val || cageSteady d n din))
      && !(port d k).lane.present && steady (cageScans d k din) 0 3 == some true && (port d k).lane.autoPwr && !(port d k).lane.faultLock
      && !(port d k).lane.fault && (steady (cageScans d k din) 1 2).getD false == false && unheard d (srcPort k 2)
    post := fun d d' => (port d' k).lane.present = true ∧ (port d' k).lane.pwrEn = true ∧ d'.flt = (noted (srcPort k 2) d).flt }

/-- R348: where the last bit of a cage reads 0, ISB_OK falls for every port, the outputs hold and the GLB source is
raised. -/
noncomputable def isbScanFault (din : BitVec 512) : Effect :=
  { cmd := .isbScan din, pre := fun d => (List.range 128).any (fun n => !din.getLsbD (4 * n + 3)) && unheard d (srcWin 0 2)
    post := fun d d' => (∀ n < 128, (port d' n).lane = { (port d n).lane with isbOk := false }) ∧ d'.flt = (noted (srcWin 0 2) d).flt
      ∧ d'.out = d.out ++ [.isb d.isb.last] ∧ d'.isb = { d.isb with scans := d.isb.scans + 1 } }

end Sys2Proof.Claims
end

