-- ==== Sys2Proof/Claims/Beads.lean ====
section
/-! DEFINITION. What is claimed of the link layer (R300 to R311), the schedulers, the output queues and the injection points
of the router core (R259 to R286). -/

namespace Sys2Proof.Claims

open Machine

/-! ### Acknowledgements and replay (R306 to R311) -/

/-- R306: the LINK_ACK frame of the peer. -/
def linkAckFrame (ack hold : Nat) : Frame := frameOk 1 (toLe 4 (ack + hold * 2 ^ 20))

/-- R308: `a` strands are newly acknowledged. -/
def acked (d : Dev) (n ack : Nat) : Nat := (ack + 2 ^ 20 - (port d n).link.una) % 2 ^ 20

/-- R308: an ACK of `a` sent strands, without an RTT sample: they leave the replay buffer, U is ACK_LSN, the streak is 0. -/
noncomputable def linkAckTaken (n : PortNo) (ack : Nat) : Completion :=
  { cmd := .linkAck n (linkAckFrame ack 1023)
    pre := fun d => hears d n && decide (ack < 2 ^ 20) && (port d n).state != 0 && decide ((port d n).link.una < 2 ^ 20) && acked d n ack != 0
      && decide (acked d n ack ≤ ((port d n).link.rep.filter (·.closed)).length) && (port d n).link.rttAny.isSome
    post := fun d => updLink n (fun l =>
      { l with rep := l.rep.drop (acked d n ack), una := ack, streak := 0, rtt := if l.rttSeen then l.rtt else l.rttAny.getD 0 }) d }

/-- R308, R311: an ACK of one strand that was not replayed gives a sample: its arrival less the end of the strand's first
sending less HOLD; the first sample of a port is its RTT. -/
noncomputable def linkAckSample (n : PortNo) (ack hold : Nat) : Effect :=
  { cmd := .linkAck n (linkAckFrame ack hold)
    pre := fun d => hears d n && decide (ack < 2 ^ 20) && decide (hold < 1023) && (port d n).state != 0 && decide ((port d n).link.una < 2 ^ 20)
      && acked d n ack == 1 && (port d n).link.rep.head?.any (fun e => e.closed && !e.replayed && decide (e.tLast + 4 * hold ≤ d.clk))
      && (port d n).link.rttAny.isNone && (port d n).link.rttNow.isNone && !(port d n).link.rttSeen
    post := fun d d' => ∃ e rest, (port d n).link.rep = e :: rest
      ∧ (let s := d.clk - e.tLast - 4 * hold
         d' = updLink n (fun l => { l with rep := rest, una := ack, streak := 0, rttNow := some s, rttAny := some s, rtt := s }) d) }

/-- R308: an ACK of a strand that was not sent is discarded and counted. -/
noncomputable def linkAckWrong (n : PortNo) (ack hold : Nat) : Completion :=
  { cmd := .linkAck n (linkAckFrame ack hold)
    pre := fun d => hears d n && decide (ack < 2 ^ 20) && decide (hold < 1024) && (port d n).state != 0
      && decide (((port d n).link.rep.filter (·.closed)).length < acked d n ack)
    post := countErr (LINK n.val + 0x08C) 1 }

/-- R306: the ACK timer ends: ACK_LSN is the LSN expected next, HOLD the time since the last acceptance in units of 4 ns, or
1,023. -/
noncomputable def ackTimerEnds (n : PortNo) : Completion :=
  { cmd := .linkAckTimer n, pre := fun d => (port d n).state != 0 && (port d n).link.ackOn && d.flt.fatal.isNone
    post := fun d =>
      let l := (port d n).link
      let hold := min 1023 ((l.lastAcc.map (fun t => (d.clk - t) / 4)).getD 1023)
      emit (frameOut n 1 (toLe 4 (l.expect + hold * 2 ^ 20))) (updLink n (fun l => { l with ackOn := false, accCount := 0 }) d) }

/-- The beads of a strand of the replay buffer, as sent. -/
def replayBeads (e : RepEnt) : List Bead := headOf e.ent e.hdr :: (if e.hdr.trim then [] else e.ent.st.beads)

/-- R309: the replay timer expires below FAIL_AFTER: the streak rises and every unacknowledged strand is sent again, oldest
first. -/
noncomputable def replayed (n : PortNo) : Effect :=
  let beads (d : Dev) : List Bead := (port d n).link.rep.flatMap replayBeads
  { cmd := .replayTimer n
    pre := fun d =>
      let l := (port d n).link
      lanesUp (port d n) && l.rep != [] && !l.replaying && !l.replayDue && l.txOpen.isNone
        && decide (l.streak + 1 < fld d (LINK n.val + 0x024) 0 3) && roomFor d (LINK n.val + 0x110) (beads d).length
        && roomFor d (LINK n.val + 0x130) (beads d).length && roomFor d (OSCH n.val + 0x348) (beads d).length
    post := fun d d' =>
      let l := (port d' n).link
      d'.out = d.out ++ (beads d).map (fun b => .bead n b) ∧ l.streak = (port d n).link.streak + 1 ∧ l.replaying = true
        ∧ l.rep = (port d n).link.rep.map (fun e => { e with replayed := true })
        ∧ l.replayedBeads = (port d n).link.replayedBeads + (beads d).length ∧ d'.flt = d.flt }

/-- R309: the replay has been sent. -/
noncomputable def replayComplete (n : PortNo) : Completion :=
  { cmd := .replayComplete n, pre := fun _ => true, post := updLink n (fun l => { l with replaying := false }) }

/-- R311: the least sample of a period is the RTT of the next; a period without a sample leaves it. -/
noncomputable def rttPeriod (n : PortNo) : Completion :=
  { cmd := .rttPeriod n, pre := fun _ => true
    post := updLink n (fun l => { l with rtt := l.rttNow.getD l.rtt, rttSeen := l.rttSeen || l.rttNow.isSome, rttNow := none }) }

/-! ### Sending (R301, R302) -/

/-- R301, R302: the strand that the scheduler chose is sent with the next LSN and a TTL one less, and is kept for replay. -/
noncomputable def transmitted (n : PortNo) : Effect :=
  { cmd := .linkTransmitStart n
    pre := fun d =>
      let p := port d n
      p.txNext.any (fun e => e.whole && !e.timed && !e.defl && !e.st.hdr.trim && e.st.hdr.ttl != 0 && e.cells == cellsOf e.st.hdr
          && decide (heldBeads p.link + cellsOf e.st.hdr ≤ 1489) && roomFor d (LINK n.val + 0x108) (1 + e.st.beads.length)
          && roomFor d (LINK n.val + 0x130) (1 + e.st.beads.length) && roomFor d (OSCH n.val + 0x340) (1 + e.st.beads.length)
          && roomFor d (OSCH n.val + 0x348) (1 + e.st.beads.length))
        && lanesUp p && p.link.txOpen.isNone && !p.link.replaying && p.link.rep.all (·.closed) && roomFor d (LINK n.val + 0x100) 1
    post := fun d d' => ∃ e, (port d n).txNext = some e
      ∧ (let l := (port d n).link
         let h : Hdr := { e.st.hdr with lsn := BitVec.ofNat 20 l.nextLsn, ttl := e.st.hdr.ttl - 1 }
         d'.out = d.out ++ ((headOf e h :: e.st.beads).map (fun b => .bead n b))
           ∧ (port d' n).link.nextLsn = (l.nextLsn + 1) % 2 ^ 20 ∧ (port d' n).link.txOpen = none ∧ (port d' n).txNext = none
           ∧ (∃ r, (port d' n).link.rep = l.rep ++ [r] ∧ r.lsn = l.nextLsn ∧ r.hdr = h ∧ r.closed = true ∧ r.tLast = d.clk
             ∧ r.ent.st.beads = e.st.beads)) }

/-- R302: while the replay buffer has no room for it the strand waits, and an idle bead is sent. -/
noncomputable def transmitWaits (n : PortNo) : Effect :=
  { cmd := .linkTransmitStart n
    pre := fun d =>
      let p := port d n
      p.txNext.any (fun e => decide (1489 < heldBeads p.link + cellsOf e.st.hdr)) && lanesUp p && p.link.txOpen.isNone && !p.link.replaying
        && roomFor d (LINK n.val + 0x138) 1 && roomFor d (OSCH n.val + 0x358) 1
    post := fun d d' => d'.out = d.out ++ [.bead n idleBead] ∧ (port d' n).txNext = (port d n).txNext
      ∧ d'.regs = (count (LINK n.val + 0x138) (count (OSCH n.val + 0x358) d)).regs }

/-! ### Receiving (R303) -/

/-- R303: the distance of an LSN from the one expected. -/
def lsnAhead (d : Dev) (n : Nat) (b : Bead) : Nat := ((Hdr.decode b.content).lsn.toNat + 2 ^ 20 - (port d n).link.expect) % 2 ^ 20

/-- A good header bead arrives between strands on a port in service. -/
def headArrives (d : Dev) (n : Nat) (b : Bead) : Bool :=
  (port d n).state != 0 && (port d n).link.cur.isNone && b.kind && b.classify == .good

/-- R303, row 3: a duplicate without payload is discarded and counted, and starts the ACK timer. -/
noncomputable def headDuplicate (n : PortNo) (b : Bead) : Completion :=
  { cmd := .headerBeadArrival n b
    pre := fun d => headArrives d n b && b.last && !(port d n).link.discard && decide (2 ^ 19 ≤ lsnAhead d n b)
      && roomFor d (LINK n.val + 0x120) 1
    post := fun d => count (LINK n.val + 0x120) (updLink n (fun l => { l with ackOn := true }) d) }

/-- R303, row 4: a strand past the one expected is discarded and counted as out of sequence. -/
noncomputable def headOutOfSequence (n : PortNo) (b : Bead) : Completion :=
  { cmd := .headerBeadArrival n b
    pre := fun d => headArrives d n b && b.last && decide (1 ≤ lsnAhead d n b) && decide (lsnAhead d n b < 2 ^ 19)
    post := countErr (LINK n.val + 0x084) 1 }

/-- R272, R284, R303, row 7: a strand without payload that is expected is admitted and put into the output queue of the port
the router decides on, E advances, and the ACK timer runs. -/
noncomputable def headRouted (n p : PortNo) (b : Bead) : Effect :=
  { cmd := .headerBeadArrival n b
    pre := fun d =>
      let h := Hdr.decode b.content
      headArrives d n b && b.last && lsnAhead d n b == 0 && (h.trim || h.len == 0) && h.dstDa.toNat != d.rtr.da
        && decide (decide284 d h (some n.val) = .send p.val) && decide (1 ≤ freeCells d) && h.ce == 0 && (port d p).out.qs.length == 8
        && decide ((port d n).link.accCount + 1 < fld d (LINK n.val + 0x020) 0 6) && roomFor d (LINK n.val + 0x118) 1
    post := fun d d' =>
      let h := Hdr.decode b.content
      (∃ e, (port d' p).out.q (queueOf h) = (port d p).out.q (queueOf h) ++ [e] ∧ e.st.hdr = h ∧ e.arr = some n ∧ e.cells = 1 ∧ e.whole = true)
        ∧ (port d' n).link.expect = ((port d n).link.expect + 1) % 2 ^ 20 ∧ (port d' n).link.discard = false
        ∧ (port d' n).link.ackOn = true ∧ (port d' n).link.lastAcc = some d.clk ∧ d'.rtr.generalUsed = d.rtr.generalUsed + 1
        ∧ d'.out = d.out ∧ d'.regs = (count (LINK n.val + 0x118) d).regs }

/-- R271, R303: a good bead, not the last, of a strand that waits in a queue goes to its cell. -/
noncomputable def beadKept (n : PortNo) (b : Bead) : Effect :=
  { cmd := .beadArrival n b
    pre := fun d => (port d n).state != 0 && !b.kind && !b.last && b.classify == .good
      && (port d n).link.cur.any (fun c => c.keep && (sendingPort d c.id).isNone)
    post := fun d d' => ∃ c, (port d n).link.cur = some c
      ∧ d' = updWaiting c.id (fun e => { e with whole := false, st := { e.st with beads := e.st.beads ++ [b] } }) d }

/-- R303, rows 6 and 7: with the last bead of a strand of which no bead was bad, E advances; the beads of a strand that was
discarded go. -/
noncomputable def beadEnds (n : PortNo) (b : Bead) : Completion :=
  { cmd := .beadArrival n b
    pre := fun d => (port d n).state != 0 && !b.kind && b.last && b.classify == .good && (port d n).link.cur.any (fun c => !c.keep && c.ok)
      && decide ((port d n).link.accCount + 1 < fld d (LINK n.val + 0x020) 0 6) && roomFor d (LINK n.val + 0x118) 1
    post := fun d => count (LINK n.val + 0x118) (updLink n (fun l =>
      { l with cur := none, expect := (l.expect + 1) % 2 ^ 20, lastAcc := some d.clk, accCount := l.accCount + 1, ackOn := true }) d) }

/-- R303, row 1: a bad bead between strands is a link error, and the receiver enters discard mode. -/
noncomputable def beadBad (n : PortNo) (b : Bead) : Completion :=
  { cmd := .beadArrival n b
    pre := fun d => (port d n).state != 0 && (port d n).link.cur.isNone && b.classify == .bad
    post := fun d => countErr (LINK n.val + 0x080) 1 (updLink n (fun l => { l with discard := true }) d) }

/-! ### Schedulers (R259 to R261) -/

/-- R259: a port's scheduler chooses the head of queue 4 first. -/
noncomputable def chosenFour (n : PortNo) : Effect :=
  { cmd := .schedulerChoice ⟨n.val, Nat.lt_trans n.isLt (by decide)⟩
    pre := fun d => (port d n).state != 0 && (port d n).txNext.isNone && (port d n).out.q 4 != [] && (port d n).out.qs.length == 8
    post := fun d d' => ∃ e rest, (port d n).out.q 4 = e :: rest ∧ (port d' n).txNext = some e ∧ (port d' n).out.q 4 = rest
      ∧ (∀ i, i ≠ 4 → (port d' n).out.q i = (port d n).out.q i) ∧ d'.regs = d.regs }

/-- R259: with queue 4 empty it chooses the head of queue 0. -/
noncomputable def chosenZero (n : PortNo) : Effect :=
  { cmd := .schedulerChoice ⟨n.val, Nat.lt_trans n.isLt (by decide)⟩
    pre := fun d => (port d n).state != 0 && (port d n).txNext.isNone && (port d n).out.q 4 == [] && (port d n).out.q 0 != []
      && (port d n).out.qs.length == 8
    post := fun d d' => ∃ e rest, (port d n).out.q 0 = e :: rest ∧ (port d' n).txNext = some e ∧ (port d' n).out.q 0 = rest
      ∧ (∀ i, i ≠ 0 → (port d' n).out.q i = (port d n).out.q i) ∧ d'.regs = d.regs }

/-- R259, R541: the scheduler of a host port's injection point does the same. -/
noncomputable def injectionChosen (h : HostNo) : Effect :=
  { cmd := .schedulerChoice ⟨128 + h.val, Nat.add_lt_add_left h.isLt 128⟩
    pre := fun d => (host d h).injNext.isNone && (host d h).inj.q 4 != [] && (host d h).inj.qs.length == 8
    post := fun d d' => ∃ e rest, (host d h).inj.q 4 = e :: rest ∧ (host d' h).injNext = some e ∧ (host d' h).inj.q 4 = rest
      ∧ d'.regs = d.regs ∧ d'.ports = d.ports }

/-! ### Age, depths, injection -/

/-- R286, R249: a strand that has waited AGE_LIMIT in an output queue goes to the queue of trimmed headers of its virtual
network, without its payload. -/
noncomputable def aged (n : PortNo) (q : Fin 8) (k : Nat) : Effect :=
  { cmd := .ageLimitTrim ⟨n.val, Nat.lt_trans n.isLt (by decide)⟩ q k
    pre := fun d => (port d n).txNext.isNone && (port d n).out.qs.length == 8 && q.val % 4 != 0 && roomFor d (OSCH n.val + 0x318) 1
      && ((port d n).out.q q)[k]?.any (fun e => !e.st.hdr.trim && queueOf e.st.hdr == q.val && e.general && decide (1 ≤ e.cells))
    post := fun d d' => ∃ e, ((port d n).out.q q)[k]? = some e
      ∧ (port d' n).out.q q = ((port d n).out.q q).take k ++ ((port d n).out.q q).drop (k + 1)
      ∧ (∃ t, (port d' n).out.q (4 * (q.val / 4)) = (port d n).out.q (4 * (q.val / 4)) ++ [t] ∧ t.st.hdr.trim = true ∧ t.st.beads = [] ∧ t.cells = 1
        ∧ t.st.hdr.dstDa = e.st.hdr.dstDa)
      ∧ d'.rtr.generalUsed = d.rtr.generalUsed - (e.cells - 1) ∧ d'.regs = (count (OSCH n.val + 0x318) d).regs }

/-- R267: the sample period ends: of every queue of every port the least, mean and largest depth observed are latched, and
observation starts again. -/
noncomputable def depthSampled : Effect :=
  { cmd := .qdepthSample, pre := fun d => decide (d.ports.map (·.1)).Nodup && d.ports.all (fun p => decide (p.1 < 128))
    post := fun d d' =>
      (∀ p ∈ d.ports, ∀ q < 8, ∀ x xs, lget p.2.out.samples q [] = x :: xs →
        reg d' (OSCH p.1 + 0x100 + 8 * q) = BitVec.ofNat 64
          (xs.foldl min x + 2 ^ 20 * (sumOf (x :: xs) / (x :: xs).length) + 2 ^ 40 * xs.foldl max x))
      ∧ (∀ p ∈ d'.ports, p.2.out.samples = List.replicate 8 []) ∧ d'.out = d.out ∧ d'.flt = d.flt }

/-- R266, R274, R284: the strand that waits at an injection point is admitted to the general pool and put into the output
queue of the port the router decides on. -/
noncomputable def injected (h : HostNo) (p : PortNo) : Effect :=
  { cmd := .hostInjectionAdmit h
    pre := fun d => (host d h).injNext.any (fun e => decide (cellsOf e.st.hdr ≤ freeCells d) && !e.timed && e.st.hdr.dstDa.toNat != d.rtr.da
        && decide (decide284 d e.st.hdr none = .send p.val) && e.st.hdr.ce == 0
        && roomFor d (HOSTB h.val + 0x240) (1 + e.st.beads.length) && roomFor d (HOSTB h.val + 0x248) (1 + e.st.beads.length))
      && (port d p).out.qs.length == 8
    post := fun d d' => ∃ e, (host d h).injNext = some e
      ∧ (∃ t, (port d' p).out.q (queueOf e.st.hdr) = (port d p).out.q (queueOf e.st.hdr) ++ [t] ∧ t.st = e.st ∧ t.cells = cellsOf e.st.hdr)
      ∧ (host d' h).injNext = none ∧ d'.rtr.generalUsed = d.rtr.generalUsed + cellsOf e.st.hdr ∧ d'.out = d.out }

/-- R274: while the general pool lacks its cells it waits. -/
noncomputable def injectionWaits (h : HostNo) : Completion :=
  { cmd := .hostInjectionAdmit h, pre := fun d => (host d h).injNext.any (fun e => decide (freeCells d < cellsOf e.st.hdr)), post := id }

end Sys2Proof.Claims
end

