-- ==== Sys2Proof/Claims/Braids.lean ====
section
/-! DEFINITION. What is claimed of Braids, streams and their timers (R214 to R258), of acknowledgements and refusals, and
the terms in which the claims of strands and descriptors are stated. -/

namespace Sys2Proof.Claims

open Machine

/-! ### Strands that arrive -/

/-- What the transport leaves as it is: all but the requests to hosts, the state of host ports and functions, translation,
endpoints, Braids, locks, matching, collectives, counts and what leaves the device. -/
def keepsRest (d d' : Dev) : Prop :=
  d' = { d with
    out := d'.out, free := d'.free, regs := d'.regs, np := d'.np, nextReq := d'.nextReq, reads := d'.reads, nextRead := d'.nextRead
    hosts := d'.hosts, fns := d'.fns, xl := d'.xl, ept := d'.ept, xp := d'.xp, clasp := d'.clasp, mt := d'.mt, coll := d'.coll }

/-- What is claimed of a command of the transport, which keeps the rest of the device. -/
noncomputable def within (k : Effect) : Effect := { k with post := fun d d' => k.post d d' ∧ keepsRest d d' }

/-- What is claimed of a strand that reaches the transport, of the device once the strand has left its landing queue. -/
noncomputable def strandIn (i : Instr) (st : Strand) (pre : Dev → Bool) (post : Dev → Dev → Prop) : Effect :=
  { cmd := i, pre := fun d => pre (unland st d), post := fun d d' => post (unland st d) d' ∧ keepsRest (unland st d) d' }

/-- R49, R217, R224: a well-formed sequenced strand is accepted: it is of the generation of its peer, of the very BSN that is
expected next, and nothing ahead of it has come; and the counts of R532 have room. -/
def inTurn (d : Dev) (st : Strand) : Bool :=
  let h := st.hdr
  let r := recvHalf (peer d h.srcDa.toNat) (vnOf h)
  !frozen d && !strandBad st && seqStrand h && !kindBroken h && decide (classify d h = .accept) && r.base == h.bsn.toNat
    && r.bits == [] && r.held == [] && !r.window
    && (coreLanding d h || roomFor d (HOSTB (hpOf d h.dstEp.toNat) + 0x260) 65)

/-- The same of a strand that has its payload (R243). -/
def landed (d : Dev) (st : Strand) : Bool := inTurn d st && !(st.hdr.trim && st.hdr.len != 0)

/-- R224, R225: the strand is settled: BASE has gone on past it. -/
def settledAt (d' : Dev) (h : Hdr) : Prop :=
  (recvHalf (peer d' h.srcDa.toNat) (vnOf h)).base = (h.bsn.toNat + 1) % 2 ^ 32

/-- The peer's pair is open and a header names its generation (R218). -/
def ofPair (d : Dev) (h : Hdr) : Bool :=
  decide ((peer d h.srcDa.toNat).state = .opened) && decide ((peer d h.srcDa.toNat).txGen = some h.bgen.toNat)

/-- R90: no strand is parked for an endpoint. -/
def noneParked (d : Dev) (e : Nat) : Bool := d.ept.parked.all (fun p => p.rx.st.hdr.dstEp.toNat != e)

/-! ### Operations -/

/-- R76, R238: a running operation of a send ring is the only one of its stream that has not completed; its completion entry
can be written at once. -/
def runsAlone (d : Dev) (i : Nat) (o : Op) : Bool :=
  decide (op? d i = some o) && decide (o.state = .running) && o.localStatus == 0
    && (match o.owner with | .ring _ => true | _ => false)
    && (aget d.xp.sendRecs o.key).all (fun r => r.order == [i]) && quietCq d o.ep false

/-- R76, R80: an operation of a send ring has completed with a status: it is gone, and where it signals, or has not
succeeded, its completion entry is written after what `w` writes. -/
def completed (d d' : Dev) (i : Nat) (o : Op) (status bytes : Nat) (w : Dev → Dev) : Prop :=
  op? d' i = none ∧ ∃ x pos, ep? d o.ep = some x ∧ o.owner = .ring pos
    ∧ d'.out = (if dSignal o.desc || status != 0 then
        cqPut x.sCq { entry d o.ep false o.code status with ringIndex := ringIndex x.send pos, bytes := bytes } (w d)
      else w d).out

/-- R108: where a range of an endpoint's job lies, in the case that one segment holds it, it is inside one page and outside the
BARs, the region of its key is cached and gives the right, and no atomic has a word of it in hand. -/
def busAt (d : Dev) (e key : Nat) (remote : Bool) (region : RegionRight) (right : Right) (iova len : Nat) : Option (Func × Nat) :=
  (epFunc d e).bind (fun f => (epSlot d e).bind (fun s => (slot? d s).bind (fun js =>
    (segHit js (iova / 4096 * 4096)).bind (fun p =>
      let idx := key / 256
      let keyOk := if idx = 0 then !remote
        else decide (idx < 2 ^ js.m) && (aget d.xl.regions (s, idx)).any (fun b => regionCheck b key iova len region == 0)
      let ok := match right with | .r => p.r | .w => p.w | .a => p.a
      let bus := p.bus + iova % 4096
      if keyOk && ok && decide (0 < len) && decide (iova % 4096 + len ≤ 4096) && decide (iova < 2 ^ 48) && !hitsBar d f.hp bus len
          && (busyHit d f.hp bus len).isNone && d.xl.invals == [] then some (f, bus) else none))))

/-- A read of `len` bytes goes out as one request: there is room for it, and it is inside one page. -/
def readsAt (d : Dev) (p : Func × Nat) (len : Nat) : Bool :=
  canRead d p.1 1 && decide (len ≤ (fn d (pf p.1.hp)).mrrs) && decide (p.2 % 4096 + len ≤ 4096) && decide (outstanding d p.1.hp < 768)

/-- R375: the request of such a read leaves, and nothing else does. -/
def asksFor (d d' : Dev) (f : Func) (bus len : Nat) : Prop := d'.out = d.out ++ [.hostRead f (d.nextReq * 8 + f.hp.val) bus len]

/-- A strand is queued (R223, R256), and nothing leaves the device. -/
def queuedAlone (d d' : Dev) (da : Nat) (vn : Bool) (p : Hdr → List Chunk → Prop) : Prop := queuedTo d d' da vn p ∧ d'.out = d.out

/-! ### The rate of a Braid (R250 to R256) -/

/-- R252: the increase timer of a Braid that has something queued or unacknowledged. -/
noncomputable def increaseTimer (da : Da) (vn : Bool) : Completion :=
  { cmd := .increaseTimer da vn, pre := fun d => braidBusy (sendHalf (peer d da.toNat) vn), post := updRate da.toNat vn rateIncrease }

/-- R253: an open Braid that has been idle starts again from its start values, where the reset is enabled. -/
noncomputable def idleReset (da : Da) (vn : Bool) : Completion :=
  { cmd := .idleReset da vn
    pre := fun d => !braidBusy (sendHalf (peer d da.toNat) vn) && decide ((peer d da.toNat).state = .opened)
      && fld d (CONG + 0x024) 16 8 != 0
    post := updRate da.toNat vn rateStart }

/-- R255: a Braid that stays at the least rate with a strand queued raises the source once. -/
noncomputable def rateFloor (da : Da) (vn : Bool) : Completion :=
  { cmd := .rateFloor da vn
    pre := fun d =>
      let s := sendHalf (peer d da.toNat) vn
      s.rate == 10 && s.queue != [] && !s.floorRaised && unheard d (srcWin 12 2)
    post := fun d => noted (srcWin 12 2) (updSend da.toNat vn (fun s => { s with floorRaised := true }) d) }

/-- R223, R256, R257: the calendar slot of one Braid with one strand to send, which nothing holds back: it takes the next BSN and the generation,
and enters the injection queue of its host port. -/
noncomputable def slotReleases (da : Nat) (vn : Bool) : Effect :=
  within
    { cmd := .calendarSlotDue
      pre := fun d => !frozen d && d.xp.cal == [(da, vn)] && mayRelease d da vn
        && (match (sendHalf (peer d da) vn).queue with
            | [q] => q.bsn.isNone && !q.headOnly && (content? d q.cid).any (fun c => c.hdr.dstDa.toNat == da && !c.sent && c.op.isNone
                && (host d c.hp).inj.qs.length == 8)
            | _ => false)
      post := fun d d' => ∃ q c h e, (sendHalf (peer d da) vn).queue = [q] ∧ content? d q.cid = some c
        ∧ h = buildHdr d c (sendHalf (peer d da) vn).next
        ∧ (sendHalf (peer d' da) vn).queue = [] ∧ d'.xp.cal = []
        ∧ (sendHalf (peer d' da) vn).next = ((sendHalf (peer d da) vn).next + 1) % 2 ^ 32
        ∧ (sendHalf (peer d' da) vn).unacked = (sendHalf (peer d da) vn).unacked ++ [{ bsn := (sendHalf (peer d da) vn).next, cid := q.cid, t0 := d.clk }]
        ∧ (host d' c.hp).inj.q (queueOf h) = (host d c.hp).inj.q (queueOf h) ++ [e] ∧ e.st = mkStrand h (if h.trim then [] else q.data) }

/-! ### Retransmission and repeats (R231, R241, R243) -/

/-- R231: the timer of an unacknowledged strand, below seven retransmissions, whose payload is at hand: the rate is cut, and
the strand is queued again under its BSN. -/
noncomputable def retransmitted (da : Da) (vn : Bool) (bsn : BitVec 32) : Effect :=
  { cmd := .retransmitTimer da vn bsn
    pre := fun d =>
      let s := sendHalf (peer d da.toNat) vn
      decide ((peer d da.toNat).state = .opened) && s.queue.all (fun q => decide (q.bsn ≠ some bsn.toNat)) && !repaying d da.toNat vn bsn.toNat
        && (s.unacked.find? (fun u => decide (u.bsn = bsn.toNat))).any (fun u => decide (u.j < 7)
            && (content? d u.cid).any (fun c => !c.dead && c.src.range.isNone))
    post := fun d d' => ∃ u c, (sendHalf (peer d da.toNat) vn).unacked.find? (fun u => decide (u.bsn = bsn.toNat)) = some u
      ∧ content? d u.cid = some c
      ∧ d' = enqueue da.toNat vn { cid := u.cid, data := c.src.chunks, bsn := some bsn.toNat } (updRate da.toNat vn rateCut d) }

/-- R215: an unreachable peer is closed when its time is over. -/
noncomputable def unreachableEnds (da : Da) : Completion :=
  { cmd := .unreachableExpiry da, pre := fun d => decide ((peer d da.toNat).state = .unreachable)
    post := updPeer da.toNat (fun p => { p with state := .closed }) }

/-- R227: settlements that no ACK has reported are acknowledged when the delay is over. -/
noncomputable def ackDelayEnds (da : Da) (vn : Bool) : Completion :=
  { cmd := .ackDelayTimer da vn
    pre := fun d =>
      let r := recvHalf (peer d da.toNat) vn
      r.synced && decide (0 < r.sinceAck)
    post := sendAck da.toNat vn 0 false none }

/-- A refused content whose payload is at hand is to be sent again to another device. -/
def resendable (d : Dev) (id : Nat) : Bool :=
  (content? d id).any (fun c => c.refused && !c.dead && c.src.range.isNone && reachable d c.hdr.dstDa.toNat && c.op.isNone)

/-- R223: it is queued again, with RESEND. -/
def resentAs (d d' : Dev) (id : Nat) : Prop :=
  ∃ c, content? d id = some c ∧ queuedAlone d d' c.hdr.dstDa.toNat (vnOf c.hdr) (fun h data =>
    h = { c.hdr with flags := mkFlags c.hdr.mlast c.hdr.dep c.hdr.durable true c.hdr.unord false } ∧ data = c.src.chunks)

/-- R241: the backoff of a content ends. -/
noncomputable def backoffEnds (id : Nat) : Effect :=
  within
    { cmd := .notReadyBackoff id, pre := fun d => d.xp.backoff.contains id && resendable d id
      post := fun d d' => d'.xp.backoff = d.xp.backoff.filter (· != id) ∧ resentAs d d' id }

/-- R243: a trimmed content is sent again. -/
noncomputable def trimResent (id : Nat) : Effect :=
  within
    { cmd := .trimResend id, pre := fun d => d.xp.trimmed.contains id && resendable d id
      post := fun d d' => d'.xp.trimmed = d.xp.trimmed.filter (· != id) ∧ resentAs d d' id }

/-! ### Streams (R233, R234) -/

/-- R233: an idle sending record with nothing unacknowledged and nothing to complete is freed. -/
noncomputable def sendRecordFreed (k : StreamKey) : Completion :=
  { cmd := .sendRecordIdle k, pre := fun d => (aget d.xp.sendRecs k).any (fun r => r.unacked == [] && r.order == [])
    post := updXp (fun x => { x with sendRecs := adel x.sendRecs k }) }

/-- R234: an idle receiving record is freed, here one without a message in progress. -/
noncomputable def recvRecordFreed (k : StreamKey) : Completion :=
  { cmd := .recvRecordIdle k, pre := fun d => d.xp.recvRecs.all (fun p => decide (p.1 ≠ k) || p.2.msgs == [])
    post := updXp (fun x => { x with recvRecs := x.recvRecs.filter (fun p => !decide (p.1 = k)) }) }

/-! ### Parked strands (R90, R156) -/

/-- A strand is parked for one of two reasons, once. -/
def parkedAs (d : Dev) (context : Bool) (st : Strand) : Bool :=
  (d.ept.parked.filter (fun p => decide (p.rx.st = st))).all (fun p => (p.why == .context) == context && p.rx.self.isNone)
    && d.ept.parked.any (fun p => decide (p.rx.st = st)) && reachable d st.hdr.srcDa.toNat
    && (coreLanding d st.hdr || roomFor d (HOSTB (hpOf d st.hdr.dstEp.toNat) + 0x268) 65)

/-- R228: what a refusal of a strand says of it: VN, BSN, that it answers, CAUSE and STATUS. -/
def refusalOpw (h : Hdr) (cause status : Nat) : Nat :=
  h.bsn.toNat + b2n (vnOf h) * 2 ^ 32 + 2 ^ 33 + cause * 2 ^ 40 + status * 2 ^ 48

/-- R228: a refusal of a strand is queued. -/
def refusalQueued (d d' : Dev) (h : Hdr) (kind : BitVec 4) (cause status : Nat) : Prop :=
  queuedAlone d d' h.srcDa.toNat true (fun g data => g.kind = kind ∧ g.dstEp = h.srcEp ∧ g.srcEp = h.dstEp
    ∧ g.opw = BitVec.ofNat 128 (refusalOpw h cause status) ∧ data = [])

/-- R156, R243: a strand that was parked too long is refused with a trim notice. -/
noncomputable def parkedTrimmed (st : Strand) : Effect :=
  within
    { cmd := .parkingTimeout st, pre := fun d => parkedAs d false st
      post := fun d d' => refusalQueued d d' st.hdr 3 0 0 ∧ d'.ept.parked.length < d.ept.parked.length }

/-- R90, R228: a strand whose endpoint's context did not come in time is refused as NOT_READY. -/
noncomputable def contextLate (st : Strand) : Effect :=
  within
    { cmd := .contextFetchTimeout st, pre := fun d => parkedAs d true st
      post := fun d d' => refusalQueued d d' st.hdr 2 1 0 ∧ d'.ept.parked.length < d.ept.parked.length }

/-! ### Acknowledgements and refusals -/

/-- R225, R226, R121: an ACK of the one unacknowledged strand of a Braid, the last of a DATA operation: the strand is forgotten
and the operation completes. -/
noncomputable def ackCompletes (st : Strand) (u : Unacked) (i : Nat) (o : Op) : Effect :=
  let da := st.hdr.srcDa.toNat
  let vn := bitOf st.hdr.opw.toNat 69
  strandIn (.ackStrand st) st
    (fun d =>
      let s := sendHalf (peer d da) vn
      st.hdr.kind == 1 && !strandBad st && ofPair d st.hdr && decide (s.unacked = [u]) && !u.refused && decide (u.bsn < 2 ^ 32)
        && decide (s.next = (u.bsn + 1) % 2 ^ 32) && st.hdr.bsn.toNat == s.next && st.hdr.opwf 0 64 == 0 && !bitOf st.hdr.opw.toNat 70
        && !bitOf st.hdr.opw.toNat 71 && st.hdr.opwf 72 8 == 0
        && (content? d u.cid).any (fun c => c.sent && decide (c.op = some i) && c.refuses.isNone)
        && runsAlone d i o && completesOnAck o && o.left == 1)
    (fun d d' => (sendHalf (peer d' da) vn).unacked = [] ∧ content? d' u.cid = none
      ∧ completed d d' i o (b2n o.poison) o.len id)

/-- R218, R228: a refusal names an unacknowledged strand of the pair, which has not been refused before. -/
def refusesOne (d : Dev) (st : Strand) (u : Unacked) (c : Content) : Bool :=
  landed d st && ofPair d st.hdr && !notYetSent (sendHalf (peer d st.hdr.srcDa.toNat) (bitOf st.hdr.opw.toNat 32)) (st.hdr.opwf 0 32)
    && decide (refusedStrand d st.hdr.srcDa.toNat st.hdr = some u) && !u.refused && decide (content? d u.cid = some c) && !c.dead

/-- R228, R241: a NACK with NOT_READY: its content waits for its backoff. -/
noncomputable def nackNotReady (st : Strand) (u : Unacked) (c : Content) : Effect :=
  strandIn (.nackStrand st) st
    (fun d => st.hdr.kind == 2 && st.hdr.opwf 40 8 == 1 && refusesOne d st u c && decide (c.nr + 1 ≤ fld d (XPORT + 0x028) 24 4))
    (fun d d' => d'.xp.backoff = d.xp.backoff ++ [u.cid]
      ∧ content? d' u.cid = some { c with nr := c.nr + 1, refused := true, sent := false } ∧ settledAt d' st.hdr)

/-- R229: a NACK with REFUSED or JOB_MISMATCH ends the operation with its STATUS. -/
noncomputable def nackRefused (st : Strand) (u : Unacked) (c : Content) (i : Nat) (o : Op) : Effect :=
  strandIn (.nackStrand st) st
    (fun d => st.hdr.kind == 2 && (st.hdr.opwf 40 8 == 2 || st.hdr.opwf 40 8 == 3) && decide (4 ≤ st.hdr.opwf 48 8) && refusesOne d st u c
      && decide (c.op = some i) && runsAlone d i o && (ep? d o.ep).any (fun x => x.typ != 0)
      && d.xp.contents.all (fun p => decide (p.2.op ≠ some i) || p.2.sent))
    (fun d d' => completed d d' i o (st.hdr.opwf 48 8) 0 id ∧ settledAt d' st.hdr)

/-- R243: a trim notice: the content is to be sent again, and the rate is cut (R251). -/
noncomputable def trimNoticed (st : Strand) (u : Unacked) (c : Content) : Effect :=
  strandIn (.trimNoticeStrand st) st
    (fun d => st.hdr.kind == 3 && refusesOne d st u c && decide (c.trims + 1 < 8))
    (fun d d' => d'.xp.trimmed = d.xp.trimmed ++ [u.cid]
      ∧ content? d' u.cid = some { c with trims := c.trims + 1, refused := true, sent := false } ∧ settledAt d' st.hdr)

/-- R63, R229: an EP_GONE that answers nothing ends the one operation toward the endpoint with ENDPOINT_GONE. -/
noncomputable def goneEnds (st : Strand) (i : Nat) (o : Op) : Effect :=
  let h := st.hdr
  strandIn (.epGoneStrand st) st
    (fun d => h.kind == 10 && landed d st && ofPair d h && !bitOf h.opw.toNat 33 && d.clasp.recs == [] && runsAlone d i o
      && (d.xp.ops.filter (fun p => decide (p.2.dst = h.srcDa.toNat) && decide (p.2.dstEp = h.srcEp.toNat) && p.2.state != .met
            && p.2.code != 0x28)).map (·.1) == [i]
      && d.xp.recvRecs.all (fun r => !(decide (r.1.peer.toNat = h.srcDa.toNat) && decide (r.1.peerEp = h.srcEp.toNat)))
      && (ep? d o.ep).any (fun x => x.typ != 0) && d.xp.contents.all (fun p => decide (p.2.op ≠ some i) || p.2.sent))
    (fun d d' => completed d d' i o 0x23 0 id ∧ settledAt d' h)

/-- R219: a RESYNC NACK of the present generation restarts the pair, here one that has nothing in progress: the next
generation begins at BSN 0, the receive halves wait for one of the peer. -/
noncomputable def resyncRestarts (st : Strand) (g : Nat) : Effect :=
  let da := st.hdr.srcDa.toNat
  { cmd := .resyncNack st
    pre := fun d => st.hdr.kind == 2 && st.hdr.opwf 40 8 == 4 && !frozen d && !strandBad st && ofPair d st.hdr && st.hdr.bgen.toNat == g
      && d.xp.ops == [] && d.xp.contents == [] && d.xp.sendRecs == [] && d.xp.recvRecs == [] && d.mt.msgs == [] && d.clasp.recs == []
      && d.coll.insts == [] && unheard d (srcWin 11 3)
    post := fun d d' =>
      let p := peer d' da
      p.txGen = some ((g + 1) % 256) ∧ p.state = .opened ∧ p.req.next = 0 ∧ p.rsp.next = 0 ∧ p.req.unacked = [] ∧ p.rsp.unacked = []
        ∧ p.req.queue = [] ∧ p.rsp.queue = [] ∧ p.rxReq = {} ∧ p.rxRsp = {} ∧ d'.flt = (noted (srcWin 11 3) d).flt
        ∧ keepsRest { unland st d with flt := d'.flt } d' }

end Sys2Proof.Claims
end

