-- ==== Sys2Proof/Claims/Strands.lean ====
section
/-! DEFINITION. What is claimed of the strands of remote memory, matching, Clasp and collectives, and of the completions of
reads of host memory (R71, R72, R90, R108, R116 to R164, R190, R208, R389, R390). -/

namespace Sys2Proof.Claims

open Machine

/-! ### At the target (R120) -/

/-- R120, R234: the endpoint that a strand names is there, resident, running, of the job, and the strand is of a message with which its
stream begins. -/
def metBy (d : Dev) (h : Hdr) : Bool :=
  let e := h.dstEp.toNat
  (ep? d e).any (fun x => x.resident && x.scans && x.newRecv == []) && (blockOf d e).any (fun b => b.job == h.job.toNat)
    && (aget d.xp.recvRecs h.rxKey).isNone && decide (streamsUsed d < 65536) && h.dep == 0 && noneParked d e

/-- A strand of a DATA operation arrives at its endpoint. -/
def dataStrand (d : Dev) (st : Strand) (op : BitVec 8) : Bool :=
  st.hdr.kind == 0 && st.hdr.op == op && landed d st && metBy d st.hdr && st.hdr.offset == 0 && !st.hdr.durable

/-- Where a strand's payload is placed (R122). -/
def writePlace (d : Dev) (h : Hdr) : Option (Func × Nat) :=
  busAt d h.dstEp.toNat h.key.toNat true .remoteWrite .w h.addr.toNat h.len.toNat

/-- R122, R237: the writes of a payload: in an IN_ORDER stream without Relaxed Ordering and with the message's last byte after all
others. -/
def placeAt (st : Strand) (f : Func) (bus len : Nat) (d : Dev) : Dev :=
  let io := inOrder st.hdr.ord.toNat
  writeRange f [(bus, len)] (takeChunks len st.chunks) (!io) (io && st.hdr.mlast) d

/-- R122: a WRITE strand places its payload. -/
noncomputable def writePlaced (st : Strand) : Effect :=
  strandIn (.writeStrand st) st
    (fun d => dataStrand d st 1 && (writePlace d st.hdr).any (fun p => canWrite d p.1 4300))
    (fun d d' => ∃ f bus, writePlace d st.hdr = some (f, bus) ∧ d'.out = (placeAt st f bus st.hdr.len.toNat d).out ∧ settledAt d' st.hdr)

/-- R123: a WRITE_IMM of one strand, which is placed, then completes at the receive side with its immediate. -/
noncomputable def writeImmDone (st : Strand) : Effect :=
  let h := st.hdr
  let e := h.dstEp.toNat
  strandIn (.writeImmStrand st) st
    (fun d => dataStrand d st 2 && h.mlast && (writePlace d h).any (fun p => canWrite d p.1 4400) && quietCq d e true)
    (fun d d' => ∃ f bus x, writePlace d h = some (f, bus) ∧ ep? d e = some x
      ∧ d'.out = (cqPut x.rCq { entry d e true 0x02 (b2n st.poisoned) with
          noIndex := true, bytes := h.len.toNat, dataValid := true, data := h.opwf 0 32 + h.srcEp.toNat * 2 ^ 32, srcDa := h.srcDa.toNat }
          (placeAt st f bus h.len.toNat d)).out ∧ settledAt d' h)

/-- A counter can be added to: its mirror can be written, and no running collective waits on it. -/
def countable (d : Dev) (i : Nat) : Bool :=
  (cntRange d i).any (fun p => p.2.mirror.isNone || canWrite d p.2.f 10) && d.coll.insts.all (fun p => p.2.state != .running)

/-- R123, R203: a PUT_COUNT of one strand, which is placed, then adds to its counter. -/
noncomputable def putCountDone (st : Strand) : Effect :=
  let h := st.hdr
  strandIn (.putCountStrand st) st
    (fun d => dataStrand d st 4 && h.mlast && (writePlace d h).any (fun p => canWrite d p.1 4400) && cntOfEp d (h.opwf 0 18) h.dstEp.toNat
      && countable d (h.opwf 0 18))
    (fun d d' => ∃ f bus, writePlace d h = some (f, bus)
      ∧ cntValue d' (h.opwf 0 18) = (cntValue d (h.opwf 0 18) + h.opwf 18 14) % 2 ^ 64
      ∧ d'.out = (cntAdd (h.opwf 0 18) (h.opwf 18 14) (placeAt st f bus h.len.toNat d)).out ∧ settledAt d' h)

/-- Where the bytes of a message that fit go in the buffer of a receive (R71, R158). -/
def recvPlace (d : Dev) (h : Hdr) (r : Recv) : Option (Func × Nat) :=
  busAt d h.dstEp.toNat (dLkey r.desc) false .localWrite .w (dLaddr r.desc) (min h.len.toNat (dLen r.desc))

/-- R71: a SEND of one strand takes the oldest posted receive: what fits is placed in its buffer, and it completes, TRUNCATED
where not all fits. -/
noncomputable def sendDelivered (st : Strand) (r : Recv) (rest : List Recv) : Effect :=
  let h := st.hdr
  let e := h.dstEp.toNat
  strandIn (.sendStrand st) st
    (fun d => dataStrand d st 8 && h.mlast && (ep? d e).any (fun x => decide (x.recvs = r :: rest)) && quietCq d e true
      && (recvPlace d h r).any (fun p => canWrite d p.1 4400))
    (fun d d' => ∃ f bus x, recvPlace d h r = some (f, bus) ∧ ep? d e = some x
      ∧ (let n := min h.len.toNat (dLen r.desc)
         let imm := bitOf h.addr.toNat 32
         d'.out = (cqPut x.rCq { entry d e true 0x40 (if dLen r.desc < h.len.toNat then 0x40 else b2n st.poisoned) with
            ringIndex := recvIndex d e r.pos, bytes := n, dataValid := true
            data := (if imm then h.opwf 0 32 else 0) + h.srcEp.toNat * 2 ^ 32 + b2n imm * 2 ^ 52, srcDa := h.srcDa.toNat }
            (placeAt st f bus n d)).out)
      ∧ (ep? d' e).map (·.recvs) = some rest ∧ settledAt d' h)

/-- R154, R155, R158, R163: an eager tagged message of one strand goes to the earliest posted receive that accepts it: what fits is placed,
the envelope record is written, then the completion. -/
noncomputable def taggedDelivered (st : Strand) (q : Posted) : Effect :=
  let h := st.hdr
  let e := h.dstEp.toNat
  let m : TagMsg := { ep := e, hdr := h, rndv := false, len := tagLen h }
  let r := q.recv
  strandIn (.sendTaggedStrand st) st
    (fun d => dataStrand d st 9 && h.mlast && tagLen h == h.len.toNat && quietCq d e true
      && (mctx? d e).any (fun c => decide (c.posted.find? (fun q => acceptsMsg q.recv.desc h) = some q) && !c.full)
      && (recvPlace d h r).any (fun p => canWrite d p.1 4500))
    (fun d d' => ∃ f bus x c, recvPlace d h r = some (f, bus) ∧ ep? d e = some x ∧ mctx? d e = some c
      ∧ (let n := min h.len.toNat (dLen r.desc)
         let status := if dLen r.desc < h.len.toNat then 0x40 else b2n st.poisoned
         d'.out = (cqPut x.rCq (tagEntry d e r m status n) (envelopeRecord e r m (placeAt st f bus n d))).out)
      ∧ (mctx? d' e).map (·.posted) = some (c.posted.filter (fun p => p.seq != q.seq)) ∧ settledAt d' h)

/-- R154, R160: the announcement of a rendezvous that no posted receive accepts is held as unexpected. -/
noncomputable def rndvHeld (st : Strand) : Effect :=
  let h := st.hdr
  let e := h.dstEp.toNat
  strandIn (.rndvRtsStrand st) st
    (fun d => dataStrand d st 0x0A && h.mlast && h.len == 0 && (mctx? d e).any (fun c => c.posted.all (fun q => !acceptsMsg q.recv.desc h))
      && decide (storeUsed d < 131072))
    (fun d d' => ∃ c mid m, mctx? d e = some c ∧ (mctx? d' e).map (·.unexp) = some (c.unexp ++ [mid]) ∧ tagMsg? d' mid = some m
      ∧ m.rndv = true ∧ m.hdr = h ∧ m.len = tagLen h ∧ m.recv = none ∧ settledAt d' h)

/-- R159: the rendezvous of an endpoint that a strand from its peer names by RTAG. -/
def rndvNamed (h : Hdr) (rtag : Nat) (o : Op) : Bool :=
  o.rndv && o.state == .running && decide (o.ep = h.dstEp.toNat) && decide (o.rtag = rtag) && decide (o.dst = h.srcDa.toNat)
    && decide (o.dstEp = h.srcEp.toNat)

/-- R161, R162: RNDV_DONE completes the rendezvous at its sender with the status and the bytes it states. -/
noncomputable def rndvEnds (st : Strand) (i : Nat) (o : Op) : Effect :=
  let h := st.hdr
  let status := if h.opwf 48 8 = 0 ∧ o.poison = true then 1 else h.opwf 48 8
  strandIn (.rndvDoneStrand st) st
    (fun d => dataStrand d st 0x0C && h.mlast && h.len == 0 && decide (h.opwf 48 8 < 4) && runsAlone d i o && o.code == 9
      && decide (d.xp.ops.find? (fun p => rndvNamed h (h.opwf 32 16) p.2) = some (i, o)))
    (fun d d' => completed d d' i o status (h.opwf 0 32) id ∧ settledAt d' h)

/-! ### Reads (R127, R160) -/

/-- Where the source of a READ_REQ lies. -/
def readSource (d : Dev) (h : Hdr) : Option (Func × Nat) :=
  busAt d h.dstEp.toNat h.key.toNat true .remoteRead .r (h.addr.toNat + h.offset.toNat) (h.opwf 0 13)

/-- R120, R126, R127: a READ_REQ reads its source in host memory. -/
noncomputable def readAsked (st : Strand) : Effect :=
  let h := st.hdr
  strandIn (.readReqStrand st) st
    (fun d => h.kind == 4 && h.op == 3 && landed d st && metBy d h && (readSource d h).any (fun p => readsAt d p (h.opwf 0 13)))
    (fun d d' => ∃ f bus, readSource d h = some (f, bus) ∧ asksFor d d' f bus (h.opwf 0 13) ∧ settledAt d' h)

/-- Where the source of a pull lies: in the buffer of the rendezvous that it names. -/
def pullSource (d : Dev) (h : Hdr) : Option (Func × Nat) :=
  (d.xp.ops.find? (fun p => rndvNamed h (h.opwf 16 16) p.2)).bind (fun p =>
    busAt d h.dstEp.toNat (dLkey p.2.desc) false .any .r (dLaddr p.2.desc + h.offset.toNat) (h.opwf 0 13))

/-- R160, R162: an RNDV_READ reads the buffer of the rendezvous. -/
noncomputable def pullAsked (st : Strand) : Effect :=
  let h := st.hdr
  strandIn (.rndvReadStrand st) st
    (fun d => h.kind == 4 && h.op == 0x0B && landed d st && metBy d h && (pullSource d h).any (fun p => readsAt d p (h.opwf 0 13)))
    (fun d d' => ∃ f bus, pullSource d h = some (f, bus) ∧ asksFor d d' f bus (h.opwf 0 13) ∧ settledAt d' h)

/-- A part of a running read that a response answers, and where its data goes (R127). -/
def partAnswered (d : Dev) (h : Hdr) (i : Nat) (o : Op) (q : Part) : Option (Func × Nat) :=
  if findOp d h (fun o => decide (o.code = h.op.toNat)) = some (i, o) ∧ op? d i = some o
      ∧ o.parts.find? (fun q => decide (q.off = h.offset.toNat) && !q.fin) = some q ∧ q.len = h.len.toNat ∧ o.loc = none ∧ h.opwf 0 8 = 0 then
    busAt d o.ep (dLkey o.desc) false .localWrite .w (dLaddr o.desc + q.off) q.len
  else none

/-- R127: the data of a part is written to the read's local buffer. -/
def partWrites (st : Strand) (o : Op) (f : Func) (bus : Nat) (d : Dev) : Dev :=
  writeRange f [(bus, st.hdr.len.toNat)] (takeChunks st.hdr.len.toNat st.chunks) (!inOrder o.ord) false d

/-- R127, R160: the response of a part that is not the last to come is placed. -/
noncomputable def partPlaced (c : Instr) (st : Strand) (op : BitVec 8) (i : Nat) (o : Op) (q : Part) : Effect :=
  let h := st.hdr
  strandIn c st
    (fun d => h.kind == 5 && h.op == op && landed d st && (partAnswered d h i o q).any (fun p => canWrite d p.1 4300)
      && o.parts.any (fun p => decide (p.off ≠ q.off) && !p.fin))
    (fun d d' => ∃ f bus, partAnswered d h i o q = some (f, bus) ∧ d'.out = (partWrites st o f bus d).out
      ∧ (op? d' i).any (fun x => x.parts == o.parts.map (fun p => if p.off = q.off then { p with fin := true } else p)) = true
      ∧ settledAt d' h)

/-- R127: of a READ; R160: of a pull. -/
noncomputable def readPartPlaced (st : Strand) (i : Nat) (o : Op) (q : Part) : Effect := partPlaced (.readRspStrand st) st 3 i o q
noncomputable def pullPartPlaced (st : Strand) (i : Nat) (o : Op) (q : Part) : Effect := partPlaced (.rndvReadRsp st) st 0x0B i o q

/-- R121, R127: the response of the last part of a READ is placed, and the READ completes. -/
noncomputable def readEnds (st : Strand) (i : Nat) (o : Op) (q : Part) : Effect :=
  let h := st.hdr
  strandIn (.readRspStrand st) st
    (fun d => h.kind == 5 && h.op == 3 && landed d st && (partAnswered d h i o q).any (fun p => canWrite d p.1 4400) && runsAlone d i o
      && o.parts.all (fun p => decide (p.off = q.off) || p.fin))
    (fun d d' => ∃ f bus, partAnswered d h i o q = some (f, bus)
      ∧ completed d d' i o (b2n (o.poison || st.poisoned)) o.len (partWrites st o f bus) ∧ settledAt d' h)

/-- R128: a trimmed READ_RSP is asked for again with RESEND, below the eighth trim. -/
noncomputable def readAgain (st : Strand) (i : Nat) (o : Op) (q : Part) : Effect :=
  let h := st.hdr
  strandIn (.readResend st) st
    (fun d => h.kind == 5 && h.trim && h.len != 0 && inTurn d st && reachable d o.dst && decide (o.dst < 2 ^ 17)
      && decide (findOp d h (fun o => decide (o.code = h.op.toNat)) = some (i, o) ∧ op? d i = some o)
      && decide (o.parts.find? (fun q => decide (q.off = h.offset.toNat) && !q.fin) = some q) && decide (q.trims + 1 < 8))
    (fun d d' => queuedAlone d d' o.dst false (fun g data =>
        g = (let g := partHdr d o q.off q.len; { g with flags := mkFlags g.mlast g.dep g.durable true g.unord false }) ∧ data = [])
      ∧ settledAt d' h)

/-! ### Atomics (R129, R130) -/

/-- The word of a request. -/
def wordPlace (d : Dev) (h : Hdr) (region : RegionRight) : Option (Func × Nat) :=
  busAt d h.dstEp.toNat h.key.toNat true region .a h.addr.toNat 8

/-- R130: without AtomicOps, an ATOMIC takes its word in hand and reads it. -/
noncomputable def atomicBegins (st : Strand) : Effect :=
  let h := st.hdr
  strandIn (.atomicStrand st) st
    (fun d => h.kind == 6 && h.len == 0 && landed d st && metBy d h && (wordPlace d h .remoteAtomic).any (fun p => readsAt d p 8 && !aopPath d p.1.hp))
    (fun d d' => ∃ f bus, wordPlace d h .remoteAtomic = some (f, bus) ∧ asksFor d d' f bus 8 ∧ (busyHit d' f.hp bus 8).isSome = true
      ∧ settledAt d' h)

/-- R121: the response of an ATOMIC: the old word is written to LADDR, and the operation completes. -/
noncomputable def atomicEnds (st : Strand) (i : Nat) (o : Op) : Effect :=
  let h := st.hdr
  let place (d : Dev) := busAt d o.ep (dLkey o.desc) false .localWrite .w (dLaddr o.desc) 8
  strandIn (.atomicRspStrand st) st
    (fun d => h.kind == 5 && h.op == 0x10 && landed d st && decide (findOp d h (fun o => decide (o.code = 0x10)) = some (i, o))
      && h.opwf 64 8 == 0 && !bitOf (leAt o.desc 28 1) 7 && runsAlone d i o && o.loc.isNone && (place d).any (fun p => canWrite d p.1 80))
    (fun d d' => ∃ f bus, place d = some (f, bus)
      ∧ completed d d' i o 0 8 (writePieces f [(bus, 8)] [⟨toLe 8 (h.opwf 0 64), false⟩] false) ∧ settledAt d' h)

/-! ### Clasp (R132 to R143) -/

/-- A LOCK request arrives for a word of its domain. -/
def lockAsked (d : Dev) (st : Strand) (op : BitVec 8) : Bool :=
  let h := st.hdr
  h.kind == 7 && !h.vn && h.op == op && h.len == 0 && landed d st && metBy d h && (wordPlace d h .clasp).isSome
    && (mget d.clasp.domains (h.opwf 0 12)).any (fun m => decide (some m.slot = epSlot d h.dstEp.toNat))

/-- The record of the word of a request, whose word has been read. -/
def lockNamed (d : Dev) (h : Hdr) (i : Nat) (r : LockRec) : Bool :=
  (wordPlace d h .clasp).any (fun p => decide (lockAt d p.1.hp p.2 = some (i, r)) && decide (r.addr = p.2) && decide (r.f = p.1))
    && decide (lock? d i = some r) && !r.reading && r.domain == h.opwf 0 12 && canWrite d r.f 20

/-- R132: the first request for a lock reads its word. -/
noncomputable def lockFirst (st : Strand) : Effect :=
  let h := st.hdr
  strandIn (.lockAcquire st) st
    (fun d => lockAsked d st 1 && d.clasp.recs == [] && (wordPlace d h .clasp).any (fun p => readsAt d p 8))
    (fun d d' => ∃ f bus i r, wordPlace d h .clasp = some (f, bus) ∧ asksFor d d' f bus 8 ∧ d'.clasp.recs = [(i, r)]
      ∧ r.hp = f.hp.val ∧ r.addr = bus ∧ r.domain = h.opwf 0 12 ∧ r.reading = true ∧ r.pend.map (·.st) = [st])

/-- R133, R134, R137: an ACQUIRE of a HELD lock is queued, and the lock word is written. -/
noncomputable def lockQueued (st : Strand) (i : Nat) (r : LockRec) : Effect :=
  let h := st.hdr
  strandIn (.lockAcquire st) st
    (fun d => lockAsked d st 1 && lockNamed d h i r && decide (r.state = .held) && !r.has h.srcDa.toNat h.srcEp.toNat
      && (mget d.clasp.domains r.domain).any (fun m => decide (r.queue.length + 2 ≤ m.members)) && decide (waitersUsed d < 65536)
      && (!rankedDomain d r.domain || decide (h.opwf 16 8 ≤ r.reported)))
    (fun d d' =>
      let r' : LockRec := { r with queue := r.queue ++ [claimOf h] }
      lock? d' i = some r' ∧ d'.out = (hostWrite r.f r.addr (toLe 8 r'.word) false false d).out ∧ settledAt d' h)

/-- R137: a TRY of a HELD lock is answered BUSY. -/
noncomputable def lockTried (st : Strand) (i : Nat) (r : LockRec) : Effect :=
  let h := st.hdr
  strandIn (.lockTry st) st
    (fun d => lockAsked d st 2 && lockNamed d h i r && decide (r.state = .held) && !r.has h.srcDa.toNat h.srcEp.toNat
      && reachable d h.srcDa.toNat)
    (fun d d' => queuedAlone d d' h.srcDa.toNat true (fun g data => g.kind = 7 ∧ g.op = 0x82 ∧ g.opw = 0x50 ∧ g.dstEp = h.srcEp ∧ g.msn = h.msn ∧ data = [])
      ∧ lock? d' i = some r ∧ settledAt d' h)

/-- R132, R134, R137: a RELEASE by the holder, for whom no one waits, is answered RELEASED; the record is freed and its word is
written as 0. -/
noncomputable def lockGivenUp (st : Strand) (i : Nat) (r : LockRec) : Effect :=
  let h := st.hdr
  strandIn (.lockRelease st) st
    (fun d => lockAsked d st 3 && lockNamed d h i r && decide (r.state = .held) && r.queue == []
      && decide (r.holder.map (fun w => (w.da, w.ep)) = some (h.srcDa.toNat, h.srcEp.toNat)) && r.seq == h.opwf 32 32
      && reachable d h.srcDa.toNat)
    (fun d d' => queuedTo d d' h.srcDa.toNat true (fun g data => g.kind = 7 ∧ g.op = 0x84
        ∧ g.opw = BitVec.ofNat 128 (i * 2 ^ 8 + r.seq * 2 ^ 32) ∧ g.dstEp = h.srcEp ∧ g.msn = h.msn ∧ data = [])
      ∧ lock? d' i = none ∧ d'.out = (hostWrite r.f r.addr (toLe 8 0) false false d).out ∧ settledAt d' h)

/-- A response of a home device arrives for the one Clasp operation of its stream. -/
def lockAnswered (d : Dev) (st : Strand) (op : BitVec 8) (i : Nat) (o : Op) : Bool :=
  let h := st.hdr
  h.kind == 7 && h.vn && h.op == op && landed d st && runsAlone d i o
    && decide (findOp d h (fun o => decide (0x18 ≤ o.code) && decide (o.code ≤ 0x1A)) = some (i, o))

/-- R138: a GRANT: the endpoint holds the lock, the grant record is written to LADDR, and the operation completes. -/
noncomputable def lockGranted (st : Strand) (i : Nat) (o : Op) : Effect :=
  let h := st.hdr
  let place (d : Dev) := busAt d o.ep (dLkey o.desc) false .localWrite .w (dLaddr o.desc) 16
  strandIn (.lockGrant st) st
    (fun d => lockAnswered d st 0x81 i o && (o.code == 0x18 || o.code == 0x19) && decide (h.opwf 0 8 < 4) && o.loc.isNone
      && (place d).any (fun p => canWrite d p.1 80))
    (fun d d' => ∃ f bus, place d = some (f, bus)
      ∧ completed d d' i o (h.opwf 0 8) 0 (writePieces f [(bus, 16)] [⟨grantRecord h, false⟩] false)
      ∧ (h.dstEp.toNat, h.srcDa.toNat, h.opwf 8 16) ∈ d'.clasp.held ∧ settledAt d' h)

/-- R121, R137: BUSY ends a TRY with its status; R143: REMOVED ends an ACQUIRE or a TRY with its status. -/
noncomputable def lockEnds (c : Instr) (st : Strand) (op : BitVec 8) (i : Nat) (o : Op) : Effect :=
  strandIn c st
    (fun d => lockAnswered d st op i o && (o.code == 0x18 || o.code == 0x19) && decide (4 ≤ st.hdr.opwf 0 8)
      && (ep? d o.ep).any (fun x => x.typ != 0) && d.xp.contents.all (fun p => decide (p.2.op ≠ some i) || p.2.sent))
    (fun d d' => completed d d' i o (st.hdr.opwf 0 8) 0 id ∧ settledAt d' st.hdr)
noncomputable def lockBusyEnds (st : Strand) (i : Nat) (o : Op) : Effect := lockEnds (.lockBusy st) st 0x82 i o
noncomputable def lockRemovedEnds (st : Strand) (i : Nat) (o : Op) : Effect := lockEnds (.lockRemoved st) st 0x85 i o

/-- R121, R138: RELEASED completes a RELEASE, and the endpoint no longer holds the lock. -/
noncomputable def lockReleasedEnds (st : Strand) (i : Nat) (o : Op) : Effect :=
  let h := st.hdr
  strandIn (.lockReleased st) st
    (fun d => lockAnswered d st 0x84 i o && o.code == 0x1A && h.opwf 0 8 == 0)
    (fun d d' => completed d d' i o 0 0 id
      ∧ d'.clasp.held = d.clasp.held.filter (· != (h.dstEp.toNat, h.srcDa.toNat, h.opwf 8 16)) ∧ settledAt d' h)

/-- R139: an INHERIT for a lock that the endpoint holds is told to its event queue. -/
noncomputable def lockInherited (st : Strand) : Effect :=
  let h := st.hdr
  let e := h.dstEp.toNat
  strandIn (.lockInherit st) st
    (fun d => h.kind == 7 && h.vn && h.op == 0x83 && landed d st && d.clasp.held.contains (e, h.srcDa.toNat, h.opwf 8 16)
      && (ep? d e).any (fun x => (epFunc d e).any (fun f => canWrite d f 40
        && (eq? d f x.eq).any (fun q => !q.error && q.waiting == [] && !queueFull q.wr q.cached q.n))))
    (fun d d' => ∃ x f, ep? d e = some x ∧ epFunc d e = some f
      ∧ d'.out = (eqPost f x.eq (event d 6 h.srcDa.toNat (h.opwf 8 16 + h.opwf 64 8 * 2 ^ 16)) d).out ∧ settledAt d' h)

/-! ### Collectives (R188 to R190, R208) -/

/-- R181, R190: a STEP_DATA strand for a RECV into a staging slot that still waits for more than it: its bytes are written
there. -/
noncomputable def stepPlacedAt (st : Strand) (i : Nat) (x : Inst) (s : CStep) (k : Nat) : Effect :=
  let h := st.hdr
  let e := h.dstEp.toNat
  let place (d : Dev) : Nat := stageAddr d x k (h.offset.toNat / max 1 (csW (instDesc d x)))
  strandIn (.stepData st) st
    (fun d => h.kind == 8 && h.op == 1 && h.unord && landed d st && metBy d h && h.len != 0
      && (d.coll.groups.find? (fun p => decide (p.2.key = h.opwf 0 32))).any (fun g => (rankOf d g.2 e).isSome
        && decide (d.coll.insts.find? (fun p => decide (p.2.group = g.1) && decide (p.2.ep = e) && p.2.state != .waiting) = some (i, x)))
      && decide (inst? d i = some x) && decide (x.state = .running) && x.ep == e && x.num == h.opwf 32 16 && decide (x.num < 2 ^ 16)
      && decide (matchStep d x (h.opwf 48 8) (h.opwf 56 20) (h.len == 0) = some s) && decide (step? d i s.no = some s)
      && sOp (rickStep d x s.ix) == 2 && decide (writeView (rickStep d x s.ix) = some (2 + k)) && !s.held && decide (h.len.toNat < s.left)
      && h.len.toNat % max 1 (csW (instDesc d x)) == 0 && inSegs s.segs (max 1 (csW (instDesc d x))) h.offset.toNat h.len.toNat
      && (epFunc d e).any (fun f => canWrite d f 4300 && (busyHit d f.hp (place d) h.len.toNat).isNone))
    (fun d d' => ∃ f, epFunc d e = some f ∧ d'.out = (writePieces f [(place d, h.len.toNat)] st.chunks true d).out
      ∧ (step? d' i s.no).map (fun s => (s.left, s.todo)) = some (s.left - h.len.toNat, s.todo - h.len.toNat) ∧ settledAt d' h)

/-- R208: an ARM_FIRE with the key of an armed counter adds to it. -/
noncomputable def armFired (st : Strand) : Effect :=
  let h := st.hdr
  strandIn (.armFire st) st
    (fun d => h.kind == 8 && h.op == 2 && landed d st && metBy d h && h.len == 0 && h.offset == 0 && curMode d != 0
      && decide (mget d.coll.armed (h.opwf 0 18) = some (h.opwf 32 32)) && countable d (h.opwf 0 18))
    (fun d d' => cntValue d' (h.opwf 0 18) = (cntValue d (h.opwf 0 18) + h.opwf 64 32) % 2 ^ 64
      ∧ d'.out = (cntAdd (h.opwf 0 18) (h.opwf 64 32) d).out ∧ settledAt d' h)

/-! ### Completions of reads of host memory (R375, R389, R390) -/

/-- The one outstanding request of a read, with nothing else kept back at its port. -/
def readOf (d : Dev) (req : Nat) : Option (Np × HRead) :=
  (mget d.np req).bind (fun n => (mget d.reads n.rd).bind (fun r =>
    if r.parts.map (·.1) == [req] && r.status == .ok && d.np.all (fun p => p.1 == req || decide (p.2.f.hp ≠ n.f.hp) || p.2.sent)
        && d.xl.invals == [] then some (n, r) else none))

/-- The access whose data a read brings. -/
def accessOf (d : Dev) (req : Nat) : Option (Np × Acc) :=
  (readOf d req).bind (fun p => match p.2.use with | .acc id => (mget d.xl.accs id).map (fun a => (p.1, a)) | _ => none)

/-- The strand whose READ_REQ a read serves. -/
def readFor (d : Dev) (req : Nat) (rx : Rx) : Bool :=
  (accessOf d req).any (fun p => decide (p.2.use = .source rx) && p.2.remote) && rx.st.hdr.kind == 4 && rx.st.hdr.op == 3
    && (epFunc d rx.st.hdr.dstEp.toNat).isSome && reachable d rx.st.hdr.srcDa.toNat

/-- R127: the source of a READ_REQ has been read: the response with its data is queued. -/
noncomputable def readServed (req : Nat) (data : List Byte) (rx : Rx) : Effect :=
  let h := rx.st.hdr
  within
    { cmd := .hostReadComplete req .ok data, pre := fun d => readFor d req rx
      post := fun d d' => ∃ n, mget d.np req = some n ∧ queuedAlone d d' h.srcDa.toNat true (fun g cs => g.kind = 5 ∧ g.op = 3 ∧ g.offset = h.offset
        ∧ g.opw = 0 ∧ g.dstEp = h.srcEp ∧ g.ord = h.ord ∧ g.msn = h.msn ∧ cs = [⟨padTo n.len data, false⟩]) }

/-- R120, R390: the read of a READ_REQ's source is not answered in time: it is counted and raised, and the response says
LOCAL_ERROR. -/
noncomputable def readTimesOut (req : Nat) (rx : Rx) : Effect :=
  let h := rx.st.hdr
  { cmd := .completionTimeout req
    pre := fun d => readFor d req rx
      && (mget d.np req).any (fun n => roomFor d (HOSTB n.f.hp + 0x220) 1 && unheard d (srcHost n.f.hp 7))
    post := fun d d' => ∃ n, mget d.np req = some n ∧ d'.regs = (count (HOSTB n.f.hp + 0x220) d).regs
      ∧ d'.flt = (noted (srcHost n.f.hp 7) d).flt
      ∧ queuedAlone d d' h.srcDa.toNat true (fun g cs => g.kind = 5 ∧ g.op = 3 ∧ g.opw = 0x26 ∧ g.msn = h.msn ∧ cs = [])
      ∧ keepsRest { d with flt := d'.flt } d' }

/-- R72: the entries of a scan arrive, and the first of them is not owned by the device: the scan stops. -/
noncomputable def entryNotOwned (req : Nat) (data : List Byte) (e : Nat) (recv : Bool) (no pos n : Nat) : Effect :=
  within
    { cmd := .ringEntryArrival req .ok data
      pre := fun d => (accessOf d req).any (fun p => decide (p.2.use = .ring e recv no pos n) && p.1.len == 64 * n) && data.length == 64 * n
        && decide (1 ≤ n)
        && ((ep? d e).bind (ringOf · recv)).any (fun r => !r.again && !owned (data.take 64) pos r.n
          && r.scan.any (fun s => s.no == no && s.i == pos && decide (pos + min 8 (fld d (EPT + 0x020) 0 4) + 1 ≤ s.req)))
      post := fun d d' => ∃ r, (ep? d e).bind (ringOf · recv) = some r
        ∧ (ep? d' e).bind (ringOf · recv) = some { r with scan := none, again := false, unowned := true } }

/-- R90: the context of an endpoint has come: it is resident. -/
noncomputable def contextCame (req : Nat) (data : List Byte) (e : Nat) : Effect :=
  within
    { cmd := .contextFetchComplete req .ok data
      pre := fun d => (readOf d req).any (fun p => decide (p.2.use = .context e)) && (ep? d e).any (fun x => !x.bellPend)
        && decide (residentCount d < 65536) && noneParked d e
      post := fun _ d' => (ep? d' e).any (fun x => x.resident && !x.fetching) = true }

/-- R129, R130, R131: the word of an ATOMIC has been read: the new value is written, the word is let go, and the response has the
old one. -/
noncomputable def atomicDone (req : Nat) (data : List Byte) (rx : Rx) (f : Func) (a : Nat) : Effect :=
  let h := rx.st.hdr
  let old (n : Np) : Nat := leNat (padTo n.len data)
  within
    { cmd := .atomicReadComplete req .ok data
      pre := fun d => (readOf d req).any (fun p => decide (p.2.use = .atomSer rx f a)) && h.kind == 6 && reachable d h.srcDa.toNat
        && canWrite d f 20 && d.clasp.busy.all (fun b => !(decide (b.hp = f.hp.val) && decide (b.addr = a)) || b.waiting == [])
        && d.clasp.busy.any (fun b => decide (b.hp = f.hp.val) && decide (b.addr = a))
      post := fun d d' => ∃ n, mget d.np req = some n
        ∧ d'.out = (match atomicValue h (old n) with | some v => hostWrite f a (toLe 8 v) false false d | none => d).out
        ∧ d'.clasp.busy = d.clasp.busy.filter (fun b => !(decide (b.hp = f.hp.val) && decide (b.addr = a)))
        ∧ queuedTo d d' h.srcDa.toNat true (fun g cs => g.kind = 5 ∧ g.op = 0x10 ∧ g.opw = BitVec.ofNat 128 (old n % 2 ^ 64)
          ∧ g.dstEp = h.srcEp ∧ g.msn = h.msn ∧ cs = []) }

/-- R122, R235: the flushing read of a DURABLE WRITE returns: its final strand settles, and its stream goes on to the next
message. -/
noncomputable def flushed (req : Nat) (rx : Rx) (m : RxMsg) : Effect :=
  let h := rx.st.hdr
  within
    { cmd := .flushReadComplete req .ok
      pre := fun d => (readOf d req).any (fun p => decide (p.2.use = .flush rx)) && rx.self.isNone && !m.failed && m.reqs == []
        && m.hdr.kind == 0 && m.hdr.op == 1 && m.total.any (fun t => decide (t ≤ m.got))
        && (aget d.xp.recvRecs h.rxKey).any (fun r => decide (r.msgs = [(h.msn.toNat, m)]) && r.next == h.msn.toNat && !r.unord)
        && (let r := recvHalf (peer d h.srcDa.toNat) (vnOf h)
            r.synced && r.base == h.bsn.toNat && r.bits == [] && r.held == [h.bsn.toNat])
        && (coreLanding d h || roomFor d (HOSTB (hpOf d h.dstEp.toNat) + 0x260) (1 + rx.st.beads.length)) && noneParked d h.dstEp.toNat
      post := fun _ d' => settledAt d' h
        ∧ (aget d'.xp.recvRecs h.rxKey).map (fun r => (r.next, r.msgs)) = some ((h.msn.toNat + 1) % 2 ^ 24, []) }

/-- R98, R102: a table entry leads a level down: the walk goes on there with the rights left, and its next entry is asked for. -/
noncomputable def walkDescends (req : Nat) (data : List Byte) (k id : Nat) (w : Walk) : Effect :=
  let v := leNat (padTo 8 data)
  let table := bitsOf v 12 40 * 4096
  let next := table + 8 * bitsOf w.page (12 + 9 * (w.level - 1)) 9
  within
    { cmd := .walkReadComplete req .ok data
      pre := fun d => (readOf d req).any (fun p => decide (p.2.use = .walk k id) && p.1.len == 8) && decide (mget (xinst d k).walks id = some w)
        && decide (1 ≤ w.level) && bitOf v 0 && !bitOf v 4 && !formatFault v w.level
        && (slot? d w.slot).any (fun s => walkAllowed d s.f next 8 && readsAt d (s.f, next) 8)
      post := fun d d' => ∃ s, slot? d w.slot = some s ∧ asksFor d d' s.f next 8
        ∧ mget (xinst d' k).walks id = some { w with level := w.level - 1, table := table, r := w.r && bitOf v 1, w := w.w && bitOf v 2, a := w.a && bitOf v 3 } }

/-- R83: the head word of a completion queue shows room: the entry that waited is written. -/
noncomputable def headRead (req : Nat) (data : List Byte) (c : Nat) (e : Cqe) : Effect :=
  within
    { cmd := .headWordReadComplete req .ok data
      pre := fun d => (readOf d req).any (fun p => decide (p.2.use = .cqHead c) && p.1.len == 4)
        && (cq? d c).any (fun x => !x.error && decide (x.waiting = [e]) && !x.armed && !queueFull x.wr (leNat (padTo 4 data)) x.n && canWrite d x.f 33)
      post := fun d d' => ∃ x, cq? d c = some x ∧ d'.out = (cqPut c e d).out
        ∧ cq? d' c = some { x with cached := leNat (padTo 4 data), reading := false, waiting := [], wr := (x.wr + 1) % 2 ^ 32 } }

end Sys2Proof.Claims
end

