-- ==== Sys2Proof/Claims/Descriptors.lean ====
section
/-! DEFINITION. What is claimed of the descriptors of endpoints (R56 to R78, R116 to R129, R137, R154, R157, R207), of collective
instances and paced releases (R178 to R211), and of XLAT_PROBE. -/

namespace Sys2Proof.Claims

open Machine

/-! ### Descriptors of the send ring -/

/-- R69, R207: the oldest operation of an endpoint's send ring that has not begun is `o`, and nothing makes it wait: the
endpoint runs, a fence has nothing before it, and a trigger has been reached. -/
def begins (d : Dev) (e i : Nat) (o : Op) : Bool :=
  (ep? d e).any (fun x => x.scans && (oldestWaiting d x).any (fun p =>
    decide (p.1 = i) && decide (p.2.1 = o) && (p.2.2 || !(dFence o.desc || o.code == 0x1A))))
    && decide (op? d i = some o) && decide (o.state = .waiting) && o.ep == e
    && (match o.ext with | some (c, h) => !o.trig || reached (cntValue d c) h | none => true)

/-- R215, R223, R233: its strands can go out to another device: the device is not unreachable, no strand toward it waits for its turn,
its stream can give an MSN, and no limit of R128 or R159 holds it. -/
def sendable (d : Dev) (o : Op) : Bool :=
  reachable d o.dst && decide (o.dst < 2 ^ 17) && turnFree d o.dst && msnFree d o.key && !opLimited d o

/-- Its payload is at hand and fits one strand (R67). -/
def atHand (o : Op) : Bool := o.len == 0 || (dInline o.desc && decide (o.len ≤ 32))

/-- R221, R223: the first strand of the operation, the whole of its message, is queued: from its endpoint to its destination, with
MLAST. -/
def strandQueued (d d' : Dev) (i : Nat) (o : Op) (p : Hdr → List Chunk → Prop) : Prop :=
  queuedAlone d d' o.dst false (fun h data => h.srcEp = BitVec.ofNat 20 o.ep ∧ h.dstEp = BitVec.ofNat 20 o.dstEp ∧ h.ord = BitVec.ofNat 4 o.ord
      ∧ h.mlast = true ∧ p h data)
    ∧ (op? d' i).any (fun x => x.state == .running) = true

/-- The payload as inline bytes. -/
def inlineData (o : Op) (data : List Chunk) : Prop := (data.map (·.bytes)).flatten = (dInlineBytes o.desc).take o.len

/-- R121, R223: a DATA operation begins: its strand has the OP of the operation, its LEN and its inline payload. -/
noncomputable def dataBegins (c : Instr) (e i : Nat) (o : Op) (code addr key opw : Nat) : Effect :=
  within
    { cmd := c, pre := fun d => begins d e i o && sendable d o && o.code == code && atHand o
      post := fun d d' => strandQueued d d' i o (fun h data => h.kind = 0 ∧ h.op = BitVec.ofNat 8 code ∧ h.len = BitVec.ofNat 13 o.len ∧ h.offset = 0
        ∧ h.addr = BitVec.ofNat 64 addr ∧ h.key = BitVec.ofNat 32 key ∧ h.opw = BitVec.ofNat 128 opw ∧ inlineData o data) }

/-- R117, R122: WRITE. -/
noncomputable def writeBegins (e i : Nat) (o : Op) : Effect := dataBegins (.write e) e i o 1 (dRaddr o.desc) (dRkey o.desc) 0
/-- R117, R123: WRITE_IMM, with its immediate. -/
noncomputable def writeImmBegins (e i : Nat) (o : Op) : Effect := dataBegins (.writeImm e) e i o 2 (dRaddr o.desc) (dRkey o.desc) (dImm o.desc)
/-- R117, R123: PUT_COUNT, with its counter and amount. -/
noncomputable def putCountBegins (e i : Nat) (o : Op) : Effect := dataBegins (.putCount e) e i o 4 (dRaddr o.desc) (dRkey o.desc) (dImm o.desc)
/-- R71: SEND, with the length of the message and the immediate it may have. -/
noncomputable def sendBegins (e i : Nat) (o : Op) : Effect :=
  let imm := bitOf (leAt o.desc 20 1) 0
  dataBegins (.send e) e i o 8 (o.len + b2n imm * 2 ^ 32) 0 (if imm then leAt o.desc 16 4 else 0)
/-- R149, R157: SEND_TAGGED that is eager, with its envelope. -/
noncomputable def taggedBegins (e i : Nat) (o : Op) : Effect := dataBegins (.sendTagged e) e i o 9 o.len 0 (envelopeOpw o.desc)
/-- R207: TRIGGERED_START starts an operation whose counter has reached its threshold, here a WRITE. -/
noncomputable def triggeredBegins (e i : Nat) (o : Op) : Effect :=
  let k := dataBegins (.triggeredStart e) e i o 1 (dRaddr o.desc) (dRkey o.desc) 0
  { k with pre := fun d => k.pre d && o.trig && o.ext.isSome }

/-- R67, R223: the payload of a WRITE of one strand that is in host memory is read first. -/
noncomputable def writeReads (e i : Nat) (o : Op) : Effect :=
  let place (d : Dev) := busAt d e (dLkey o.desc) false .any .r (dLaddr o.desc) o.len
  within
    { cmd := .write e
      pre := fun d => begins d e i o && sendable d o && o.code == 1 && !dInline o.desc && decide (o.len ≤ mtu d) && o.loc.isNone
        && (place d).any (fun p => readsAt d p o.len)
      post := fun d d' => ∃ f bus, place d = some (f, bus) ∧ asksFor d d' f bus o.len ∧ (op? d' i).any (fun x => x.state == .running) = true }

/-- R119, R127: a READ of at most the MTU asks for all of it in one READ_REQ. -/
noncomputable def readBegins (e i : Nat) (o : Op) : Effect :=
  within
    { cmd := .read e, pre := fun d => begins d e i o && sendable d o && o.code == 3 && decide (o.len ≤ mtu d) && decide (partsOut d < 262144)
      post := fun d d' => strandQueued d d' i o (fun h data => h.kind = 4 ∧ h.op = 3 ∧ h.len = 0 ∧ h.opw = BitVec.ofNat 128 o.len
        ∧ h.addr = BitVec.ofNat 64 (dRaddr o.desc) ∧ h.key = BitVec.ofNat 32 (dRkey o.desc) ∧ data = []) }

/-- R119, R129: an ATOMIC sends its operation, its word and its operands. -/
noncomputable def atomicSends (e i : Nat) (o : Op) : Effect :=
  within
    { cmd := .atomic e, pre := fun d => begins d e i o && sendable d o && o.code == 0x10
      post := fun d d' => strandQueued d d' i o (fun h data => h.kind = 6 ∧ h.op = BitVec.ofNat 8 (bitsOf (leAt o.desc 28 1) 0 4) ∧ h.len = 0
        ∧ h.addr = BitVec.ofNat 64 (dRaddr o.desc) ∧ h.key = BitVec.ofNat 32 (dRkey o.desc)
        ∧ h.opw = BitVec.ofNat 128 (leAt o.desc 44 8 + leAt o.desc 52 8 * 2 ^ 64) ∧ data = []) }

/-- R119, R137: a Clasp operation sends its LOCK request to the home device: domain and priority, or domain and sequence number. -/
noncomputable def claspSends (c : Instr) (e i : Nat) (o : Op) (code opw : Nat) : Effect :=
  within
    { cmd := c, pre := fun d => begins d e i o && sendable d o && o.code == code
      post := fun d d' => strandQueued d d' i o (fun h data => h.kind = 7 ∧ h.vn = false ∧ h.op = BitVec.ofNat 8 (code - 0x17) ∧ h.len = 0
        ∧ h.addr = BitVec.ofNat 64 (dRaddr o.desc) ∧ h.key = BitVec.ofNat 32 (dRkey o.desc) ∧ h.opw = BitVec.ofNat 128 opw ∧ data = []) }
noncomputable def acquireSends (e i : Nat) (o : Op) : Effect :=
  claspSends (.claspAcquire e) e i o 0x18 (bitsOf (leAt o.desc 28 2) 0 12 + leAt o.desc 30 1 * 2 ^ 16)
noncomputable def trySends (e i : Nat) (o : Op) : Effect :=
  claspSends (.claspTry e) e i o 0x19 (bitsOf (leAt o.desc 28 2) 0 12 + leAt o.desc 30 1 * 2 ^ 16)
noncomputable def releaseSends (e i : Nat) (o : Op) : Effect :=
  claspSends (.claspRelease e) e i o 0x1A (bitsOf (leAt o.desc 28 2) 0 12 + leAt o.desc 44 4 * 2 ^ 32)

/-- R68, R76: a NOP completes. -/
noncomputable def nopCompletes (e i : Nat) (o : Op) : Effect :=
  within
    { cmd := .nop e
      pre := fun d => begins d e i o && o.code == 0 && o.localStatus == 0 && (match o.owner with | .ring _ => true | _ => false)
        && (aget d.xp.sendRecs o.key).all (fun r => r.order == []) && quietCq d e false
      post := fun d d' => completed d d' i o 0 0 id }

/-- R178: a COLL_START makes an instance that waits, with the next number of its member in its group. -/
noncomputable def collMade (e i : Nat) (o : Op) : Effect :=
  within
    { cmd := .collStart e, pre := fun d => begins d e i o && o.code == 0x28 && (mget d.coll.groups (csGroup o.desc)).isSome
      post := fun d d' => ∃ g num, mget d.coll.groups (csGroup o.desc) = some g ∧ num = (mget g.counts e).getD 0
        ∧ inst? d' d.coll.nextInst = some { group := csGroup o.desc, ep := e, rank := (rankOf d g e).getD 0, op := i, num := num, rick := csRick o.desc }
        ∧ ((mget d'.coll.groups (csGroup o.desc)).bind (fun g => mget g.counts e)) = some ((num + 1) % 65536)
        ∧ (op? d' i).any (fun x => x.state == .running) = true }

/-! ### Descriptors of the receive ring -/

/-- R70, R71: the oldest accepted receive is posted. -/
noncomputable def recvPosted (e : Nat) (r : Recv) (rest : List Recv) : Effect :=
  within
    { cmd := .recv e, pre := fun d => (ep? d e).any (fun x => decide (x.newRecv = r :: rest) && x.resident) && dOp r.desc == 0x40 && noneParked d e
      post := fun d d' => ∃ x y, ep? d e = some x ∧ ep? d' e = some y ∧ y.newRecv = rest ∧ y.recvs = x.recvs ++ [r] ∧ y.recv = x.recv }

/-- R154: the oldest accepted tagged receive, which no unexpected message fits, is the last of the posted ones. -/
noncomputable def taggedPosted (e : Nat) (r : Recv) (rest : List Recv) : Effect :=
  within
    { cmd := .recvTagged e
      pre := fun d => (ep? d e).any (fun x => decide (x.newRecv = r :: rest)) && dOp r.desc == 0x41
        && (mctx? d e).any (fun c => c.unexp.all (fun m => (tagMsg? d m).all (fun t => !acceptsMsg r.desc t.hdr))) && decide (storeUsed d < 131072)
      post := fun d d' => ∃ c y, mctx? d e = some c ∧ ep? d' e = some y ∧ y.newRecv = rest
        ∧ mctx? d' e = some { c with posted := c.posted ++ [{ seq := c.seq, recv := r }], seq := (c.seq + 1) % 2 ^ 32 } }

/-- R166: the spilled entries of a context return to the store, which has room for them, and its endpoint is told. -/
noncomputable def spillReturned (e : Nat) : Effect :=
  within
    { cmd := .spillReturn e
      pre := fun d => (mctx? d e).any (fun c => c.spilled && !c.full && c.unexp == [] && decide (storeUsed d + c.posted.length ≤ 131072))
        && (ep? d e).any (fun x => (epFunc d e).any (fun f => canWrite d f 40
          && (eq? d f x.eq).any (fun q => !q.error && q.waiting == [] && !queueFull q.wr q.cached q.n)))
      post := fun d d' => ∃ c x f, mctx? d e = some c ∧ ep? d e = some x ∧ epFunc d e = some f
        ∧ (mctx? d' e).map (fun c => (c.spilled, c.posted.map (·.recv))) = some (false, c.posted.map (·.recv))
        ∧ (mctx? d' e).any (fun c => c.posted.all (fun q => q.spilled.isNone)) = true
        ∧ d'.out = (eqPost f x.eq (event d 7 e 2) d).out }

/-- R65, R72, R73: a polled send ring whose last scan met an entry that is not the device's is scanned again: the entries from the head on
are asked for, here from one place, beginning at the head. -/
noncomputable def ringPolled (e : Nat) : Effect :=
  let n (d : Dev) : Nat := min 8 (fld d (EPT + 0x020) 0 4) + 1
  let place (d : Dev) (r : Ring) := busAt d e 0 false .any .r (r.base + 64 * (r.head % 2 ^ r.n)) (64 * n d)
  within
    { cmd := .pollTimer e
      pre := fun d => (ep? d e).any (fun x => x.poll && x.scans && x.send.unowned && x.send.scan.isNone && !x.recv.any (fun r => r.unowned)
          && decide (x.send.head % 2 ^ x.send.n + n d ≤ 2 ^ x.send.n)
          && (place d x.send).any (fun p => canRead d p.1 2 && decide (512 ≤ (fn d (pf p.1.hp)).mrrs) && decide (outstanding d p.1.hp < 767)))
        && !frozen d
      post := fun d d' => ∃ x y f bus, ep? d e = some x ∧ ep? d' e = some y ∧ place d x.send = some (f, bus) ∧ (∃ k, leaves d d' (.hostRead f (d.nextReq * 8 + f.hp.val) bus (64 * k)))
        ∧ y.send.unowned = false ∧ y.send.scan = some { no := x.send.scans, i := x.send.head, req := x.send.head + n d } }

/-! ### Collective instances (R178 to R211) -/

/-- An instance runs alone: no other is of its group and member, its operation is of a send ring, and its completion entry can be written. -/
def instAlone (d : Dev) (k : Nat) (x : Inst) (o : Op) : Bool :=
  decide (inst? d k = some x) && runsAlone d x.op o && o.ep == x.ep
    && d.xp.ops.all (fun p => match p.2.owner with | .coll j _ _ => decide (j ≠ k) | _ => true)
    && d.coll.insts.all (fun p => p.1 == k || decide (p.2.group ≠ x.group) || decide (p.2.ep ≠ x.ep)) && noneParked d x.ep

/-- R178, R185, R210: an instance of a Rick that is only END runs, and its operation, not paced, completes. -/
noncomputable def instEnds (k : Nat) (x : Inst) (o : Op) : Effect :=
  within
    { cmd := .instanceRun k
      pre := fun d => instAlone d k x o && decide (x.state = .waiting) && x.steps == [] && x.pc == 0 && !x.poison && sOp (rickStep d x 0) == 9
        && !csPaced o.desc && decide ((d.coll.insts.filter (fun p => p.2.state != .waiting)).length < 8192) && d.coll.pace.isNone
      post := fun d d' => inst? d' k = none ∧ completed d d' x.op o 0 o.len id }

/-- R201: the timer of an instance aborts it: its group keeps what is known of the abort, and its operation completes with COLL_ABORTED. -/
noncomputable def instTimesOut (k : Nat) (x : Inst) (o : Op) (g : Group) : Effect :=
  within
    { cmd := .collTimeout k
      pre := fun d => instAlone d k x o && decide (x.state = .running) && x.steps == [] && decide (mget d.coll.groups x.group = some g)
        && (ep? d x.ep).any (fun y => y.typ != 0) && d.xp.contents.all (fun p => decide (p.2.op ≠ some x.op) || p.2.sent) && d.coll.pace.isNone
      post := fun d d' => inst? d' k = none ∧ (mget d'.coll.groups x.group).map (·.aborts) = some (mset g.aborts x.ep (1, x.pc, x.rank, x.num))
        ∧ completed d d' x.op o 0x60 0 id }

/-- R210: the release of the one instance that waits at a paced host port is delivered: its operation completes. -/
noncomputable def releaseDelivered (hp : HostNo) (k : Nat) (x : Inst) (o : Op) (p : Pace) : Effect :=
  within
    { cmd := .releaseDelivery hp
      pre := fun d => instAlone d k x o && !x.poison && hpOf d x.ep == hp.val && decide (d.coll.pace = some p) && p.insts == [k]
        && p.ports.contains hp.val
      post := fun d d' => inst? d' k = none ∧ completed d d' x.op o 0 o.len id
        ∧ (let ports := p.ports.filter (· != hp.val)
           d'.coll.pace = if ports = [] ∧ p.deassertLeft = [] then none else some { p with ports := ports, insts := [] }) }

/-- R210, R500: a PREWARN output is asserted at its time: the pin changes, unless it is forced already. -/
noncomputable def prewarnRises (j : Fin 4) (p : Pace) : Effect :=
  within
    { cmd := .prewarnAssert j
      pre := fun d => decide (d.coll.pace = some p) && p.assertLeft.contains j.val && prewarnOn d && !d.boot.pfail && !bitOf d.coll.prewarn j
        && !bitOf d.pwr.forced j && decide (d.coll.prewarn < 16)
      post := fun d d' => d'.out = d.out ++ [.pin "PREWARN" j.val 1] ∧ d'.coll.prewarn = d.coll.prewarn ||| 2 ^ j.val
        ∧ d'.coll.pace = some { p with assertLeft := p.assertLeft.filter (· != j.val) } }

/-- R210, R211, R500: a PREWARN output is deasserted when no delivery to its ports is left. -/
noncomputable def prewarnFalls (j : Fin 4) : Effect :=
  within
    { cmd := .prewarnDeassert j
      pre := fun d => d.coll.pace.isNone && bitOf d.coll.prewarn j && !bitOf d.pwr.forced j && decide (d.coll.prewarn < 16)
      post := fun d d' => d'.out = d.out ++ [.pin "PREWARN" j.val 0] ∧ d'.coll.prewarn = d.coll.prewarn - 2 ^ j.val }

/-! ### XLAT_PROBE (R116) -/

/-- The segment that holds an address of a job slot. -/
def probeHit (d : Dev) (slot iova : Nat) : Option PageRes := (slot? d slot).bind (fun s => segHit s (iova / 4096 * 4096))

/-- R97, R116: the probe of an address that a segment holds tells its bus address, its rights and that a segment answered. -/
noncomputable def probeAnswered (c : AdminCtx) (slot iova : Nat) : Effect :=
  { cmd := .xlatProbe c slot iova
    pre := fun d => byMailbox (.xlatProbe c slot iova) c 34 d && (probeHit d slot iova).isSome && decide (iova < 2 ^ 48) && d.xl.invals == []
      && (slot? d slot).any (fun s => (probeHit d slot iova).any (fun p => !hitsBar d s.f.hp (p.bus + iova % 4096) 1))
    post := fun d d' => ∃ p, probeHit d slot iova = some p
      ∧ d'.mnt = (replyOut c 0x0340 0 0
          (packVals [(1, 0), (8, p.bus + iova % 4096), (1, b2n p.r + 2 * b2n p.w + 4 * b2n p.a), (8, p.size), (1, p.cont), (1, 1)]) d).mnt
      ∧ d'.adm.running = [] }

end Sys2Proof.Claims
end

