-- ==== Sys2Proof/Claims/Dma.lean ====
section
/-! DEFINITION. What is claimed of the DMA engine: its admin commands (R405 to R418), its descriptors and chunks (R408 to
R416). -/

namespace Sys2Proof.Claims

open Machine

/-! ### Channels (R404 to R407, R416, R418) -/

/-- R404, R407: a channel of function 0 of a host port, STOPPED, with one job slot, without endpoint and interrupts. -/
noncomputable def dmaChCreate (c : AdminCtx) (ch h slotA ring n ord tc prio : Nat) : Completion :=
  served (.dmaChCreate c ch h slotA 0xFFFF ring n (2 ^ 32 - 1) ord tc prio 0xFFFF 0 0 0) c 0x0C01 0
    (fun d => decide (ch < 64) && !absentPort d h && decide (ord ≤ 15) && decide (tc ≤ 3) && decide (prio ≤ 3) && (dmaCh? d ch).isNone
      && (slot? d slotA).any (fun s => decide (s.f = mkFunc h 0)) && ring % 4096 == 0 && decide (3 ≤ n) && decide (n ≤ 16))
    (fun _ => [])
    (fun d =>
      let x : DmaCh := { f := mkFunc h 0, slotA := slotA, slotB := none, ring := ring, n := n, ep := none, ord := ord, tc := tc
                         prio := prio, vector := none, half := false, full := false, err := false, state := 0 }
      { d with dma := { d.dma with chs := mset d.dma.chs ch x } })

/-- R408, R418: a target of a STOPPED channel. -/
noncomputable def dmaChTargetSet (c : AdminCtx) (ch t da ep rkey : Nat) : Completion :=
  served (.dmaChTargetSet c ch t da ep rkey) c 0x0C02 0
    (fun d => (dmaCh? d ch).any (fun x => x.state == 0) && decide (t ≤ 15) && decide (da < 2 ^ 17) && decide (ep < 2 ^ 20))
    (fun _ => []) (updCh ch (fun x => { x with targets := mset x.targets t (da, ep, rkey) }))

/-- R405: a STOPPED channel runs. -/
noncomputable def dmaChStart (c : AdminCtx) (ch : Nat) : Completion :=
  served (.dmaChStart c ch) c 0x0C03 0 (fun d => (dmaCh? d ch).any (fun x => x.state == 0)) (fun _ => [])
    (updCh ch (fun x => { x with state := 1, tail := x.head }))

/-- R405: a RUNNING channel without accepted descriptors stops, and forgets the scan that it may be making. -/
noncomputable def dmaChStop (c : AdminCtx) (ch : Nat) : Completion :=
  served (.dmaChStop c ch) c 0x0C04 0 (fun d => (dmaCh? d ch).any (fun x => x.state == 1 && x.jobs.isEmpty)) (fun _ => [])
    (updCh ch (fun x => { x with state := 0, stop := none, scan := none, again := false }))

/-- R405: a channel that does not run starts afresh. -/
noncomputable def dmaChReset (c : AdminCtx) (ch : Nat) : Completion :=
  served (.dmaChReset c ch) c 0x0C05 0 (fun d => (dmaCh? d ch).any (fun x => x.state != 1 && x.stop.isNone)) (fun _ => [])
    (updCh ch (fun x => { x with state := 0, cause := 0, head := 0, tail := 0, jobs := [], scan := none, again := false }))

/-- R405: a channel that does not run is destroyed. -/
noncomputable def dmaChDestroy (c : AdminCtx) (ch : Nat) : Completion :=
  served (.dmaChDestroy c ch) c 0x0C06 0 (fun d => (dmaCh? d ch).any (fun x => x.state != 1)) (fun _ => [])
    (fun d => { d with dma := { d.dma with chs := mdel d.dma.chs ch } })

/-- R405, R418: what DMA_CH_QUERY gives: CH_STATE, the settings and the sixteen targets, none where there is none. -/
noncomputable def dmaChQuery (c : AdminCtx) (ch : Nat) : Effect :=
  queried (.dmaChQuery c ch) c 0x0C07 232 (fun d => (dmaCh? d ch).isSome)
    (fun d data => ∀ x, dmaCh? d ch = some x →
      let no : Nat := 2 ^ 32 - 1
      let one (i : Nat) : List (Nat × Nat) := match mget x.targets i with
        | none => [(4, no), (4, no), (4, no)]
        | some (da, e, k) => [(4, da), (4, e), (4, k)]
      data = packVals ([(4, x.state + x.prio * 4 + dmaInflight x * 16 + 128 + x.cause * 256 + (x.head % 2 ^ x.n) * 2 ^ 16), (1, x.f.hp.val),
        (2, x.slotA), (2, x.slotB.getD 0xFFFF), (8, x.ring), (1, x.n), (4, x.ep.getD no), (1, x.ord), (1, x.tc), (2, x.vector.getD 0xFFFF),
        (1, b2n x.half), (1, b2n x.full), (1, b2n x.err)] ++ (List.range 16).flatMap one))

/-- R416: the priority of a channel. -/
noncomputable def dmaChPrioSet (c : AdminCtx) (ch prio : Nat) : Completion :=
  served (.dmaChPrioSet c ch prio) c 0x0C08 0 (fun d => (dmaCh? d ch).isSome && decide (prio ≤ 3)) (fun _ => [])
    (updCh ch (fun x => { x with prio := prio }))

/-! ### Descriptors (R408, R411) -/

/-- The next descriptor of a channel may begin and is of a kind: the channel runs, fewer than four descriptors are in
progress and none of them is a barrier (R411, R412). -/
def mayBegin (d : Dev) (ch op : Nat) : Bool :=
  !frozen d && (dmaCh? d ch).any (fun x => dmaMayBegin x
    && (x.jobs.find? (fun j => !j.begun)).any (fun j => jOp j.desc == op && j.status == 0 && j.out == 0 && j.next == 0 && j.op.isNone && jLen j.desc != 0
      && decide (x.jobs.find? (fun k => k.id == j.id) = some j)))

/-- The descriptor that a channel begins next. -/
def nextJob (d : Dev) (ch : Nat) : DmaJob := (((dmaCh? d ch).bind (fun x => x.jobs.find? (fun j => !j.begun))).getD { id := 0, pos := 0, desc := [] })

/-- R411: a descriptor has begun: HEAD counts it. -/
def jobBegun (ch : Nat) (d : Dev) : Dev :=
  updJob ch (nextJob d ch).id (fun j => { j with begun := true }) (updCh ch (fun x => { x with head := x.head + 1 }) d)

/-- R408, R411: a COPY begins; its chunks are moved as the engine serves them (R416). -/
noncomputable def dmaCopy (ch : Fin 64) : Completion := { cmd := .dmaCopy ch, pre := fun d => mayBegin d ch 0, post := jobBegun ch }

/-- R408, R411: a PEAT_READ of a range of the store begins. -/
noncomputable def dmaPeatRead (ch : Fin 64) : Completion :=
  { cmd := .dmaPeatRead ch, pre := fun d => mayBegin d ch 3 && !dmaPeatBad (nextJob d ch).desc, post := jobBegun ch }

/-- R408, R411: a PEAT_WRITE of a range that host software may use begins. -/
noncomputable def dmaPeatWrite (ch : Fin 64) : Completion :=
  { cmd := .dmaPeatWrite ch, pre := fun d => mayBegin d ch 4 && !dmaPeatBad (nextJob d ch).desc, post := jobBegun ch }

/-- R408: a PUT or GET begins: it has an operation of the channel's endpoint to its target, which waits for the engine. -/
def remoteBegun (ch : Nat) (code : Nat) (d d' : Dev) : Prop :=
  ∀ x, dmaCh? d ch = some x → ∃ o : Op, op? d' d.xp.nextOp = some o ∧ o.owner = .dma ch (nextJob d ch).id ∧ o.code = code ∧ o.state = .waiting
    ∧ o.ep = x.ep.getD 0 ∧ (o.dst, o.dstEp, dRkey o.desc) = (mget x.targets (jTarget (nextJob d ch).desc)).getD (0, 0, 0)
    ∧ o.len = jLen (nextJob d ch).desc ∧ d'.dma = (updJob ch (nextJob d ch).id (fun j => { j with op := some d.xp.nextOp }) (jobBegun ch d)).dma

/-- What a PUT or GET rests on: nothing of the channel's endpoint makes its state lag, and RKEYs have 32 bits. -/
def mayBeginRemote (d : Dev) (ch op : Nat) : Bool :=
  mayBegin d ch op && (dmaCh? d ch).any (fun x => decide (((mget x.targets (jTarget (nextJob d ch).desc)).getD (0, 0, 0)).2.2 < 2 ^ 32))

/-- R408: a PUT begins. -/
noncomputable def dmaPut (ch : Fin 64) : Effect :=
  { cmd := .dmaPut ch, pre := fun d => mayBeginRemote d ch 1, post := fun d d' => remoteBegun ch 1 d d' }

/-- R408: a GET begins. -/
noncomputable def dmaGet (ch : Fin 64) : Effect :=
  { cmd := .dmaGet ch, pre := fun d => mayBeginRemote d ch 2, post := fun d d' => remoteBegun ch 3 d d' }

/-! ### The engine (R416) -/

/-- R416: the engine serves the channel that is due one chunk of a COPY: at most 4 KiB and within 4 KiB of either address; a
chunk whose source a segment translates is read, and the channel is the last that its level served. -/
noncomputable def dmaChunkSelect (ch id bus : Nat) : Effect :=
  let n (j : DmaJob) : Nat := min (jLen j.desc - j.next)
    (min (4096 - (jSrc j.desc + j.next) % 4096) (4096 - (jDst j.desc + j.next) % 4096))
  { cmd := .dmaChunkSelect
    pre := fun d => !frozen d && (match dmaSelect d with
      | none => false
      | some (k, x) => k == ch && (match dmaWork d x with
        | none => false
        | some j => j.id == id && j.op.isNone && jOp j.desc == 0 && decide (jSrc j.desc + j.next < 2 ^ 48) && decide (bus % 4096 = (jSrc j.desc + j.next) % 4096)
          && decide (n j ≤ (fn d (pf (dmaSide d x (jSrcB j.desc)).2.hp)).mrrs) && canRead d (dmaSide d x (jSrcB j.desc)).2 1
          && decide (outstanding d (dmaSide d x (jSrcB j.desc)).2.hp < 768)
          && (match slot? d (dmaSide d x (jSrcB j.desc)).1 with
            | none => false
            | some s => !hitsBar d (dmaSide d x (jSrcB j.desc)).2.hp bus (n j)
              && decide (segHit s ((jSrc j.desc + j.next) / 4096 * 4096) = some ⟨bus - bus % 4096, true, true, true, 4096, 0, 1⟩))))
    post := fun d d' => ∀ x j, dmaCh? d ch = some x → dmaWork d x = some j →
      leaves d d' (.hostRead (dmaSide d x (jSrcB j.desc)).2 (d.nextReq * 8 + (dmaSide d x (jSrcB j.desc)).2.hp.val) bus (n j))
        ∧ d'.dma = { (updJob ch id (fun y => { y with next := y.next + n j, out := y.out + 1 }) d).dma with last := lset d.dma.last x.prio ch } }

/-! ### Kicks (R405, R409, R421) -/

/-- R409: a kick of a channel that does not run, or of another function's, is discarded and counted. -/
noncomputable def dmaKickOff (f : Func) (ch : Fin 64) : Completion :=
  { cmd := .dmaKick (.host f) ch
    pre := fun d => windowOpen d (.host f) && !(dmaCh? d ch).any (fun x => x.state == 1 && x.stop.isNone && decide (f = x.f)) && roomFor d (DMA + 0x318) 1
    post := count (DMA + 0x318) }

/-- R72, R409: a kick during a scan asks for one more. -/
noncomputable def dmaKick (f : Func) (ch : Fin 64) : Completion :=
  { cmd := .dmaKick (.host f) ch
    pre := fun d => windowOpen d (.host f) && !frozen d
      && (dmaCh? d ch).any (fun x => x.state == 1 && x.stop.isNone && decide (f = x.f) && x.scan.isSome)
    post := updCh ch (fun x => { x with again := true }) }

end Sys2Proof.Claims
end

