-- ==== Sys2Proof/Claims/Endpoint.lean ====
section
/-! DEFINITION. What is claimed of the endpoint, queue and translation admin commands (R92, R93, R116). -/

namespace Sys2Proof.Claims

open Machine

/-! ### Endpoint blocks and endpoints (R56, R59 to R64, R92) -/

/-- R92: an unassigned block is assigned to an existing function, a job and a 16 KiB backing area outside the BARs. -/
noncomputable def epBlockAssign (c : AdminCtx) (b h v job backing : Nat) : Completion :=
  served (.epBlockAssign c b h v job backing) c 0x0201 0
    (fun d => decide (b < 16384) && funcExists d h v && busOk backing 16384 && !hitsBar d h backing 16384 && !mhas d.ept.blocks b)
    (fun _ => [])
    (fun d => { d with ept := { d.ept with blocks := mset d.ept.blocks b { f := mkFunc h v, job := job, backing := backing } } })

/-- R92: a block without endpoints is released. -/
noncomputable def epBlockRelease (c : AdminCtx) (b : Nat) : Completion :=
  served (.epBlockRelease c b) c 0x0202 0
    (fun d => mhas d.ept.blocks b && d.ept.eps.all (fun p => p.1 / 64 != b))
    (fun _ => []) (fun d => { d with ept := { d.ept with blocks := mdel d.ept.blocks b } })

/-- R64, R79, R85, R88, R92: the endpoint that EP_CREATE makes, in RESET and resident. -/
def newEp (d : Dev) (typ sBase sN rBase rN sCq rCq eq pin poll : Nat) : Ep :=
  { typ := typ, send := { base := sBase, n := sN }
    recv := if noRing rBase rN then none else some { base := rBase, n := rN }
    sCq := sCq, rCq := rCq, eq := eq, pin := pin == 1, poll := poll == 1, used := d.clk }

/-- R59, R64, R79, R85, R88, R92: an endpoint of an assigned block comes to exist, where its rings, queues, type and
options are in range and the bounds on pinned and polled endpoints leave room. -/
noncomputable def epCreate (c : AdminCtx) (e typ sBase sN rBase rN sCq rCq eq pin poll : Nat) : Completion :=
  served (.epCreate c e typ sBase sN rBase rN sCq rCq eq pin poll) c 0x0210 0
    (fun d => (blockOf d e).any (fun b =>
      decide (e < 2 ^ 20) && decide (typ ≤ 1) && !ringBad sBase sN && (noRing rBase rN || !ringBad rBase rN) && decide (pin ≤ 1)
        && decide (poll ≤ 1) && cqOf d sCq b.f && cqOf d rCq b.f && (eq? d b.f 0).isSome && (eq? d b.f eq).isSome)
      && (ep? d e).isNone && (pin == 0 || decide (pinnedCount d < 49152))
      && (poll == 0 || decide ((d.ept.eps.filter (fun p => p.2.poll)).length < 4096)) && decide (residentCount d < 65536)
      && !d.xp.recvRecs.any (fun p => decide (p.1.ep = e)))
    (fun _ => [])
    (fun d => { d with ept := { d.ept with eps := mset d.ept.eps e (newEp d typ sBase sN rBase rN sCq rCq eq pin poll) } })

/-- R61: an endpoint in RESET becomes READY. -/
noncomputable def epEnable (c : AdminCtx) (e : Nat) : Completion :=
  served (.epEnable c e) c 0x0211 0 (fun d => (ep? d e).any (fun x => x.state == .reset && !epBusy d e x))
    (fun _ => []) (updEp e (fun x => { x with state := .ready }))

/-- R61, R92: an ACTIVE endpoint with operations outstanding becomes DRAINING. -/
noncomputable def epDisable (c : AdminCtx) (e : Nat) : Completion :=
  served (.epDisable c e) c 0x0212 0 (fun d => (ep? d e).any (fun x => x.state == .active))
    (fun _ => []) (updEp e (fun x => { x with state := .draining, bellPend := false }))

/-- R61, R64: what RESET leaves of a ring and of an endpoint. -/
def clearRing (r : Ring) : Ring := { base := r.base, n := r.n, scans := r.scans }

def clearEp (x : Ep) : Ep :=
  { x with state := .reset, send := clearRing x.send, recv := x.recv.map clearRing, newRecv := [], recvs := [], cause := 0, latched := none }

/-- R61: an endpoint in ERROR whose FLUSHED completions have been written returns to RESET, here where no peer must be
told of it (R63). -/
noncomputable def epReset (c : AdminCtx) (e : Nat) : Completion :=
  served (.epReset c e) c 0x0213 0
    (fun d => (ep? d e).any (fun x => x.state == .error) && !flushPending d e && gonePeers d e == [] && (mctx? d e).isNone
      && !d.mt.msgs.any (fun p => decide (p.2.ep = e)))
    (fun _ => []) (updEp e clearEp)

/-- R61, R204: an endpoint in RESET is destroyed with its counter bindings, here where no peer must be told of it, it has
no matching context and no strand is parked for it. -/
noncomputable def epDestroy (c : AdminCtx) (e : Nat) : Completion :=
  served (.epDestroy c e) c 0x0214 0
    (fun d => (ep? d e).any (fun x => x.state == .reset) && gonePeers d e == [] && (mctx? d e).isNone
      && !d.mt.msgs.any (fun p => decide (p.2.ep = e)) && d.ept.parked.all (fun p => p.rx.st.hdr.dstEp.toNat != e))
    (fun _ => [])
    (fun d => { d with
      ept := { d.ept with eps := mdel d.ept.eps e }
      coll := { d.coll with binds := d.coll.binds.filter (fun p => p.1 / 2 != e) } })

/-- R92: the state, the cause, the latched index, the heads and passes of the rings and the residency. -/
noncomputable def epQuery (c : AdminCtx) (e : Nat) : Effect :=
  queried (.epQuery c e) c 0x0215 24 (fun d => (ep? d e).isSome)
    (fun d data => ∃ x, ep? d e = some x ∧ data = packVals
      [(1, x.state.code), (1, x.cause), (2, (x.latched.map (· % 2 ^ 16)).getD 0xFFFF), (2, x.send.head % 2 ^ x.send.n),
       (4, x.send.head / 2 ^ x.send.n % 2 ^ 32), (2, (x.recv.map (fun r => r.head % 2 ^ r.n)).getD 0xFFFF),
       (4, (x.recv.map (fun r => r.head / 2 ^ r.n % 2 ^ 32)).getD 0xFFFFFFFF), (1, b2n x.resident)])

/-! ### Queues (R79 to R86, R92, R93) -/

/-- R79, R84, R92: a completion queue comes to exist, empty, as its parameters say. -/
noncomputable def cqCreate (c : AdminCtx) (cq f base n head eq arm whole : Nat) : Completion :=
  served (.cqCreate c cq f base n head eq arm whole) c 0x0220 0
    (fun d => funcExists d (f / 32) (f % 32) && busOk base 4096 && decide (6 ≤ n) && decide (n ≤ 20) && busOk head 4 && decide (arm ≤ 1)
      && decide (whole ≤ 1) && (eq? d (byteFunc f) 0).isSome && (noneOf 2 eq).all (fun q => (eq? d (byteFunc f) q).isSome)
      && (cq? d cq).isNone && decide (pinnedCount d < 49152) && decide (residentCount d < 65536))
    (fun _ => [])
    (fun d =>
      let x : Cq := { f := byteFunc f, base := base, n := n, head := head, eq := noneOf 2 eq, armed := arm == 1, whole := whole == 1 }
      { d with ept := { d.ept with cqs := mset d.ept.cqs cq x } })

/-- R93: a queue none of whose endpoints runs is empty again and out of its error. -/
noncomputable def cqReset (c : AdminCtx) (cq : Nat) : Completion :=
  served (.cqReset c cq) c 0x0221 0
    (fun d => (cq? d cq).isSome && (epsOfCq d cq).all (fun e => (ep? d e).all (fun x => x.state == .reset || x.state == .error)))
    (fun _ => []) (updCq cq (fun x => { x with wr := 0, cached := 0, error := false, reading := false, waiting := [] }))

/-- R92: a queue without endpoints is destroyed. -/
noncomputable def cqDestroy (c : AdminCtx) (cq : Nat) : Completion :=
  served (.cqDestroy c cq) c 0x0222 0 (fun d => (cq? d cq).isSome && epsOfCq d cq == [])
    (fun _ => []) (fun d => { d with ept := { d.ept with cqs := mdel d.ept.cqs cq } })

/-- R85, R86, R92: an event queue of a function comes to exist; EQ 0 before the others. -/
noncomputable def eqCreate (c : AdminCtx) (f q base n head vector count time : Nat) : Completion :=
  served (.eqCreate c f q base n head vector count time) c 0x0230 0
    (fun d => funcExists d (f / 32) (f % 32) && busOk base 4096 && decide (6 ≤ n) && decide (n ≤ 16) && busOk head 4
      && decide (1 ≤ count) && decide (count ≤ 255) && decide (time ≤ 1023) && (q == 0 || (eq? d (byteFunc f) 0).isSome)
      && (eq? d (byteFunc f) q).isNone && decide (vector < vectorsOf d (byteFunc f)) && decide (pinnedCount d < 49152)
      && decide (residentCount d < 65536))
    (fun _ => [])
    (fun d =>
      let x : Eq := { base := base, n := n, head := head, vector := vector, modCount := count, modTime := time }
      updFn (byteFunc f) (fun y => { y with eqs := mset y.eqs q x }) d)

/-- R86: the moderation of an event queue is set. -/
noncomputable def eqModerate (c : AdminCtx) (f q count time : Nat) : Completion :=
  served (.eqModerate c f q count time) c 0x0231 0
    (fun d => (eq? d (byteFunc f) q).isSome && decide (1 ≤ count) && decide (count ≤ 255) && decide (time ≤ 1023))
    (fun _ => []) (updEq (byteFunc f) q (fun x => { x with modCount := count, modTime := time }))

/-- R92: an event queue that no CQ and no endpoint names is destroyed; EQ 0 after the others. -/
noncomputable def eqDestroy (c : AdminCtx) (f q : Nat) : Completion :=
  served (.eqDestroy c f q) c 0x0232 0
    (fun d => (eq? d (byteFunc f) q).isSome && d.ept.cqs.all (fun x => decide (x.2.f ≠ byteFunc f) || decide (x.2.eq ≠ some q))
      && d.ept.eps.all (fun x => decide (x.2.eq ≠ q) || decide (epFunc d x.1 ≠ some (byteFunc f)))
      && (q != 0 || (fn d (byteFunc f)).eqs.all (fun p => p.1 == 0)))
    (fun _ => []) (updFn (byteFunc f) (fun y => { y with eqs := mdel y.eqs q }))

/-! ### Translation (R94 to R116) -/

/-- R94, R113, R116: a job slot comes to exist under a number that was free, and the reply names it. -/
noncomputable def jobSlotCreate (c : AdminCtx) (job h v root mrBase m : Nat) : Effect :=
  { cmd := .jobSlotCreate c job h v root mrBase m
    pre := fun d => byMailbox (.jobSlotCreate c job h v root mrBase m) c 0 d && funcExists d h v && decide (d.xl.slots.length < 4096)
      && (slotOf d job (mkFunc h v)).isNone && busOk root 4096 && busOk mrBase 4096 && decide (4 ≤ m) && decide (m ≤ 24)
    post := fun d d' => ∃ s n, s < 4096 ∧ slot? d s = none ∧ d' = replyOut c 0x0301 0 0 (toLe 2 s) { d with
      free := n, xl := { d.xl with slots := mset d.xl.slots s { job := job, f := mkFunc h v, root := root, mrBase := mrBase, m := m } } } }

/-- Nothing of a slot is in use: no access, no walk, no invalidation and no read of host memory is in progress. -/
def xlatQuiet (d : Dev) : Bool :=
  d.xl.accs == [] && d.xl.inst.all (fun p => p.2.walks == []) && d.xl.invals == [] && d.reads == []

/-- Drops what a test selects from every ATC and walk cache. -/
def dropCached (atc : AtcEntry → Bool) (wc : WalkEnt → Bool) (d : Dev) : Dev :=
  { d with xl := { d.xl with inst := d.xl.inst.map (fun p => (p.1, { p.2 with
      atc := p.2.atc.filter (fun e => !atc e.2), wc := p.2.wc.filter (fun e => !wc e) })) } }

/-- R116: a slot that no block uses is destroyed with what is cached of it, here where nothing else is bound to it. -/
noncomputable def jobSlotDestroy (c : AdminCtx) (s : Nat) : Completion :=
  served (.jobSlotDestroy c s) c 0x0302 0
    (fun d => (slot? d s).any (fun x => d.ept.blocks.all (fun b => decide (b.2.job ≠ x.job) || decide (b.2.f ≠ x.f)))
      && d.clasp.domains.all (fun p => p.2.slot != s) && d.coll.groups.all (fun p => p.2.slot != s)
      && d.coll.ranges.all (fun p => p.2.slot != s) && d.dma.chs == [])
    (fun _ => [])
    (fun d => dropCached (fun e => e.slot == s) (fun e => e.slot == s) { d with xl := { d.xl with
      slots := mdel d.xl.slots s, regions := d.xl.regions.filter (fun e => e.1.1 != s) } })

/-- R111, R116: the root is set and everything cached of the slot is dropped. -/
noncomputable def rootSet (c : AdminCtx) (s root : Nat) : Completion :=
  served (.rootSet c s root) c 0x0303 0 (fun d => (slot? d s).isSome && busOk root 4096 && xlatQuiet d)
    (fun _ => [])
    (fun d => dropCached (fun e => e.slot == s) (fun e => e.slot == s) { d with xl := { d.xl with
      slots := mupd d.xl.slots s (fun x => { x with root := root })
      regions := d.xl.regions.filter (fun e => e.1.1 != s), regionReads := d.xl.regionReads.filter (fun e => e.1 != s) } })

/-- R96, R97: a segment is set; a valid one lies in its bounds and overlaps no other valid one and no BAR. -/
noncomputable def segSet (c : AdminCtx) (s g iova size bus ctl rsv : Nat) : Completion :=
  served (.segSet c s g iova size bus ctl rsv) c 0x0310 0
    (fun d => (slot? d s).any (fun x => !bitOf ctl 0 || (!segBad iova size bus && !hitsBar d x.f.hp bus size
        && x.segs.zipIdx.all (fun q => q.2 == g || !q.1.v || !overlaps q.1.iova q.1.size iova size)))
      && decide (g < 8) && decide (ctl < 16) && rsv == 0 && xlatQuiet d)
    (fun _ => [])
    (fun d =>
      let y : Segment :=
        { iova := iova, size := size, bus := bus, v := bitOf ctl 0, r := bitOf ctl 1, w := bitOf ctl 2, a := bitOf ctl 3 }
      { d with xl := { d.xl with slots := mupd d.xl.slots s (fun x => { x with segs := lset x.segs g y }) } })

/-- The test of R110 for an ATC entry and a walk-cache entry of a slot: do they touch a range. -/
def atcIn (s iova len : Nat) (e : AtcEntry) : Bool := decide (e.slot = s) && overlaps e.iova e.size iova len
def wcIn (s iova len : Nat) (e : WalkEnt) : Bool :=
  decide (e.slot = s) && overlaps (e.tag <<< (12 + 9 * e.level)) (2 ^ (12 + 9 * e.level)) iova len

/-- R110, R111: the leaves of a range are dropped, with SCOPE 1 the walk-cache entries as well. -/
noncomputable def xlatInvalidate (c : AdminCtx) (s iova pages scope : Nat) : Completion :=
  served (.xlatInvalidate c s iova pages scope) c 0x0320 0
    (fun d => (slot? d s).isSome && iova % 4096 == 0 && decide (1 ≤ pages) && decide (pages ≤ 2 ^ 36) && decide (scope ≤ 1)
      && decide (iova + pages * 4096 ≤ 2 ^ 48) && xlatQuiet d)
    (fun _ => []) (dropCached (atcIn s iova (pages * 4096)) (fun e => scope == 1 && wcIn s iova (pages * 4096) e))

/-- R111, R116: everything cached of a slot's pages is dropped. -/
noncomputable def xlatInvalidateSlot (c : AdminCtx) (s : Nat) : Completion :=
  served (.xlatInvalidateSlot c s) c 0x0321 0 (fun d => (slot? d s).isSome && xlatQuiet d)
    (fun _ => []) (dropCached (atcIn s 0 (2 ^ 48)) (wcIn s 0 (2 ^ 48)))

/-- R114: a cached memory-region entry is dropped. -/
noncomputable def mrInvalidate (c : AdminCtx) (s r : Nat) : Completion :=
  served (.mrInvalidate c s r) c 0x0330 0 (fun d => (slot? d s).any (fun x => r != 0 && decide (r < 2 ^ x.m)) && xlatQuiet d)
    (fun _ => [])
    (fun d => { d with xl := { d.xl with
      regions := d.xl.regions.filter (fun e => e.1 != (s, r)), regionReads := d.xl.regionReads.filter (fun e => e != (s, r)) } })

end Sys2Proof.Claims
end

