-- ==== Sys2Proof/Claims/Fabric.lean ====
section
/-! DEFINITION. What is claimed of the admin commands of Braids, schedulers, ports and routes (R270, R299). -/

namespace Sys2Proof.Claims

open Machine

/-! ### Braids (R250 to R253, R270) -/

/-- R270: what BRAID_QUERY gives of a Braid; times are cut to 31 bits. -/
noncomputable def braidQuery (c : AdminCtx) (da vn : Nat) : Effect :=
  queried (.braidQuery c da vn) c 0x0701 32 (fun d => decide (da < 2 ^ 17) && !isSelf d da && decide (vn ≤ 1))
    (fun d data =>
      let p := peer d da
      let s := sendHalf p (vn == 1)
      let r := recvHalf p (vn == 1)
      let most (v : Nat) : Nat := min v (2 ^ 31 - 1)
      data = packVals [(1, p.state.code), (1, p.txGen.getD 0), (1, p.rxGen), (1, b2n r.synced), (4, (s.srtt.map most).getD (2 ^ 32 - 1)),
        (4, most (rto d s)), (2, s.rate), (2, s.alpha), (4, most ((d.clk : Int) - s.lastCut).toNat), (4, s.unacked.length),
        (1, b2n r.window), (4, peerStreams d da)])

/-- R251, R252, R255: RATE and ALPHA of a Braid are set; a RATE other than 10 ends the rate-floor condition. -/
noncomputable def braidRateSet (c : AdminCtx) (da vn rate alpha : Nat) : Completion :=
  served (.braidRateSet c da vn rate alpha) c 0x0702 0
    (fun d => decide (da < 2 ^ 17) && !isSelf d da && decide (vn ≤ 1) && decide (10 < rate) && decide (rate ≤ 4000) && decide (alpha ≤ 1024))
    (fun _ => [])
    (updSend da (vn == 1) (fun s => { s with rate := rate, alpha := alpha, floorSince := none, floorRaised := false }))

/-! ### Shapers and queues (R259 to R268) -/

/-- R263: a shaper with its settings as a command leaves them: its tokens start again if RATE or BURST changes, at 0 with
RESET_MODE 1 and full with 0. -/
def shaperSet (s : Shaper) (rate burst mode : Nat) (again : Bool) (now : Nat) : Shaper :=
  if again = true ∨ s.rate ≠ rate ∨ s.burst ≠ burst then
    { rate := rate, burst := burst, zero := mode == 1, tokens := if mode = 1 then 0 else (burst * 256 : Nat) * 100000, t0 := now }
  else { s with zero := mode == 1 }

/-- R263: settings of a shaper in range. -/
def shaperOk (rate burst mode : Nat) : Bool := decide (rate ≤ 40000) && decide (1 ≤ burst) && decide (burst ≤ 4095) && decide (mode ≤ 1)

/-- R263: weight and shaper of a weighted queue of a fabric port (OSCH.Q) or of a host port's injection point. -/
noncomputable def schedQueueSet (c : AdminCtx) (t q weight rate burst mode : Nat) : Completion :=
  served (.schedQueueSet c t q weight rate burst mode) c 0x0710 0
    (fun d => !noTarget d t && decide (q % 4 ≠ 0) && decide (q < 8) && decide (1 ≤ weight) && shaperOk rate burst mode)
    (fun _ => [])
    (fun d =>
      let set (l : List Shaper) : List Shaper := lset l q (shaperSet (lget l q {}) rate burst mode false d.clk)
      if t < 128 then
        let a := OSCH t + 0x040 + 8 * q
        updPort t (fun p => { p with out := { p.out with qshape := set p.out.qshape } })
          (setFld a 36 1 mode (setFld a 24 12 burst (setFld a 8 16 rate (setFld a 0 8 weight d))))
      else updHost (t - 128) (fun h => { h with weights := lset h.weights q weight, inj := { h.inj with qshape := set h.inj.qshape } }) d)

/-- R263: the shaper and OVERHEAD of a fabric port (OSCH.SHAPE) or of a host port's injection point. -/
noncomputable def schedPortShapeSet (c : AdminCtx) (t rate burst overhead mode : Nat) : Completion :=
  served (.schedPortShapeSet c t rate burst overhead mode) c 0x0711 0 (fun d => !noTarget d t && shaperOk rate burst mode)
    (fun _ => [])
    (fun d =>
      if t < 128 then
        let a := OSCH t + 0x020
        let old := fld d a 28 8
        updPort t (fun p => { p with out := { p.out with pshape := shaperSet p.out.pshape rate burst mode (old != overhead) d.clk } })
          (setFld a 36 1 mode (setFld a 28 8 overhead (setFld a 16 12 burst (setFld a 0 16 rate d))))
      else updHost (t - 128) (fun h => { h with
        overhead := overhead, inj := { h.inj with pshape := shaperSet h.inj.pshape rate burst mode (h.overhead != overhead) d.clk } }) d)

/-- R247: the marking thresholds of a queue of a fabric port (OSCH.MARK) or of a host port's landing queue. -/
noncomputable def schedMarkSet (c : AdminCtx) (t q kmin kmax pmax : Nat) : Completion :=
  served (.schedMarkSet c t q kmin kmax pmax) c 0x0712 0
    (fun d => !noTarget d t && decide (q < 8) && decide (kmin ≤ kmax) && decide (kmax ≤ 4095))
    (fun _ => [])
    (fun d =>
      if t < 128 then
        let a := OSCH t + 0x080 + 4 * q
        setFld a 24 8 pmax (setFld a 12 12 kmax (setFld a 0 12 kmin d))
      else updHost (t - 128) (fun h => { h with mark := lset ((List.range 8).map (landMark h)) q (kmin, kmax, pmax) }) d)

/-- R268: a histogram is given its queue (8: every queue) and its bins are cleared. -/
noncomputable def schedHistSelect (c : AdminCtx) (t q : Nat) : Completion :=
  served (.schedHistSelect c t q) c 0x0713 0 (fun d => !noTarget d t && decide (q ≤ 8))
    (fun _ => [])
    (fun d =>
      if t < 128 then (List.range 16).foldl (fun d i => setReg (OSCH t + 0x200 + 8 * i) 0 d) (setFld (OSCH t + 0x028) 0 4 q d)
      else updHost (t - 128) (fun h => { h with histSel := q, hist := [] }) d)

/-- R263, R264: a shaping group of a host port that is present is set. -/
noncomputable def shapeGroupSet (c : AdminCtx) (hp g rate burst mode : Nat) : Completion :=
  served (.shapeGroupSet c hp g rate burst mode) c 0x0720 0 (fun d => !absentPort d hp && shaperOk rate burst mode)
    (fun _ => [])
    (fun d => updHost hp (fun h => { h with groups := mset h.groups g (shaperSet (groupOf h g) rate burst mode false d.clk) }) d)

/-- R264: an endpoint is bound to a shaping group. -/
noncomputable def shapeGroupBind (c : AdminCtx) (e g : Nat) : Completion :=
  served (.shapeGroupBind c e g) c 0x0721 0 (fun d => (ep? d e).isSome) (fun _ => []) (updEp e (fun x => { x with group := g }))

/-- R267, R268: minimum, mean and maximum depth of each queue, the 16 bins of the histogram and its selection. -/
noncomputable def schedStatsRead (c : AdminCtx) (t : Nat) : Effect :=
  queried (.schedStatsRead c t) c 0x0730 225 (fun d => !noTarget d t)
    (fun d data => ∃ (ds : List (Nat × Nat × Nat)) (bins : List Nat) (sel : Nat),
      data = packVals (ds.flatMap (fun x => [(4, x.1), (4, x.2.1), (4, x.2.2)]) ++ bins.map (fun b => (8, b)) ++ [(1, sel)])
        ∧ ds = (List.range 8).map (fun q =>
            if t < 128 then (fld d (OSCH t + 0x100 + 8 * q) 0 20, fld d (OSCH t + 0x100 + 8 * q) 20 20, fld d (OSCH t + 0x100 + 8 * q) 40 20)
            else lget (host d (t - 128)).depth q (0, 0, 0))
        ∧ bins = (List.range 16).map (fun i => if t < 128 then fld d (OSCH t + 0x200 + 8 * i) 0 48 else lget (host d (t - 128)).hist i 0)
        ∧ sel = if t < 128 then fld d (OSCH t + 0x028) 0 4 else (host d (t - 128)).histSel)

/-! ### Address and ports (R27, R30, R278, R296 to R299) -/

/-- R30, R299: while no port of role LOCAL or GLOBAL is in service the device takes its DA. RTR does not wait for it to be
enabled (R298). -/
noncomputable def deviceDaSet (c : AdminCtx) (da persist : Nat) : Completion :=
  served (.deviceDaSet c da persist) c 0x0801 0
    (fun d => decide (da < 2 ^ 17) && mayPersist d persist 0 && d.ports.all (fun p => decide (2 ≤ p.2.role) || p.2.state == 0) && !d.rtr.autoEnable)
    (fun _ => []) (fun d => kept persist 0 (fun _ => [da]) { d with rtr := { d.rtr with da := da, daValid := true } })

/-- R27: the role of a port in service is held for its next bring-up. -/
noncomputable def portRoleSet (c : AdminCtx) (n role persist : Nat) : Completion :=
  served (.portRoleSet c n role persist) c 0x0802 0
    (fun d => decide (n < 128) && decide (role < 4) && mayPersist d persist (0x100 + n) && (port d n).state != 0)
    (fun _ => []) (fun d => kept persist (0x100 + n) (fun _ => [role]) (updPort n (fun p => { p with roleNext := role }) d))

/-- R278, R296: a port in service drains; or, draining, goes back to LEARNING within 64 µs of its entering service and to
ACTIVE after. -/
noncomputable def portDrain (c : AdminCtx) (n on : Nat) : Completion :=
  served (.portDrain c n on) c 0x0803 0
    (fun d => decide (n < 128) && decide (on ≤ 1) && (port d n).state != 0 && (on == 1 || (port d n).state == 3))
    (fun _ => [])
    (fun d => updPort n (fun p => { p with state := if on = 1 then 3 else if d.clk - p.inSince < 64000 then 1 else 2 }) d)

/-- R299: role, next role, state, DIMMED, the trunk, the neighbour, the hints and what is left of LEARNING. -/
noncomputable def portQuery (c : AdminCtx) (n : Nat) : Effect :=
  queried (.portQuery c n) c 0x0804 144 (fun _ => decide (n < 128))
    (fun d data =>
      let p := port d n
      let t := if p.neighbour.isSome then trunkOf d n else []
      data = packVals ([(1, p.role), (1, p.roleNext), (1, p.state), (1, b2n p.dimmed)] ++ (List.range 128).map (fun i => (1, lget t i 0xFF))
        ++ [(4, (p.neighbour.map (·.1)).getD (2 ^ 32 - 1)), (1, (p.neighbour.map (·.2)).getD 0xFF), (1, p.hintReq), (1, p.hintRsp),
            (4, if p.state = 1 then p.inSince + 64000 - d.clk else 0)]))

/-! ### Routes (R276, R287 to R291, R299) -/

/-- R287: an entry of a version is set, and the version is LOADED. -/
def entrySet (ver table ix e : Nat) (d : Dev) : Dev :=
  let put (m : List (Nat × Nat)) (k : Nat) : List (Nat × Nat) := if e = 0 then mdel m k else mset m k e
  let r := d.rtr
  let r := if table = 0 then { r with group := put r.group (ver * 2048 + ix) } else { r with member := put r.member (ver * 64 + ix) }
  { d with rtr := if ver = 0 then { r with loadedA := true } else { r with loadedB := true } }

/-- R290, R291: an image in MBX.DATA that passes the checks is written into its version. -/
noncomputable def routeLoad (c : AdminCtx) (ver image len allow : Nat) : Completion :=
  served (.routeLoad c ver image len allow 0) c 0x0810 0
    (fun d => decide (ver ≤ 1) && decide (allow ≤ 1) && d.rtr.loading == [] && decide (1 ≤ len) && decide (len ≤ 16960)
      && decide (image + len ≤ 0x10000) && (imageReason d ver len (allow == 1) (some (cellsRead d.mnt.data image len))).isNone)
    (fun _ => [])
    (fun d => updRtr (fun r => if ver = 0 then { r with loadedA := true } else { r with loadedB := true })
      (imagePut ver (cellsRead d.mnt.data image len) d))

/-- R287, R291: one entry is set, of a version that is not in use or with ALLOW. -/
noncomputable def routeEntrySet (c : AdminCtx) (ver table ix e allow persist : Nat) : Completion :=
  served (.routeEntrySet c ver table ix e allow persist) c 0x0811 0
    (fun d => !routeIxBad ver table ix && decide (allow ≤ 1) && mayPersist d persist (0x200 + ver) && (ver != b2n d.rtr.inj || allow == 1)
      && !entryBad e && !(ownEntry d table ix && entryHas e))
    (fun _ => []) (fun d => kept persist (0x200 + ver) (versionRecord ver) (entrySet ver table ix e d))

/-- R299: an entry is read. -/
noncomputable def routeEntryRead (c : AdminCtx) (ver table ix : Nat) : Completion :=
  served (.routeEntryRead c ver table ix) c 0x0812 0 (fun _ => !routeIxBad ver table ix) (fun d => toLe 8 (routeGet d ver table ix)) id

/-- R288, R299: a LOADED version becomes the one that EPOCH of injected strands names. -/
noncomputable def routeEpochSet (c : AdminCtx) (ver persist : Nat) : Completion :=
  served (.routeEpochSet c ver persist) c 0x0813 0 (fun d => decide (ver ≤ 1) && loaded d ver && mayPersist d persist 0x300)
    (fun _ => []) (fun d => kept persist 0x300 (fun _ => [ver]) { d with rtr := { d.rtr with inj := ver == 1 } })

/-- R284, R299: the deflection threshold of a queue. -/
noncomputable def routeDeflSet (c : AdminCtx) (n q dth : Nat) : Completion :=
  served (.routeDeflSet c n q dth) c 0x0820 0 (fun _ => decide (n < 128) && decide (q < 8) && decide (1 ≤ dth) && decide (dth < 4096))
    (fun _ => []) (setFld (OSCH n + 0x0A0 + 4 * q) 0 12 dth)

/-- R281, R286, R299: hint weight, dim penalty, seed and age limit. -/
noncomputable def routeParamSet (c : AdminCtx) (hintW dim seed age : Nat) : Completion :=
  served (.routeParamSet c hintW dim seed age) c 0x0821 0 (fun _ => decide (hintW ≤ 31) && decide (1 ≤ age) && decide (age ≤ 4))
    (fun _ => [])
    (fun d => setFld (RTR + 0x034) 0 3 age (setFld (RTR + 0x030) 16 16 seed (setFld (RTR + 0x030) 8 8 dim (setFld (RTR + 0x030) 0 5 hintW d))))

/-- R275, R299: the trim threshold of a host port's landing queues. -/
noncomputable def routeLandSet (c : AdminCtx) (hp th : Nat) : Completion :=
  served (.routeLandSet c hp th) c 0x0822 0 (fun d => !absentPort d hp && th != 0) (fun _ => []) (setFld (RTR + 0x040 + 4 * hp) 0 16 th)

/-- R284, R299: ROUTE_PROBE says which entry routes a header, and the port and kind of the decision. -/
noncomputable def routeProbe (c : AdminCtx) (dst src epoch vn tc entropy det arr : Nat) : Effect :=
  queried (.routeProbe c dst src epoch vn tc entropy det arr) c 0x0830 168
    (fun _ => decide (dst < 2 ^ 17) && decide (src < 2 ^ 17) && decide (epoch ≤ 1) && decide (vn ≤ 1) && decide (tc < 4) && decide (det ≤ 1)
      && (decide (arr < 128) || arr == 0xFF))
    (fun d data =>
      let h : Hdr := { ttl := 1, dstDa := BitVec.ofNat 17 dst, srcDa := BitVec.ofNat 17 src, epoch := epoch == 1, vn := vn == 1
                       tc := BitVec.ofNat 2 tc, entropy := BitVec.ofNat 16 entropy, det := det == 1 }
      let r : Nat × Nat := match decide284 d h (noneOf 1 arr) with
        | .noRoute => (0xFF, 3)
        | .send p => (p, 0)
        | .deflect p => (p, 1)
        | .trim p _ => (p, 2)
      leAt data 0 8 = routeEntry d h % 2 ^ 64 ∧ data.drop (data.length - 3) = toLe 1 r.1 ++ toLe 1 (queueOf h) ++ toLe 1 r.2)

end Sys2Proof.Claims
end

