-- ==== Sys2Proof/Claims/Hosts.lean ====
section
/-! DEFINITION. What is claimed of host ports: their admin commands (R403), their events (R383 to R400), host-loss
processing (R394 to R397). -/

namespace Sys2Proof.Claims

open Machine

/-! ### Admin commands (R373, R382, R386, R392, R403) -/

/-- R403: what HOST_QUERY gives of a host port. -/
noncomputable def hostQuery (c : AdminCtx) (h : Nat) : Effect :=
  queried (.hostQuery c h) c 0x0B01 84 (fun d => !absentPort d h)
    (fun d data =>
      let one (v : Nat) : List (Nat × Nat) :=
        if funcExists d h v then [(1, if (fn d (mkFunc h v)).d3 then 3 else 0), (1, b2n (fn d (mkFunc h v)).msixEn)] else [(1, 0xFF), (1, 0xFF)]
      data = packVals ([(4, hostCfgReg d h), (4, hostVecReg d h), (4, hostLinkReg d h), (4, hostFuncReg d h), (4, hostSlotReg d h)]
        ++ (List.range 32).flatMap one))

/-- R382, R403: the functions and vectors that a host port has from its next reset on. -/
noncomputable def hostFuncConfig (c : AdminCtx) (h vfs pfv vfv persist : Nat) : Completion :=
  served (.hostFuncConfig c h vfs pfv vfv persist) c 0x0B02 0
    (fun d => !absentPort d h && decide (vfs ≤ 31) && decide (1 ≤ pfv) && decide (pfv ≤ 2048) && decide (1 ≤ vfv) && decide (vfv ≤ 2048)
      && decide (pfv + vfs * vfv ≤ 4096) && mayPersist d persist (0x700 + h))
    (fun _ => []) (fun d => kept persist (0x700 + h) (fun _ => [vfs, pfv, vfv]) (updHost h (fun x => { x with nextCfg := some (vfs, pfv, vfv) }) d))

/-- R373: a controller's mode from its next cold reset on. -/
noncomputable def hostSplitSet (c : AdminCtx) (k split persist : Nat) : Completion :=
  served (.hostSplitSet c k split persist) c 0x0B03 0 (fun d => decide (k < 4) && decide (split ≤ 1) && mayPersist d persist (0x710 + k))
    (fun _ => []) (fun d => kept persist (0x710 + k) (fun _ => [split]) (updHost (2 * k) (fun x => { x with splitNext := some (split == 1) }) d))

/-- R392, R393, R403: the settings of a slot; PWR_EN 1 takes a slot from OFF to POWERING. -/
noncomputable def hostSlotSet (c : AdminCtx) (h auto autoPwr pwrEn attn pwr notify persist : Nat) : Completion :=
  served (.hostSlotSet c h auto autoPwr pwrEn attn pwr notify persist) c 0x0B10 0
    (fun d => !absentPort d h && [auto, autoPwr, pwrEn].all (fun v => decide (v ≤ 1)) && decide (attn ≤ 2) && decide (pwr ≤ 2)
      && mayPersist d persist (0x720 + h)
      && (if pwrEn = 1 then (host d h).slot != .fault && (host d h).slot != .empty else (host d h).slot != .on))
    (fun _ => [])
    (fun d =>
      let d := kept persist (0x720 + h) (fun _ => [auto, autoPwr, pwrEn, attn, pwr, notify])
        (slotSet h (fun x => { x with auto := auto == 1, autoPwr := autoPwr == 1, attnInd := attn, pwrInd := pwr, notify := notify }) d)
      if pwrEn = 1 ∧ (host d h).slot = .off then slotSet h (fun x => { x with slot := .powering, pwrEn := true }) d else d)

/-- R386: a wake condition. Of a function in D3hot a PME is sent; of a port in reset the wake pin is driven. -/
def woken (h : Nat) (d : Dev) : Dev :=
  let f := mkFunc h 0
  let status := updFn f (fun x => { x with pmeStatus := true }) d
  if (fn d f).pmeEn = false then d
  else if (fn d f).d3 = true then emit (.pme f) status
  else if (host d h).perst = false then d
  else if (host d h).wake = true then status
  else emit (.pin "HP_WAKE_N" h 0) (updHost h (fun x => { x with wake := true }) status)

/-- R386, R403: HOST_WAKE of a port whose function 0 is in D3hot or that is in reset. -/
noncomputable def hostWake (c : AdminCtx) (h : Nat) : Completion :=
  served (.hostWake c h) c 0x0B12 0
    (fun d => !absentPort d h && ((fn d (mkFunc h 0)).d3 || (host d h).perst) && unheard d (srcHost h 14))
    (fun _ => []) (fun d => woken h (noted (srcHost h 14) d))

/-! ### Host-loss processing (R87, R394 to R397, R436) -/

/-- No endpoint, completion queue, request, channel, lock, content to send or fetched command belongs to the functions
that satisfy a test, and TALLY does not run. -/
def bare (d : Dev) (p : Func → Bool) : Bool :=
  (epsOf d p).isEmpty && d.ept.cqs.all (fun c => !p c.2.f) && d.np.all (fun n => !p n.2.f) && d.dma.chs.all (fun x => !p x.2.f)
    && d.adm.fetched.isEmpty && d.clasp.recs.isEmpty && d.xp.contents.all (fun x => !(epFunc d x.2.ep).any p)
    && fld d (TALLY + 0x020) 0 1 == 0

/-- R87, R395, R436: the event queues of lost functions go into error and their admin rings stop with cause 0x04. -/
def fnsLost (p : Func → Bool) (d : Dev) : Dev :=
  { d with fns := mmap d.fns (fun k x =>
      if p ⟨hostNo (k / 32), fnNo (k % 32)⟩ then
        { x with
          adm := if x.adm.en then { x.adm with error := true, cause := 4 } else x.adm
          eqs := mmap x.eqs (fun _ q => { q with error := true, waiting := [] }) }
      else x) }

/-- The functions of a host port that a scope covers. -/
def covers (h : HostNo) (s : LossScope) (f : Func) : Bool := decide (f.hp = h) && inScope s f

/-- R394, R395: host-loss processing of a scope has started. -/
def lossBegun (h : HostNo) (s : LossScope) (c : LossCause) (d : Dev) : Dev :=
  fnsLost (covers h s) (updHost h (fun x => { x with loss := some ⟨s, c⟩, lastCause := c.code }) d)

/-- Host-loss processing of a scope may start, and stops nothing but rings and event queues. -/
def mayLose (d : Dev) (h : HostNo) (s : LossScope) : Bool := !absentPort d h && (host d h).loss.isNone && bare d (covers h s)

/-- No host is told of a slot's event: those that R399 names have no event queue 0. -/
def slotUnheard (d : Dev) (h : Nat) : Bool :=
  (List.range 8).all (fun m => !bitOf (host d h).notify m || (eq? d (pf (hostNo m)) 0).isNone)

/-- R392, R403: HOST_SLOT_REMOVE of a slot in ON; the command's reply comes with the end of the removal. -/
noncomputable def hostSlotRemove (c : AdminCtx) (h : HostNo) : Completion :=
  { cmd := .hostSlotRemove c h.val
    pre := fun d => byMailbox (.hostSlotRemove c h.val) c 0 d && (host d h).slot == .on && mayLose d h .port
    post := fun d => lossBegun h .port .removed (slotSet h (fun x => { x with slot := .removing, removal := some (c, 0x0B11) })
      { d with adm := { d.adm with running := [{ ctx := c, op := 0x0B11, params := [h.val] }] } }) }

/-- R382, R394: a function-level reset; the vectors of the function are masked. -/
noncomputable def flr (f : Func) : Completion :=
  { cmd := .flr f
    pre := fun d => mayLose d f.hp (.func f.fn) && unheard d (srcHost f.hp 11)
    post := fun d => updFn f (fun x => { x with msix := [] }) (lossBegun f.hp (.func f.fn) .flr (noted (srcHost f.hp 11) d)) }

/-- R394: VF Enable is cleared. -/
noncomputable def vfDisable (h : HostNo) : Completion :=
  { cmd := .vfDisable h
    pre := fun d => mayLose d h .vfs && unheard d (srcHost h 11)
    post := fun d => lossBegun h .vfs .vfDisable (noted (srcHost h 11) (updHost h (fun x => { x with vfEn := false }) d)) }

/-- R385: a function enters D3hot. -/
noncomputable def d3hotEntry (f : Func) : Completion :=
  { cmd := .d3hotEntry f
    pre := fun d => !absentPort d f.hp && !(fn d f).d3 && bare d (fun g => decide (g = f))
    post := fun d => fnsLost (fun g => decide (g = f)) (updFn f (fun x => { x with d3 := true }) d) }

/-- R385: a function returns to D0. -/
noncomputable def returnToD0 (f : Func) : Completion :=
  { cmd := .returnToD0 f, pre := fun _ => true, post := updFn f (fun x => { x with d3 := false }) }

/-- R540: Bus Master Enable of a function becomes 0; the function has no TALLY ring. -/
noncomputable def busMasterDisable (f : Func) : Completion :=
  { cmd := .busMasterDisable f, pre := fun d => fld d (TALLY + 0x020) 0 1 == 0 || decide (d.tally.f ≠ f)
    post := updFn f (fun x => { x with bme := false }) }

/-- R382, R385, R401: what a reset from the host does at once: the link is down, the configuration set for the port holds,
every vector is masked, and containment ends. -/
def portFresh (h : HostNo) (d : Dev) : Dev :=
  let d := updHost h (fun x =>
    { x with
      totalVfs := (x.nextCfg.map (·.1)).getD x.totalVfs, pfVec := (x.nextCfg.map (·.2.1)).getD x.pfVec
      vfVec := (x.nextCfg.map (·.2.2)).getD x.vfVec, nextCfg := none, contained := false
      dl := false, speed := 0, width := 0, flit := false, l1 := false }) d
  { d with fns := mmap d.fns (fun k x => if k / 32 = h.val then { x with msix := [] } else x) }

/-- R385, R394, R401: PERST# is asserted. -/
noncomputable def perstAssert (h : HostNo) : Completion :=
  { cmd := .perstAssert h
    pre := fun d => mayLose d h .port && !(host d h).perst && unheard d (srcHost h 12)
    post := fun d => portFresh h (lossBegun h .port .perst (noted (srcHost h 12) (updHost h (fun x => { x with perst := true }) d))) }

/-- R386, R398: PERST# is deasserted, and the wake pin is released. -/
noncomputable def perstDeassert (h : HostNo) : Completion :=
  { cmd := .perstDeassert h, pre := fun d => !absentPort d h && (host d h).perst
    post := fun d => updHost h (fun x => { x with perst := false, wake := false })
      (if (host d h).wake = true then emit (.pin "HP_WAKE_N" h 1) d else d) }

/-- R394, R401: a Hot Reset. -/
noncomputable def hotReset (h : HostNo) : Completion :=
  { cmd := .hotReset h
    pre := fun d => mayLose d h .port && unheard d (srcHost h 0)
    post := fun d => portFresh h (lossBegun h .port .hotReset (noted (srcHost h 0) d)) }

/-- R394: the data link layer leaves DL_Active. -/
noncomputable def hostLinkDown (h : HostNo) : Completion :=
  { cmd := .hostLinkDown h
    pre := fun d => mayLose d h .port && !(host d h).perst && (host d h).dl && unheard d (srcHost h 0)
    post := fun d => lossBegun h .port .linkDown (noted (srcHost h 0)
      (updHost h (fun x => { x with dl := false, speed := 0, width := 0, flit := false, l1 := false }) d)) }

/-- R399: the data link layer becomes active. -/
noncomputable def dlActiveReached (h : HostNo) (speed width : Nat) (flit : Bool) : Completion :=
  { cmd := .dlActiveReached h speed width flit
    pre := fun d => !absentPort d h && !(host d h).perst && decide (speed < 8) && decide (width < 32) && slotUnheard d h
    post := updHost h (fun x => { x with dl := true, speed := speed, width := width, flit := flit }) }

/-- R382, R386, R395, R396: step 4 of host-loss processing, of functions without endpoints and job slots: their queues, blocks
and mirrors go, they are as after a reset but for PME, a removal ends with the slot in OFF, and the port is no longer lost. -/
noncomputable def hostLossDestroy (h : HostNo) (s : LossScope) (c : LossCause) : Completion :=
  { cmd := .hostLossDestroy h
    pre := fun d => (host d h).loss == some ⟨s, c⟩ && (epsOf d (covers h s)).isEmpty && d.xl.slots.all (fun x => !covers h s x.2.f)
      && (host d h).removal.isNone && slotUnheard d h
    post := fun d =>
      let p := covers h s
      let d := { d with
        ept := { d.ept with cqs := d.ept.cqs.filter (fun x => !p x.2.f), blocks := d.ept.blocks.filter (fun b => !p b.2.f) }
        time := { d.time with mirrors := d.time.mirrors.filter (fun m => !p m.2.f) }
        fns := mmap d.fns (fun k x => if p ⟨hostNo (k / 32), fnNo (k % 32)⟩ then { pmeEn := x.pmeEn, pmeStatus := x.pmeStatus } else x) }
      let whole := inScope s ⟨h, 0⟩
      let d := updHost h (fun x =>
        { x with
          loss := none, numVfs := if whole then 0 else x.numVfs, vfEn := x.vfEn && !whole
          vfBar0 := if whole then 0 else x.vfBar0, vfBar2 := if whole then 0 else x.vfBar2 }) d
      if (host d h).slot = .removing then slotSet h (fun x => { x with slot := .off, pwrEn := false }) d else d }

/-! ### Slots (R391, R392) -/

/-- R391, R392: a sled is taken as present: an EMPTY slot goes to POWERING, or to OFF without automatic power. -/
noncomputable def presenceTaken (h : HostNo) : Completion :=
  { cmd := .presenceTaken h
    pre := fun d => !absentPort d h && !(host d h).present && unheard d (srcHost h 3) && slotUnheard d h
    post := fun d =>
      let d := noted (srcHost h 3) (updHost h (fun x => { x with present := true }) d)
      if (host d h).slot = .empty then
        slotSet h (fun x => { x with slot := if x.autoPwr then .powering else .off, pwrEn := x.pwrEn || x.autoPwr }) d
      else d }

/-- R391, R392, R394: absence is taken: the slot is EMPTY without power, and a slot that was powered is lost. -/
noncomputable def presenceLost (h : HostNo) : Completion :=
  { cmd := .presenceLost h
    pre := fun d => mayLose d h .port && (host d h).present && unheard d (srcHost h 3) && unheard d (srcHost h 1)
    post := fun d =>
      let was := (host d h).slot
      let d := slotSet h (fun x => { x with slot := .empty, pwrEn := false })
        (noted (srcHost h 3) (updHost h (fun x => { x with present := false, pwrFault := false }) d))
      if was = .empty ∨ was = .off then d else lossBegun h .port .presenceLost (noted (srcHost h 1) d) }

/-- R391, R392, R394: a power fault of a powered slot takes it to FAULT without power. -/
noncomputable def powerFaultTaken (h : HostNo) : Completion :=
  { cmd := .powerFaultTaken h
    pre := fun d => mayLose d h .port && ((host d h).slot == .powering || (host d h).slot == .on || (host d h).slot == .removing)
      && unheard d (srcHost h 2)
    post := fun d => lossBegun h .port .powerFault (slotSet h (fun x => { x with slot := .fault, pwrEn := false })
      (noted (srcHost h 2) (updHost h (fun x => { x with pwrFault := true }) d))) }

/-- R386, R391: a press of the attention button, which is a wake condition. -/
noncomputable def buttonPress (h : HostNo) : Completion :=
  { cmd := .buttonPress h
    pre := fun d => !absentPort d h && unheard d (srcHost h 4) && unheard d (srcHost h 14) && slotUnheard d h
    post := fun d => woken h (noted (srcHost h 14) (noted (srcHost h 4) (updHost h (fun x => { x with button := true }) d))) }

/-- R392: POWERING without a fault ends in ON. -/
noncomputable def poweringDone (h : HostNo) : Completion :=
  { cmd := .poweringDone h, pre := fun d => (host d h).slot == .powering, post := slotSet h (fun x => { x with slot := .on }) }

/-! ### Interrupts and errors (R86, R383, R400) -/

/-- R383: a vector that is no longer masked sends what is pending, if nothing else holds it back. -/
noncomputable def msixUnmask (f : Func) (v : Nat) : Completion :=
  { cmd := .msixUnmask f v .mask
    pre := fun d => roomFor d (HOSTB f.hp + 0x200) 5
    post := fun d =>
      let e := (mget (fn d f).msix v).getD {}
      let held := (fn d f).fnMask || !(fn d f).msixEn || !(fn d f).bme
      let put (p : Bool) (d : Dev) : Dev := updFn f (fun x => { x with msix := mset x.msix v { e with mask := false, pend := p } }) d
      if e.pend = true ∧ held = false then hostWrite f e.addr (toLe 4 e.data) false false (put false d) else put e.pend d }

/-- R383: every vector of a function that is pending and not masked is sent when Bus Master Enable, the last thing that holds
them back, is set. -/
noncomputable def msixBusMaster (f : Func) (v : Nat) : Effect :=
  { cmd := .msixUnmask f v .busMaster
    pre := fun d => mayIssue d f && !frozen d && !(fn d f).fnMask && (fn d f).msixEn && roomFor d (HOSTB f.hp + 0x200) ((fn d f).msix.length)
      && (fn d f).msix.all (fun e => e.2.addr % 4 == 0 && decide (mget (fn d f).msix e.1 = some e.2)) && decide (4 ≤ (fn d (pf f.hp)).mps)
    post := fun d d' => (fn d' f).bme = true ∧ ∀ e ∈ (fn d f).msix, e.2.pend = true → e.2.mask = false →
      leaves d d' (.hostWrite f e.2.addr (toLe 4 e.2.data) false false) ∧ ((mget (fn d' f).msix e.1).map (·.pend)) = some false }

/-- R86, R383: the moderation time of an event queue with events since its last interrupt is over: its vector is requested. -/
noncomputable def eqModerationTimer (f : Func) (q : Nat) : Completion :=
  { cmd := .eqModerationTimer f q
    pre := fun d => (eq? d f q).any (fun x => x.modTime != 0 && x.since != 0) && roomFor d (HOSTB f.hp + 0x200) 5
    post := fun d =>
      let v := ((eq? d f q).map (·.vector)).getD 0
      let e := (mget (fn d f).msix v).getD {}
      let d := updEq f q (fun y => { y with since := 0 }) d
      if msixBlocked d f v = true then updFn f (fun x => { x with msix := mset x.msix v { e with pend := true } }) d
      else hostWrite f e.addr (toLe 4 e.data) false false (updFn f (fun x => { x with msix := mset x.msix v { e with pend := false } }) d) }

/-- R400: a correctable link error is logged by AER. -/
noncomputable def correctableLinkError (h : HostNo) : Completion :=
  { cmd := .correctableLinkError h, pre := fun d => !absentPort d h && unheard d (srcHost h 9)
    post := fun d => noted (srcHost h 9) (emit (.aer (pf h) "Correctable Link Error") d) }

/-- R400: an uncorrectable error of a host controller. -/
noncomputable def controllerUncorrectable (h : HostNo) : Completion :=
  { cmd := .controllerUncorrectable h, pre := fun d => !absentPort d h && unheard d (srcHost h 10), post := noted (srcHost h 10) }

end Sys2Proof.Claims
end

