-- ==== Sys2Proof/Claims/Lanes.lean ====
section
/-! DEFINITION. What is claimed of the admin commands of lanes, clock parents, cages (R350) and fabric time (R372). -/

namespace Sys2Proof.Claims

open Machine

/-! ### Lanes (R338, R350) -/

/-- R350: what LANE_QUERY gives of a port's lanes. -/
noncomputable def laneQuery (c : AdminCtx) (n : Nat) : Effect :=
  queried (.laneQuery c n) c 0x0901 49 (fun _ => decide (n < 128))
    (fun d data =>
      let l := (port d n).lane
      let e (i : Nat) : LaneEnd := lget l.ends i {}
      data = packVals ([(1, l.phase), (1, l.lanes), (1, b2n l.half), (1, rxPrecode l)]
        ++ tapVals (e 0).taps ++ tapVals (e 1).taps ++ tapVals (e 0).far ++ tapVals (e 1).far
        ++ [(4, 0), (4, 0), (4, 0), (4, 0)] ++ fclkVals l ++ [(1, b2n l.warm), (1, b2n (mhas d.nv.hist n))]))

/-- R338, R350: of a port in service with no change outstanding, a proposal is sent; the reply waits for its answer. -/
noncomputable def laneRetrain (c : AdminCtx) (n kind lane : Nat) : Completion :=
  { cmd := .laneRetrain c n kind lane
    pre := fun d => byMailbox (.laneRetrain c n kind lane) c 0 d && decide (n < 128) && decide (kind ≤ 4) && decide (lane ≤ 1)
      && (port d n).state != 0 && (port d n).lane.phase == 5
    post := fun d =>
      let s := (port d n).lane.negSeq
      emit (frameOut n 7 (toLe 1 (1 + kind * 16 + lane * 128) ++ toLe 3 (d.rtr.da * 128 + n) ++ toLe 1 s))
        (updLane n (fun l => { l with nego := some { kind := kind, lane := lane, seq := s, mine := true, cmd := some c }, negSeq := (s + 1) % 256 })
          { d with adm := { d.adm with running := [{ ctx := c, op := 0x0902, params := [n, kind, lane] }] } }) }

/-- R337, R350: the training history of a port, or of all with none (0xFF), is erased. -/
noncomputable def laneHistoryClear (c : AdminCtx) (n : Nat) : Completion :=
  served (.laneHistoryClear c n) c 0x0903 0 (fun _ => decide (n < 128) || n == 0xFF) (fun _ => [])
    (fun d =>
      let hit (m : Nat) : Bool := n == 0xFF || m == n
      (d.nv.hist.filter (fun p => hit p.1)).foldl (fun d p => wearCount (0x080000 + p.1 * 0x1000) 1 d)
        { d with nv := { d.nv with hist := d.nv.hist.filter (fun p => !hit p.1) } })

/-- R330, R350, R357: the candidates for the clock parent; while fabric time elects its parents, they are only kept. -/
noncomputable def clockParentSet (c : AdminCtx) (p0 p1 p2 p3 : Nat) : Completion :=
  let ps := [p0, p1, p2, p3].filter (fun p => p != 0xFF)
  served (.clockParentSet c p0 p1 p2 p3) c 0x0904 0 (fun d => ps.all (fun p => decide (p < 128)) && decide ps.Nodup && electMode d)
    (fun _ => []) (fun d => { d with time := { d.time with list := ps } })

/-- R350: the candidates, the parent and the held frequency offset. -/
noncomputable def clockParentQuery (c : AdminCtx) : Completion :=
  served (.clockParentQuery c) c 0x0905 0 (fun _ => true)
    (fun d => packVals ((List.range 4).map (fun i => (1, lget (if electMode d then d.time.elected else d.time.list) i 0xFF))
      ++ [(1, d.time.parent.getD 0xFF), signedLe 2 d.time.heldPpm])) id

/-! ### Test (R341 to R346) -/

/-- R343: a port whose link is not enabled enters TEST. -/
noncomputable def laneTestEnter (c : AdminCtx) (n allow : Nat) : Completion :=
  served (.laneTestEnter c n allow) c 0x0910 0 (fun d => decide (n < 128) && decide (allow ≤ 1) && !enabled d (LINK n))
    (fun _ => []) (updLane n (fun l => { l with phase := 7, remoteAllow := allow == 1 }))

/-- R343: a port leaves TEST to DOWN; patterns, loopbacks and the injection on the service lane end, and its next bring-up is
cold. -/
noncomputable def laneTestExit (c : AdminCtx) (n : Nat) : Effect :=
  { cmd := .laneTestExit c n
    pre := fun d => byMailbox (.laneTestExit c n) c 0 d && decide (n < 128) && (port d n).lane.phase == 7 && !enabled d (LINK n)
      && (port d n).role == (port d n).roleNext && (port d n).lane.again == []
    post := fun d d' =>
      let l := (port d' n).lane
      l.phase = 0 ∧ l.loopback = 0 ∧ l.gen = 0 ∧ l.chk = 0 ∧ l.patMask = 0 ∧ l.remoteAllow = false ∧ l.coldNext = true ∧ l.hold = .none
        ∧ l.inject = (port d n).lane.inject.filter (fun i => i.1 != 2)
        ∧ d'.mnt = (replyOut c 0x0911 0 0 [] d).mnt ∧ d'.adm = (replyOut c 0x0911 0 0 [] d).adm ∧ d'.regs = d.regs ∧ d'.out = d.out }

/-- R342: patterns of the lanes of a mask, in TEST; the counts and locks of the checkers start again. -/
noncomputable def lanePatternSet (c : AdminCtx) (n mask gen chk user : Nat) : Completion :=
  served (.lanePatternSet c n mask gen chk user) c 0x0912 0
    (fun d => decide (n < 128) && decide (mask ≤ 7) && decide (gen ≤ 7) && decide (chk ≤ 7) && (port d n).lane.phase == 7)
    (fun _ => [])
    (updLane n (fun l => prbsClear { l with patMask := mask, gen := gen, chk := chk, user := user }))

/-- R344: a loopback of this end, in TEST. -/
noncomputable def laneLoopbackSet (c : AdminCtx) (n kind mask : Nat) : Completion :=
  served (.laneLoopbackSet c n kind mask) c 0x0913 0
    (fun d => decide (n < 128) && decide (kind ≤ 2) && decide (mask < 16) && (!bitOf mask 3 || kind == 2) && (port d n).lane.phase == 7
      && (port d n).lane.loopback != 3)
    (fun _ => []) (updLane n (fun l => { l with loopback := kind, loopMask := mask }))

/-- R341, R344: a far-end loopback of data lanes is requested by a LOOPBACK frame. -/
noncomputable def laneLoopbackFar (c : AdminCtx) (n mask : Nat) : Completion :=
  served (.laneLoopbackSet c n 3 mask) c 0x0913 0 (fun d => decide (n < 128) && decide (mask < 4) && (port d n).lane.phase == 7)
    (fun _ => [])
    (fun d => emit (frameOut n 10 (toLe 1 (1 + 2 * mask))) (updLane n (fun l => { l with loopback := 3, loopMask := mask }) d))

/-- R343, R345: an injection at a rate replaces the one of its lane and goes on; a stop ends it. -/
noncomputable def laneErrInject (c : AdminCtx) (n lane kind v stop : Nat) : Completion :=
  served (.laneErrInject c n lane kind v stop) c 0x0914 0
    (fun d => decide (n < 128) && decide (lane ≤ 2) && decide (stop ≤ 1) && (stop == 1 || (kind == 3 && decide (10 ≤ v) && decide (v ≤ 40)))
      && (lane != 2 || (port d n).lane.phase == 7) && (curMode d != 0 || (port d n).state == 0))
    (fun _ => [])
    (updLane n (fun l =>
      let others := l.inject.filter (fun i => i.1 != lane)
      { l with inject := if stop = 1 then others else others ++ [(lane, 3, v)] }))

/-- R346: the counts of an eye scan, two bytes for each point, are written to MBX.DATA; the spec leaves their values to the
lane. -/
noncomputable def laneEyeScan (c : AdminCtx) (n lane eye ph0 ph1 phStep of0 of1 ofStep dwell res : Nat) : Effect :=
  let i : Instr := .laneEyeScan c n lane eye ph0 ph1 phStep of0 of1 ofStep dwell res
  let points := ((ph1 - ph0) / phStep + 1) * ((of1 - of0) / ofStep + 1)
  { cmd := i
    pre := fun d => byMailbox i c 0 d && decide (n < 128) && decide (lane ≤ 2) && decide (eye ≤ 2) && decide (ph0 ≤ ph1) && decide (ph1 ≤ 63)
      && decide (1 ≤ phStep) && decide (of0 ≤ of1) && decide (of1 ≤ 63) && decide (1 ≤ ofStep) && decide (res + 2 * points ≤ 0x10000)
      && !scanLong (port d n).lane lane points dwell
    post := fun d d' => ∃ bs : Bytes, bs.length = 2 * points
      ∧ d' = replyOut c 0x0915 0 0 [] { d with free := d.free + 1, mnt := { d.mnt with data := cellsWrite d.mnt.data res bs } } }

/-- R342: what a checker shows after the one it showed before: the same while it is not locked, not less while it is. -/
def countsOn (locked : Bool) (old new : Nat × Nat) : Prop :=
  if locked = true then old.1 ≤ new.1 ∧ old.2 ≤ new.2 else new = old

/-- R342, R350: errors, bits compared and locks of the three checkers of a port. -/
noncomputable def lanePrbsRead (c : AdminCtx) (n : Nat) : Effect :=
  let e (d : Dev) (i : Nat) : LaneEnd := lget (port d n).lane.ends i {}
  { cmd := .lanePrbsRead c n
    pre := fun d => byMailbox (.lanePrbsRead c n) c 51 d && decide (n < 128) && (port d n).lane.ends.length == 2
      && (port d n).lane.ends.all (fun x => decide (x.errors < 2 ^ 48) && decide (x.bits < 2 ^ 64))
      && decide ((port d n).lane.svcErrors < 2 ^ 48) && decide ((port d n).lane.svcBits < 2 ^ 64)
    post := fun d d' => ∃ x y z : Nat × Nat,
      countsOn (e d 0).chkLock ((e d 0).errors, (e d 0).bits) x ∧ countsOn (e d 1).chkLock ((e d 1).errors, (e d 1).bits) y
        ∧ countsOn (port d n).lane.svcChk ((port d n).lane.svcErrors, (port d n).lane.svcBits) z
        ∧ (port d' n).lane = { (port d n).lane with
            ends := [{ e d 0 with errors := x.1, bits := x.2 }, { e d 1 with errors := y.1, bits := y.2 }], svcErrors := z.1, svcBits := z.2 }
        ∧ d'.mnt = (replyOut c 0x0916 0 0 (packVals [(8, x.1), (8, y.1), (8, z.1), (8, x.2), (8, y.2), (8, z.2),
            (1, b2n (e d 0).chkLock), (1, b2n (e d 1).chkLock), (1, b2n (port d n).lane.svcChk)]) d).mnt
        ∧ d'.regs = d.regs ∧ d'.out = d.out }

/-- R348, R350: the settings of a cage. A latched power fault keeps PWR_EN low. -/
noncomputable def cageSet (c : AdminCtx) (n auto autoPwr pwrEn indA indB : Nat) : Completion :=
  served (.cageSet c n auto autoPwr pwrEn indA indB) c 0x0920 0
    (fun d => decide (n < 128) && decide (auto ≤ 1) && decide (autoPwr ≤ 1) && decide (pwrEn ≤ 1) && decide (indA ≤ 3) && decide (indB ≤ 3)
      && (pwrEn == 0 || !(port d n).lane.fault))
    (fun _ => [])
    (updLane n (fun l =>
      { l with
        auto := auto == 1, autoPwr := autoPwr == 1, indA := indA, indB := indB, isbOk := true
        pwrEn := (if autoPwr = 1 then l.pwrEn else pwrEn == 1) && !l.faultLock }))

/-! ### Fabric time (R352 to R370, R372) -/

/-- R372: what TIME_QUERY gives. -/
noncomputable def timeQuery (c : AdminCtx) : Effect :=
  queried (.timeQuery c) c 0x0A01 44 (fun _ => true)
    (fun d data =>
      let t := d.time
      data = packVals ([(1, t.state.code), (1, timeQ d), (1, b2n (electMode d)), (4, t.gmDa), (1, t.gmClass), (1, t.steps),
        (1, t.parent.getD 0xFF), signedLe 4 (t.theta / 256)] ++ (List.range 4).map (fun i => (1, fld d (TIME + 0x024) (8 * i) 8))
        ++ [(2, t.utc), (8, if t.state = .holdover then d.clk - t.holdSince else 0), (4, t.stepCount)]))

/-- R357, R359, R372: mode, IS_GM, GM_PRIO, thresholds and HOLDOVER_LIMIT, where they change neither the grandmaster nor the
clock parent. -/
noncomputable def timeCfgSet (c : AdminCtx) (mode gm prio lock unlock step lim persist : Nat) : Completion :=
  served (.timeCfgSet c mode gm prio lock unlock step lim persist) c 0x0A02 0
    (fun d => decide (mode ≤ 1) && decide (gm ≤ 1) && decide (1 ≤ lock) && decide (lock ≤ unlock) && decide (1 ≤ step) && decide (1 ≤ lim)
      && mayPersist d persist 0x400
      && (if mode = 1 then electMode d
        else d.time.isGm == (gm == 1) && (if gm = 1 then d.time.parent.isNone
          else d.time.list.find? (parentOk d) == d.time.parent && (d.time.parent.isSome || d.time.state == .freeRun))))
    (fun _ => [])
    (fun d => kept persist 0x400 (fun _ => [mode, gm, prio, lock, unlock, step, lim])
      (setFld (TIME + 0x024) 24 8 lim (setFld (TIME + 0x024) 16 8 step (setFld (TIME + 0x024) 8 8 unlock (setFld (TIME + 0x024) 0 8 lock
        (setFld (TIME + 0x020) 8 8 prio (setFld (TIME + 0x020) 1 1 gm (setFld (TIME + 0x020) 0 1 mode d))))))))

/-- R352, R359, R360: the grandmaster's time steps to a value; one in FREE_RUN is LOCKED from then on, in GM_CLASS 1. -/
noncomputable def timeSet (c : AdminCtx) (ns frac : Nat) : Completion :=
  served (.timeSet c ns frac) c 0x0A03 0 (fun d => d.time.isGm && unheard d (srcWin 3 2) && unheard d (srcWin 3 3))
    (fun _ => [])
    (fun d =>
      let set := noted (srcWin 3 2) { d with time := { d.time with ns := ns, frac := frac, stepCount := d.time.stepCount + 1, corrLeft := 0, acc := 0 } }
      if d.time.state = .freeRun ∧ enabled d TIME = true then
        noted (srcWin 3 3) { set with time := { set.time with gmClass := 1, state := .locked, goods := 0, bads := 0 } }
      else set)

/-- R366, R372: the offset of UTC. -/
noncomputable def timeUtcSet (c : AdminCtx) (utc persist : Nat) : Completion :=
  served (.timeUtcSet c utc persist) c 0x0A04 0 (fun d => mayPersist d persist 0x401) (fun _ => [])
    (fun d => kept persist 0x401 (fun _ => [utc]) { d with time := { d.time with utc := utc } })

/-- R355, R356, R372: D, its validity, the last sample, ASYM, samples and sequence numbers of a port. -/
noncomputable def timePortQuery (c : AdminCtx) (n : Nat) : Effect :=
  queried (.timePortQuery c n) c 0x0A10 32 (fun _ => decide (n < 128))
    (fun d data =>
      let p := (port d n).pt
      data = packVals [signedLe 4 (toPs (p.d.getD 0)), (1, b2n (dValid p)), signedLe 4 (toPs p.lastD), signedLe 4 (toPs p.lastTheta),
        signedLe 4 (toPs (asymOf d n)), (4, p.accepted), (4, p.discarded), (2, (p.seq + 65535) % 65536), (2, (p.rxSeq + 65535) % 65536)])

/-- R355: the cable's asymmetry at a port, a signed number of ps. -/
noncomputable def timeAsymSet (c : AdminCtx) (n asym persist : Nat) : Completion :=
  served (.timeAsymSet c n asym persist) c 0x0A11 0 (fun d => decide (n < 128) && mayPersist d persist (0x500 + n)) (fun _ => [])
    (fun d => kept persist (0x500 + n) (fun _ => [asym]) (updPTime n (fun p => { p with asym := toSigned 16 asym }) d))

/-- R367: a mirror of a function, or with period 0 none; its SEQ starts again at 1. -/
noncomputable def timeMirrorSet (c : AdminCtx) (k hp fn addr period : Nat) : Completion :=
  served (.timeMirrorSet c k hp fn addr period) c 0x0A20 0
    (fun d => decide (k < 64) && funcExists d hp fn && busOk addr 64 && decide (period ≤ 1000) && !hitsBar d hp addr 64
      && (lostFn d (mkFunc hp fn) == false) && ((mget d.time.mirrors k).all (fun m => !lostFn d m.f)))
    (fun _ => [])
    (fun d =>
      let m : Mirror := { f := mkFunc hp fn, addr := addr, period := period, seq := 1 }
      let ms := if period = 0 then mdel d.time.mirrors k else mset d.time.mirrors k m
      { d with time := { d.time with mirrors := ms } })

/-- R368 to R370, R372: the pulse-per-second output and input and the time-of-day line. -/
noncomputable def timePpsSet (c : AdminCtx) (outEn outAny width outDelay inEn inDisc inDelay tod persist : Nat) : Completion :=
  served (.timePpsSet c outEn outAny width outDelay inEn inDisc inDelay tod persist) c 0x0A21 0
    (fun d => [outEn, outAny, inEn, inDisc, tod].all (fun v => decide (v ≤ 1)) && decide (1 ≤ width) && mayPersist d persist 0x600)
    (fun _ => [])
    (fun d =>
      let a := TIME + 0x050
      let d := setFld a 3 1 inDisc (setFld a 2 1 inEn (setFld a 1 1 outAny (setFld a 0 1 outEn d)))
      let d := setFld a 8 8 width (setFld a 4 1 tod d)
      kept persist 0x600 (fun _ => [outEn, outAny, width, outDelay, inEn, inDisc, inDelay, tod])
        { d with time := { d.time with outDelay := outDelay, inDelay := inDelay } })

end Sys2Proof.Claims
end

