-- ==== Sys2Proof/Claims/Registers.lean ====
section
/-! DEFINITION. What is claimed of register accesses, doorbells, the management FIFOs, the admin rings, the mailbox and the
maintenance port (R57, R84, R366, R409, R421 to R446, R514, R515, R524). -/

namespace Sys2Proof.Claims

open Machine

/-! ### Enables (R424) -/

/-- The blocks of which these claims speak and their checks. -/
def checkOf (b : Nat) (d : Dev) : Option Nat :=
  if b = EPT then checkEpt d else if b = MATCH then checkMatch d else if b = COLL then checkColl d else if b = CLASP then checkClasp d
  else if b = XPORT then checkXport d else if b = CONG then checkCong d else if b = DMA then checkDma d else checkMgf d

/-- R424: a write of EN = 1 runs the check: the block is enabled with REASON 0, or stays disabled with the reason. -/
noncomputable def ctrlEnSet (m : Master) (b v : Nat) : Completion :=
  { cmd := .ctrlEnSet m b v
    pre := fun d => [EPT, MATCH, COLL, CLASP, XPORT, CONG, DMA, MGF].contains b && v % 2 == 1 && windowOpen d m && !enabled d b
    post := fun d => match checkOf b d with
      | none => setFld (b + 4) 16 16 0 (setEn b true d)
      | some r => setFld (b + 4) 16 16 r d }

/-- R424: a write of EN = 0 disables a block. -/
noncomputable def ctrlEnClear (m : Master) (b v : Nat) : Completion :=
  { cmd := .ctrlEnClear m b v
    pre := fun d => [EPT, MATCH, CLASP, XPORT, CONG, DMA, MGF].contains b && v % 2 == 0 && windowOpen d m && enabled d b
    post := setEn b false }

/-- R459, R508, R533: PWR, FLT and EMBER ignore such a write: it is an occurrence of their REGISTER_ACCESS. -/
noncomputable def ctrlEnKept (m : Master) (b w v : Nat) : Completion :=
  { cmd := .ctrlEnClear m b v
    pre := fun d => [(PWR, 2), (FLT, 4), (EMBER, 15)].contains (b, w) && v % 2 == 0 && windowOpen d m && enabled d b && unheard d (srcWin w 0)
    post := noted (srcWin w 0) }

/-! ### Writes and reads of the window (R366, R383, R389, R421 to R425, R524) -/

/-- R425: an RWE field takes a write while its block is disabled. -/
noncomputable def regTaken (m : Master) (v : Nat) : Completion :=
  { cmd := .registerWrite m (CONG + 0x020) 32 v false
    pre := fun d => decide (v < 2 ^ 32) && windowOpen d m && !enabled d CONG && decide ((reg d (CONG + 0x020)).toNat < 2 ^ 32)
    post := setReg (CONG + 0x020) (BitVec.ofNat 64 v) }

/-- R425: while it is enabled the write is ignored: WIGN is set, and REGISTER_ACCESS occurs. -/
noncomputable def regIgnored (m : Master) (v : Nat) : Completion :=
  { cmd := .registerWrite m (CONG + 0x020) 32 v false
    pre := fun d => decide (v < 2 ^ 32) && windowOpen d m && enabled d CONG && unheard d (srcWin 12 0)
    post := fun d => noted (srcWin 12 0) (setFld (CONG + 4) 1 1 1 (setReg (CONG + 0x020) (reg d (CONG + 0x020)) d)) }

/-- R389: a write with EP = 1 is discarded, logged by AER, and is an occurrence of POISONED_TLP. -/
noncomputable def regPoisoned (f : Func) (off width v : Nat) : Completion :=
  { cmd := .registerWrite (.host f) off width v true, pre := fun d => unheard d (srcHost f.hp 6)
    post := fun d => noted (srcHost f.hp 6) { d with out := d.out ++ [.aer f "Poisoned TLP Received"] } }

/-- R422, R423: a write that is not aligned is improper: Unsupported Request, and the access log takes it if it is free. -/
noncomputable def regImproper (f : Func) (off v : Nat) : Completion :=
  { cmd := .registerWrite (.host f) off 32 v false
    pre := fun d => decide (off < 2 ^ 26) && off % 4 != 0 && !hostBarred (.host f) d && d.flt.fatal.isNone && unheard d (srcHost f.hp 5)
      && fld d (HOSTB f.hp + 0x044) 0 1 == 0
    post := fun d =>
      setFld (HOSTB f.hp + 0x044) 0 1 1 (setReg (HOSTB f.hp + 0x040) (BitVec.ofNat 64 (off + 2 ^ 26 + f.fn.val * 2 ^ 27))
        (noted (srcHost f.hp 5) { d with out := d.out ++ [.aer f "Unsupported Request"] })) }

/-- R298, R421: a read of RESERVE_PEAK gives the peak and begins it anew. -/
noncomputable def reservePeakRead (m : Master) : Completion :=
  { cmd := .reservePeakRead m, pre := fun d => windowOpen d m
    post := fun d => { d with rtr := { d.rtr with peak := 0 }, out := d.out ++ [.readData m 32 d.rtr.peak] } }

/-- R366: a read of the lower half of TIME.NOW latches its upper half and NOW_AUX for the path. -/
noncomputable def timeNowLatch (m : Master) : Completion :=
  { cmd := .timeNowLatch m, pre := fun d => windowOpen d m
    post := fun d => emit (.readData m 32 (d.time.ns % 2 ^ 32))
      (setLatches m (some (d.time.ns / 2 ^ 32 % 2 ^ 32)) (some (fields [(0, d.time.frac), (16, timeQ d)])) (latches m d).2.2 d) }

/-- R524: a 64-bit read of the even counter of a chain latches the odd one for the path. -/
noncomputable def chainedCounterRead (m : Master) (a : Nat) : Completion :=
  { cmd := .chainedCounterRead m a
    pre := fun d => [DMA + 0x300, DMA + 0x310, PWR + 0x100, PWR + 0x110].contains a && windowOpen d m && d.chains.contains a
    post := fun d => emit (.readData m 64 (reg d a).toNat)
      (setLatches m (latches m d).1 (latches m d).2.1 (some (a + 8, (reg d (a + 8)).toNat)) d) }

/-- R524: the next read of the odd counter gives what was latched. -/
noncomputable def chainedCounterOdd (m : Master) (a x : Nat) : Completion :=
  { cmd := .chainedCounterRead m (a + 8)
    pre := fun d => [DMA + 0x300, DMA + 0x310, PWR + 0x100, PWR + 0x110].contains a && windowOpen d m && (latches m d).2.2 == some (a + 8, x)
      && !d.chains.contains (a + 8)
    post := fun d => emit (.readData m 64 x) (setLatches m (latches m d).1 (latches m d).2.1 none d) }

/-! ### Doorbells, CQs, clusters and sources (R57, R58, R72, R84, R460, R514, R515, R518) -/

/-- R57, R72: a doorbell during the scans of a resident endpoint asks for one more of each ring. -/
noncomputable def doorbell (f : Func) (e k n : Nat) : Completion :=
  { cmd := .doorbellWrite f (64 * e + k) n false
    pre := fun d => decide (1 ≤ n) && decide (k + n ≤ 64) && decide (e < 2 ^ 20) && !hostBarred (.host f) d && epFunc d e == some f
      && !frozen d && (ep? d e).any (fun x => x.scans && x.resident && x.send.scan.isSome && x.recv.all (fun r => r.scan.isSome))
    post := fun d => updEp e (fun x => { x with
      used := d.clk, send := { x.send with again := true }, recv := x.recv.map (fun r => { r with again := true }) }) d }

/-- R58: a doorbell of another function's endpoint is discarded and counted, and is an occurrence. -/
noncomputable def doorbellDropped (f : Func) (e k n : Nat) : Completion :=
  { cmd := .doorbellWrite f (64 * e + k) n false
    pre := fun d => decide (1 ≤ n) && decide (k + n ≤ 64) && decide (e < 2 ^ 20) && !hostBarred (.host f) d && epFunc d e != some f
      && unheard d (srcWin 7 2)
    post := fun d => noted (srcWin 7 2) { d with ept := { d.ept with bellDrops := d.ept.bellDrops + 1 } } }

/-- R84: a function arms a CQ of its own. -/
noncomputable def cqArm (f : Func) (q : Nat) : Completion :=
  { cmd := .cqArm f q
    pre := fun d => decide (q < 2 ^ 16) && !hostBarred (.host f) d && d.flt.fatal.isNone && (cq? d q).any (fun x => decide (x.f = f))
    post := updCq q (fun x => { x with armed := true }) }

/-- R84: it does not arm another function's. -/
noncomputable def cqArmDropped (f : Func) (q : Nat) : Completion :=
  { cmd := .cqArm f q
    pre := fun d => decide (q < 2 ^ 16) && !hostBarred (.host f) d && d.flt.fatal.isNone && !(cq? d q).any (fun x => decide (x.f = f))
    post := fun d => { d with ept := { d.ept with armDrops := d.ept.armDrops + 1 } } }

/-- R454, R460: a write of FENCE_REQ fences the cluster that serves a logical one, outside NORMAL and where it can be
replaced. -/
noncomputable def fenceReq (m : Master) (l : Fin 64) : Completion :=
  { cmd := .fenceReq m l
    pre := fun d => windowOpen d m && curMode d != 0 && !isFenced d (physOf d l) && (replacement d (physOf d l)).isSome
      && (replacement (updEmber (fun e => { e with fenced := mset e.fenced (physOf d l) 4 }) d) (physOf d l)).isSome
      && unheard d (srcWin 15 6) && roomFor d (EMBER + 0x350) 1
    post := fun d =>
      let p := physOf d l
      noted (srcWin 15 6) { count (EMBER + 0x350) d with ember := { d.ember with fenced := mset d.ember.fenced p 4, queue := insertNum p d.ember.queue } } }

/-- R514, R518: a forced occurrence of a source that is only logged: its sticky bit and a forced mark for the log. -/
noncomputable def fltForce (m : Master) (w i : Fin 32) : Completion :=
  let s := 32 * w.val + i.val
  { cmd := .fltForce m w (BitVec.ofNat 32 (2 ^ i.val))
    pre := fun d => windowOpen d m && !srcReserved s && sevOf d s == 1 && !stickyOf d s
    post := fun d => { d with flt := { d.flt with
      sticky := d.flt.sticky ++ [s], marks := d.flt.marks ++ [{ source := s, edge := true, forced := true, sev := 1 }] } } }

/-- R515, R522: sticky bits written 1 are cleared, each with a mark for the log. -/
noncomputable def fltStickyClear (m : Master) (w : Fin 32) (bits : BitVec 32) : Completion :=
  { cmd := .fltStickyClear m w bits, pre := fun d => windowOpen d m
    post := fun d =>
      let ss := ((List.range 32).filter (fun i => bits.getLsbD i && stickyOf d (32 * w.val + i))).map (fun i => 32 * w.val + i)
      { d with flt := { d.flt with
        sticky := d.flt.sticky.filter (fun s => !ss.contains s)
        marks := d.flt.marks ++ ss.map (fun s => { source := s, edge := false, forced := false, sev := sevOf d s }) } } }

/-! ### Management FIFOs (R441 to R446) -/

/-- A strand of this device to another has one way whatever its ENTROPY: the entry that routes it has one usable candidate of
one port, and that is not above its threshold (R279, R281, R284). -/
def oneWay (d : Dev) (da p q : Nat) : Bool :=
  let h : Hdr := { dstDa := BitVec.ofNat 17 da, epoch := d.rtr.inj }
  decide (da < 2 ^ 17) && da != d.rtr.da
    && (match usable d (routeEntry d h) none with
      | [(i, [n])] => decide (i < 4) && n == p
      | _ => false)
    && decide (portDepth d p q < deflTh d p q) && decide ((port d p).out.qs.length = 8)

/-- A new strand is the last of a queue of a port (R53, R284). -/
def queuedOn (d d' : Dev) (p q : Nat) (st : Hdr → Prop) (payload : Bytes) : Prop :=
  ∃ e : QEnt, (port d' p).out.q q = (port d p).out.q q ++ [e] ∧ st e.st.hdr ∧ e.st.payload = payload ∧ e.t0 = d.clk

/-- R442: a word is appended to the transmit FIFO. -/
noncomputable def txData (m : Master) (w : BitVec 64) : Completion :=
  { cmd := .txData m w, pre := fun d => windowOpen d m && decide (d.mgf.tx.length < 4096)
    post := fun d => { d with mgf := { d.mgf with tx := d.mgf.tx ++ [w] } } }

/-- R442: the last word of a header-only packet in order: the FIFO empties, the packet is counted and queued with the fields
that the device sets. -/
noncomputable def txEnd (m : Master) (w : BitVec 64) (p : Nat) : Effect :=
  let pkt (d : Dev) : Hdr := Hdr.decode ((d.mgf.tx ++ [w]).flatMap (fun w => toLe 8 w.toNat))
  { cmd := .txEnd m w
    pre := fun d => windowOpen d m && !d.mgf.txBad && d.mgf.tx.length == 7 && (pkt d).ver == 0 && (pkt d).kind == 9 && (pkt d).len == 0
      && decide ((pkt d).op.toNat ≤ 0x80) && fld d (MGF + 0x03C) 7 1 == 0 && roomFor d (MGF + 0x110) 1
      && oneWay d (pkt d).dstDa.toNat p (queueOf (pkt d))
    post := fun d d' => d'.mgf = { d.mgf with tx := [], txBad := false } ∧ reg d' (MGF + 0x110) = reg (count (MGF + 0x110) d) (MGF + 0x110)
      ∧ queuedOn d d' p (queueOf (pkt d)) (fun h => h = { pkt d with
          lsn := 0, ttl := BitVec.ofNat 5 (fld d (XPORT + 0x020) 8 5), defl := 0, trim := false, bgen := 0, ce := 0
          epoch := d.rtr.inj, srcDa := BitVec.ofNat 17 d.rtr.da, flags := (pkt d).flags ||| 0x80 }) [] }

/-- R444: a 64-bit read takes the head word; RX_FLAGS of the path say whether it ends its packet. -/
noncomputable def rxDataRead (m : Master) (w : BitVec 64) (fin : Bool) : Completion :=
  { cmd := .rxDataRead m 64, pre := fun d => windowOpen d m && d.mgf.rx.head? == some (w, fin) && d.mnt.stall.isNone
    post := fun d =>
      let d := { d with mgf := { d.mgf with rx := d.mgf.rx.tail, partly := !fin, flushRx := d.mgf.flushRx.map (· - 1) }
                        out := d.out ++ [.readData m 64 w.toNat] }
      match m with
      | .host f => updFn f (fun x => { x with rxEnd := fin, rxEmpty := false }) d
      | .maint => { d with mnt := { d.mnt with rxEnd := fin, rxEmpty := false } } }

/-- R445: a host's read that has waited as long as STALL_LIMIT ends with all ones and EMPTY. -/
noncomputable def rxDataStallEnd (f : Func) : Completion :=
  { cmd := .rxDataStallEnd (.host f), pre := fun d => d.mgf.stalled.contains (.host f)
    post := fun d => updFn f (fun x => { x with rxEnd := false, rxEmpty := true })
      { d with mgf := { d.mgf with stalled := d.mgf.stalled.erase (.host f) }, out := d.out ++ [.readData (.host f) 64 (2 ^ 64 - 1)] } }

/-- R446: a flush of the receive FIFO is requested: of what it holds now. -/
noncomputable def flushRx (m : Master) : Completion :=
  { cmd := .flushRx m, pre := fun d => windowOpen d m
    post := fun d => { d with mgf := { d.mgf with flushRx := some d.mgf.rx.length } } }

/-- R446: a flush of the transmit FIFO is requested. -/
noncomputable def flushTx (m : Master) : Completion :=
  { cmd := .flushTx m, pre := fun d => windowOpen d m, post := fun d => { d with mgf := { d.mgf with flushTx := true } } }

/-- R446: at a packet's end a flush drops what was there when it was requested. -/
noncomputable def flushRxDone (n : Nat) : Completion :=
  { cmd := .flushTakeEffect true, pre := fun d => d.mgf.flushRx == some n && !d.mgf.partly && d.mgf.stalled == []
    post := fun d => { d with mgf := { d.mgf with rx := d.mgf.rx.drop n, flushRx := none } } }

/-- R446: and the transmit FIFO's whatever is in it. -/
noncomputable def flushTxDone : Completion :=
  { cmd := .flushTakeEffect false, pre := fun d => d.mgf.flushTx
    post := fun d => { d with mgf := { d.mgf with tx := [], txBad := false, flushTx := false } } }

/-- A management strand that is in order and not in a landing queue. -/
def mgmtOk (d : Dev) (st : Strand) : Bool :=
  st.hdr.kind == 9 && !strandBad st && !(st.hdr.trim && st.hdr.len != 0) && decide (Machine.unland st d = d)

/-- R441: a packet of OP 0x00 to 0x7F goes to the receive FIFO, its last word marked, if all of it fits; no read waits. -/
noncomputable def mgmtRx (st : Strand) : Completion :=
  let ws := wordsOf (st.hdr.encode ++ st.payload)
  { cmd := .mgmtRx st
    pre := fun d => mgmtOk d st && decide (st.hdr.op.toNat < 0x80) && decide (d.mgf.rx.length + ws.length ≤ 4096) && d.mgf.stalled == []
      && roomFor d (MGF + 0x100) 1
    post := fun d => count (MGF + 0x100) { d with mgf := { d.mgf with rx := d.mgf.rx ++ ws.zipIdx.map (fun p => (p.1, decide (p.2 + 1 = ws.length))) } } }

/-- A strand of the manager that R443 lets the device carry out. -/
def mgmtOwn (d : Dev) (st : Strand) (op : Nat) : Bool :=
  mgmtOk d st && st.hdr.op.toNat == op && mgmtFits st.hdr && fld d (MGF + 0x020) 8 1 == 1 && fld d (MGF + 0x024) 0 17 == st.hdr.srcDa.toNat

/-- R443: a command of the manager is taken on the mailbox path, which is then BUSY. -/
noncomputable def remoteAdmin (st : Strand) : Completion :=
  { cmd := .remoteAdmin st, pre := fun d => mgmtOwn d st 0x80 && !d.mnt.busy
    post := fun d => { d with
      mnt := { d.mnt with busy := true, remote := some st.hdr }
      adm := { d.adm with fetched := d.adm.fetched ++ [{ path := .mailbox, index := 0, bytes := st.payload }] } } }

/-- R443: DATA_WRITE writes MBX.DATA and is answered with result 0. -/
noncomputable def dataWrite (st : Strand) (p : Nat) : Effect :=
  let a := st.hdr.addr.toNat % 2 ^ 16
  { cmd := .dataWrite st
    pre := fun d => mgmtOwn d st 0x82 && !d.mnt.busy && decide (a + st.payload.length ≤ 0x10000)
      && oneWay d st.hdr.srcDa.toNat p (4 + st.hdr.tc.toNat)
    post := fun d d' => d'.mnt = { d.mnt with data := cellsWrite d.mnt.data a st.payload }
      ∧ queuedOn d d' p (4 + st.hdr.tc.toNat) (fun h => h.kind = 9 ∧ h.op = 0x84 ∧ h.dstDa = st.hdr.srcDa ∧ h.dstEp = 0 ∧ h.opwf 0 8 = 0 ∧ h.len = 0) [] }

/-- R443: DATA_READ is answered with bytes of MBX.DATA. -/
noncomputable def dataRead (st : Strand) (p : Nat) : Effect :=
  let a := st.hdr.addr.toNat % 2 ^ 16
  let n := st.hdr.opwf 0 13
  { cmd := .dataRead st
    pre := fun d => mgmtOwn d st 0x83 && !d.mnt.busy && decide (8 ≤ n) && decide (n ≤ 4096) && n % 8 == 0 && decide (a + n ≤ 0x10000)
      && oneWay d st.hdr.srcDa.toNat p (4 + st.hdr.tc.toNat)
    post := fun d d' => d'.mnt = d.mnt
      ∧ queuedOn d d' p (4 + st.hdr.tc.toNat) (fun h => h.kind = 9 ∧ h.op = 0x84 ∧ h.dstDa = st.hdr.srcDa ∧ h.dstEp = 0 ∧ h.opwf 0 8 = 0 ∧ h.len.toNat = n)
          (cellsRead d.mnt.data a n) }

/-! ### Admin rings (R433 to R436) -/

/-- R435: a ring is enabled: its settings are latched and its counts begin at 0; SIZE and VECTOR are in range. -/
noncomputable def adminRingEnable (m : Master) (h : HostNo) : Completion :=
  let f := pf h
  { cmd := .adminRingEnable m h
    pre := fun d =>
      let a := (fn d f).adm
      windowOpen d m && !absentPort d h && !a.en && decide (4 ≤ bitsOf a.cfg 0 4) && decide (bitsOf a.cfg 0 4 ≤ 12)
        && (!bitOf a.cfg 19 || decide (bitsOf a.cfg 8 11 < (host d h).pfVec))
    post := fun d => updFn f (fun x => { x with adm := { x.adm with
      en := true, live := true, lCmd := x.adm.cmdBase, lRsp := x.adm.rspBase, lSize := bitsOf x.adm.cfg 0 4, lVec := bitsOf x.adm.cfg 8 11
      lVecEn := bitOf x.adm.cfg 19, tail := 0, rspHead := 0, fetched := 0, replied := 0, error := false, cause := 0 } }) d }

/-- R436: a ring without an error is disabled. -/
noncomputable def adminRingDisable (m : Master) (h : HostNo) : Completion :=
  { cmd := .adminRingDisable m h, pre := fun d => windowOpen d m && !absentPort d h && (fn d (pf h)).adm.en && !(fn d (pf h)).adm.error
    post := updFn (pf h) (fun x => { x with adm := { x.adm with en := false, error := false, cause := 0 } }) }

/-- R435: the count of commands placed. -/
noncomputable def admCmdTail (m : Master) (h : HostNo) (n : BitVec 16) : Completion :=
  { cmd := .admCmdTail m h n, pre := fun d => windowOpen d m && !absentPort d h
    post := updFn (pf h) (fun x => { x with adm := { x.adm with tail := n.toNat } }) }

/-- R435: the count of replies taken. -/
noncomputable def admRspHead (m : Master) (h : HostNo) (n : BitVec 16) : Completion :=
  { cmd := .admRspHead m h n, pre := fun d => windowOpen d m && !absentPort d h
    post := updFn (pf h) (fun x => { x with adm := { x.adm with rspHead := n.toNat } }) }

/-- R435: the next command of a ring that has one, and has room for its reply, is read. -/
noncomputable def adminCommandFetch (f : Func) : Completion :=
  { cmd := .adminCommandFetch f
    pre := fun d =>
      let a := (fn d f).adm
      a.en && !a.error && decide (4 ≤ fld d (GLB + 0x028) 0 3) && !frozen d && (decide (f.fn = 0) || d.boot.image)
        && decide (0 < (a.tail + 2 ^ 16 - a.fetched % 2 ^ 16) % 2 ^ 16) && decide ((a.tail + 2 ^ 16 - a.fetched % 2 ^ 16) % 2 ^ 16 < 2 ^ 15)
        && decide ((a.replied % 2 ^ 16 + 2 ^ 16 - a.rspHead) % 2 ^ 16 < 2 ^ a.lSize) && canRead d f 2
    post := fun d =>
      let a := (fn d f).adm
      hostRead f (a.lCmd + 64 * (a.fetched % 2 ^ a.lSize)) 64 (.adminFetch f (a.fetched % 2 ^ 16))
        (updFn f (fun x => { x with adm := { x.adm with fetched := (x.adm.fetched + 1) % 2 ^ 32 } }) d) }

/-- A fetched command of the mailbox is next, and a device carries commands out. -/
def nextFetched (d : Dev) (bs : Bytes) : Bool :=
  (d.adm.fetched.find? (fun x => decide (x.path = .mailbox))) == some { path := .mailbox, index := 0, bytes := bs }
    && decide (4 ≤ fld d (GLB + 0x028) 0 3) && d.mnt.remote.isNone

/-- The parts of a fetched command that its reply repeats (R428, R430). -/
def ctxFrom (bs : Bytes) : AdminCtx :=
  { path := .mailbox, seq := leAt bs 4 4, index := 0, intr := bitOf (leAt bs 2 1) 1, replyData := leAt bs 56 8 }

/-- A fetched command of the mailbox is taken. -/
def tookFetched (bs : Bytes) (d : Dev) : Dev :=
  { d with adm := { d.adm with fetched := d.adm.fetched.erase { path := .mailbox, index := 0, bytes := bs } } }

/-- R431 to R433, R440: the first fetched command begins: an ECHO without reserved bits replies with its 16 bytes. -/
noncomputable def adminCommandBegin (bs : Bytes) : Completion :=
  { cmd := .adminCommandBegin .mailbox
    pre := fun d => nextFetched d bs && leAt bs 0 2 == 0x0103 && decide (leAt bs 2 1 < 4) && leAt bs 3 1 == 0
      && decide (((bs.take 56).drop 24).all (· == 0)) && bs.length == 64 && d.flt.fatal.isNone && curMode d != 3
    post := fun d => replyOut (ctxFrom bs) 0x0103 0 0 (toLe 8 (leAt bs 8 8) ++ toLe 8 (leAt bs 16 8)) (tookFetched bs d) }

/-- R431, R432: an opcode that is not defined replies with STATUS 1. -/
noncomputable def adminUnknown (bs : Bytes) : Completion :=
  { cmd := .adminCommandBegin .mailbox
    pre := fun d => nextFetched d bs && adminCmds.all (fun m => m.op != leAt bs 0 2)
    post := fun d => replyOut (ctxFrom bs) (leAt bs 0 2) 1 0 [] (tookFetched bs d) }

/-- R434: a command that could not begin in time replies TIMEOUT. -/
noncomputable def adminTimeout (bs : Bytes) : Completion :=
  { cmd := .adminTimeout .mailbox, pre := fun d => nextFetched d bs
    post := fun d => replyOut (ctxFrom bs) (leAt bs 0 2) 7 0 [] (tookFetched bs d) }

/-! ### The mailbox and the maintenance port (R437 to R439) -/

/-- R439: GO takes the command in MBX.CMD; the mailbox is BUSY. -/
noncomputable def mbxGo : Completion :=
  { cmd := .mbxGo, pre := fun d => !d.mnt.busy
    post := fun d => { d with
      mnt := { d.mnt with busy := true }
      adm := { d.adm with fetched := d.adm.fetched ++ [{ path := .mailbox, index := 0, bytes := d.mnt.cmd }] } } }

/-- R439: while it is BUSY, GO is ignored. -/
noncomputable def mbxGoBusy : Completion :=
  { cmd := .mbxGo, pre := fun d => d.mnt.busy, post := fun d => { d with mnt := { d.mnt with ignored := d.mnt.ignored + 1 } } }

/-- R437: a request: the sync byte, CMD, the address, data and the CRC-8 over all but the sync byte. -/
def maintReq (cmd a : Nat) (data : Bytes) : Bytes :=
  let b := toLe 1 cmd ++ toLe 4 a ++ data
  0xA5#8 :: b ++ toLe 1 (crc8 b).toNat

/-- R437: a response: its sync byte, RESULT, the data of a read and the CRC-8. -/
def maintRsp (res : Nat) (data : Bytes) : Bytes :=
  let b := toLe 1 res ++ data
  0x5A#8 :: b ++ toLe 1 (crc8 b).toNat

/-- R437, R439: a read of 32 bits of MBX.DATA. -/
noncomputable def maintenanceRead (a : Nat) : Completion :=
  { cmd := .maintenanceRequest (maintReq 1 (0x8010000 + a) [])
    pre := fun d => a % 4 == 0 && decide (a < 0x10000) && d.mnt.part == [] && d.mnt.stall.isNone
    post := fun d => { d with out := d.out ++ [.maint (maintRsp 0 (cellsRead d.mnt.data a 4))] } }

/-- R437, R439: a write of 32 bits of MBX.DATA while the mailbox is not BUSY. -/
noncomputable def maintenanceWrite (a v : Nat) : Completion :=
  { cmd := .maintenanceRequest (maintReq 2 (0x8010000 + a) (toLe 4 v))
    pre := fun d => a % 4 == 0 && decide (a < 0x10000) && decide (v < 2 ^ 32) && d.mnt.part == [] && d.mnt.stall.isNone && !d.mnt.busy
    post := fun d => { d with mnt := { d.mnt with data := cellsWrite d.mnt.data a (toLe 4 v) }, out := d.out ++ [.maint (maintRsp 0 [])] } }

/-- R437: bytes that end before their request does are kept. -/
noncomputable def maintenancePart (n a : Nat) : Completion :=
  { cmd := .maintenanceRequest ((maintReq 1 a []).take n), pre := fun d => decide (1 ≤ n) && decide (n < 7) && d.mnt.part == []
    post := fun d => { d with mnt := { d.mnt with part := (maintReq 1 a []).take n } } }

/-- R437: the same request in an MCTP message. -/
noncomputable def mctpRead (a : Nat) : Completion :=
  { cmd := .mctpRequest (maintReq 1 (0x8010000 + a) []), pre := fun d => a % 4 == 0 && decide (a < 0x10000) && d.mnt.stall.isNone
    post := fun d => { d with out := d.out ++ [.mctp (maintRsp 0 (cellsRead d.mnt.data a 4))] } }

/-- R437: a gap ends an unfinished request. -/
noncomputable def maintenanceGap : Completion :=
  { cmd := .maintenanceGap, pre := fun _ => true, post := fun d => { d with mnt := { d.mnt with part := [] } } }

end Sys2Proof.Claims
end

