-- ==== Sys2Proof/Claims/Rules.lean ====
section
/-! DEFINITION. The terms in which the statements about the rules that many commands share are given: the layout of the
header, the parts of a transfer, the entries of a completion queue. -/

namespace Sys2Proof.Claims

open Machine

/-! ### Header beads and strands (R37 to R47) -/

/-- The table of R46: the lowest bit of each field, its width and its value. -/
def headerTable (h : Hdr) : List (Nat × Nat × Nat) :=
  [(0, 20, h.lsn.toNat), (20, 5, h.ttl.toNat), (25, 2, h.defl.toNat), (27, 1, b2n h.trim), (28, 2, h.ce.toNat), (30, 1, b2n h.vn),
   (31, 1, b2n h.epoch), (32, 2, h.ver.toNat), (34, 2, h.tc.toNat), (36, 1, b2n h.poison), (37, 4, h.kind.toNat), (41, 1, b2n h.det),
   (42, 4, h.ord.toNat), (46, 16, h.entropy.toNat), (62, 2, h.rsv62.toNat), (64, 17, h.dstDa.toNat), (81, 20, h.dstEp.toNat),
   (101, 17, h.srcDa.toNat), (118, 20, h.srcEp.toNat), (138, 16, h.job.toNat), (154, 8, h.bgen.toNat), (162, 8, h.op.toNat),
   (170, 8, h.flags.toNat), (178, 13, h.len.toNat), (191, 1, b2n h.rsv191), (192, 32, h.bsn.toNat), (224, 24, h.msn.toNat),
   (248, 8, h.rsv248.toNat), (256, 32, h.offset.toNat), (288, 32, h.key.toNat), (320, 64, h.addr.toNat), (384, 128, h.opw.toNat)]

/-- Bit `n` of the content of a header bead (R46). -/
def headerBit (bs : Bytes) (n : Nat) : Bool := (bs.getD (n / 8) 0).getLsbD (n % 8)

/-- All bytes of a payload. -/
def bytesOf (cs : List Chunk) : Bytes := (cs.map (·.bytes)).flatten

/-- The header with its mutable fields replaced (R47); in a trim notice VN as well. -/
def remade (h : Hdr) (lsn : BitVec 20) (ttl : BitVec 5) (defl : BitVec 2) (trim : Bool) (ce : BitVec 2) (vn : Bool) : Hdr :=
  { h with lsn := lsn, ttl := ttl, defl := defl, trim := trim, ce := ce, vn := if h.kind = 3 then vn else h.vn }

/-! ### Transfers (R375) -/

/-- The parts of a range: one after the other from its start to its end, none empty, none longer than `most`, none across a
4 KiB boundary. -/
def parted (most : Nat) : Nat → Nat → List (Nat × Nat) → Prop
  | _, len, [] => len = 0
  | addr, len, p :: ps => p.1 = addr ∧ 0 < p.2 ∧ p.2 ≤ most ∧ p.2 ≤ len ∧ p.1 % 4096 + p.2 ≤ 4096 ∧ parted most (addr + p.2) (len - p.2) ps

/-- The TLPs that write bytes in such parts. -/
def writesOf (f : Func) (ro poison : Bool) : List (Nat × Nat) → Bytes → List Output
  | [], _ => []
  | p :: ps, bs => .hostWrite f p.1 (bs.take p.2) ro poison :: writesOf f ro poison ps (bs.drop p.2)

/-- The requests that read such parts, with their numbers from the next free one on. -/
def readsOf (f : Func) : Nat → List (Nat × Nat) → List Output
  | _, [] => []
  | n, p :: ps => .hostRead f (n * 8 + f.hp.val) p.1 p.2 :: readsOf f (n + 1) ps

/-- R375: at most 768 non-posted requests of each host port are outstanding. -/
def withinTags (d : Dev) : Prop := ∀ h, outstanding d h ≤ 768

/-! ### Completion queues (R79 to R81) -/

/-- A completion queue whose function may write host memory now, and whose entries lie each inside one TLP (R79, R375). -/
def entriesFit (d : Dev) (x : Cq) : Prop :=
  mayIssue d x.f = true ∧ frozen d = false ∧ (fn d x.f).bme = true ∧ 32 ≤ (fn d (pf x.f.hp)).mps ∧ x.base % 4096 = 0

/-! ### Congestion control (R251) -/

/-- Is the present time outside the cut interval of the last cut. -/
def mayCut (d : Dev) (s : SendHalf) : Prop := (cutInterval d s : Int) ≤ d.clk - s.lastCut

/-- RATE and ALPHA of a Braid are in their ranges (R214, R251). -/
def rateOk (s : SendHalf) : Prop := 10 ≤ s.rate ∧ s.rate ≤ 4000 ∧ s.alpha ≤ 1024

end Sys2Proof.Claims
end

