-- ==== Sys2Proof/Claims/Shared.lean ====
section
/-! DEFINITION. What is claimed of the admin commands of locks, matching, collectives and counters (R145, R171, R213). -/

namespace Sys2Proof.Claims

open Machine

/-! ### Locks (R132 to R145) -/

/-- R135, R145: a lock domain comes to exist. -/
noncomputable def claspDomainCreate (c : AdminCtx) (n s fairness members : Nat) : Completion :=
  served (.claspDomainCreate c n s fairness members) c 0x0401 0
    (fun d => decide (n < 4096) && decide (fairness ≤ 1) && (mget d.clasp.domains n).isNone
      && (fairness == 0 || decide (members ≤ 256)) && decide (1 ≤ members) && decide (members ≤ 65536) && (slot? d s).isSome)
    (fun _ => [])
    (fun d => { d with clasp := { d.clasp with domains := mset d.clasp.domains n { slot := s, ranked := fairness == 1, members := members } } })

/-- R145: a domain without lock records is destroyed. -/
noncomputable def claspDomainDestroy (c : AdminCtx) (n : Nat) : Completion :=
  served (.claspDomainDestroy c n) c 0x0402 0
    (fun d => (mget d.clasp.domains n).isSome && d.clasp.recs.all (fun p => p.2.domain != n))
    (fun _ => []) (fun d => { d with clasp := { d.clasp with domains := mdel d.clasp.domains n } })

/-- R145: a record's state, domain, holder, reported priority, sequence, number of waiters and the first four of them. -/
noncomputable def claspQuery (c : AdminCtx) (i s iova : Nat) : Effect :=
  queried (.claspQuery c i s iova) c 0x0410 76 (fun d => i != 2 ^ 32 - 1 && (lock? d i).isSome)
    (fun d data => ∃ r, lock? d i = some r ∧ data = lockRecord r)

/-- R134, R140: a HELD lock without waiters becomes FORCED, and its word is written anew. -/
noncomputable def claspForceRelease (c : AdminCtx) (i : Nat) : Completion :=
  served (.claspForceRelease c i) c 0x0411 0
    (fun d => (lock? d i).any (fun r => r.state == .held && r.queue == [] && (busyHit d r.f.hp r.addr 8).isNone && canWrite d r.f 9))
    (fun _ => [])
    (fun d => match lock? d i with
      | none => d
      | some r =>
        let r' : LockRec := { r with state := .forced, holder := none }
        hostWrite r.f r.addr (toLe 8 r'.word) false false (updLock i (fun r => { r with state := .forced, holder := none }) d))

/-- R143: a waiter leaves the queue of its lock, and LOCK_REMOVED with status 0x26 is queued for its device. -/
noncomputable def claspWaiterRemove (c : AdminCtx) (i da ep : Nat) : Effect :=
  { cmd := .claspWaiterRemove c i da ep
    pre := fun d => byMailbox (.claspWaiterRemove c i da ep) c 0 d && (lock? d i).any (fun r =>
      (busyHit d r.f.hp r.addr 8).isNone && canWrite d r.f 9
        && (r.queue.find? (fun x => decide (x.da = da) && decide (x.ep = ep))).any (fun w =>
          w.hdr.srcDa.toNat == da && w.hdr.srcEp.toNat == ep && reachable d da))
    post := fun d d' =>
      (lock? d' i).map (·.queue) = (lock? d i).map (fun r => r.queue.filter (fun x => decide (x.da ≠ da) || decide (x.ep ≠ ep)))
        ∧ queuedTo d d' da true (fun h bs => h.kind = 7 ∧ h.op = 0x85 ∧ h.dstEp.toNat = ep ∧ h.opwf 0 8 = 0x26 ∧ h.opwf 8 16 = i % 65536 ∧ bs = []) }

/-! ### Matching (R150 to R171) -/

/-- R150, R171: a matching context comes to exist for a pinned endpoint with a receive ring. -/
noncomputable def matchCtxCreate (c : AdminCtx) (e recBase uBase b spBase sz : Nat) : Completion :=
  served (.matchCtxCreate c e recBase uBase b spBase sz) c 0x0501 0
    (fun d => (ep? d e).any (fun x => (epFunc d e).any (fun f => x.pin && x.recv.any (fun r =>
      !hitsBar d f.hp recBase (32 * 2 ^ r.n) && !hitsBar d f.hp uBase (2 ^ b) && !hitsBar d f.hp spBase (64 * 2 ^ sz))))
      && busOk recBase 4096 && busOk uBase 4096 && busOk spBase 4096 && decide (17 ≤ b) && decide (b ≤ 30) && decide (10 ≤ sz)
      && decide (sz ≤ 20) && (mctx? d e).isNone && decide (d.mt.ctxs.length < 16384))
    (fun _ => [])
    (fun d =>
      let m : MCtx := { recBase := recBase, uBase := uBase, b := b, spBase := spBase, s := sz }
      { d with mt := { d.mt with ctxs := mset d.mt.ctxs e m } })

/-- R171: the matching context of an endpoint in RESET without tagged messages is destroyed. -/
noncomputable def matchCtxDestroy (c : AdminCtx) (e : Nat) : Completion :=
  served (.matchCtxDestroy c e) c 0x0502 0
    (fun d => (mctx? d e).isSome && (ep? d e).all (fun x => x.state == .reset) && d.mt.msgs.all (fun p => p.2.ep != e))
    (fun _ => []) (fun d => { d with mt := { d.mt with ctxs := mdel d.mt.ctxs e } })

/-- R171: path, posted specific and wildcard receives, unexpected messages, spilled entries, bytes of the unexpected-data
area in use, outstanding rendezvous. -/
noncomputable def matchQuery (c : AdminCtx) (e : Nat) : Effect :=
  queried (.matchQuery c e) c 0x0510 36 (fun d => (mctx? d e).isSome)
    (fun d data => ∃ m, mctx? d e = some m ∧
      let sp := (m.posted.filter (fun q => leAt q.recv.desc 30 1 == 0)).length
      data = packVals [(1, b2n m.spilled), (4, sp), (4, m.posted.length - sp), (4, m.unexp.length), (4, (spillSlots d m).length),
        (8, sumOf ((reservations d e).map (·.2))), (4, rndvOut d (fun x => x == e))])

/-- R147: does an unexpected message meet what MATCH_PROBE names. -/
def tagHit (comm rank tag low any : Nat) (t : TagMsg) : Bool :=
  let v := envOf t.hdr
  v.1 == comm && (any == 1 || v.2.1 == rank) && v.2.2 >>> low == tag >>> low

/-- R153, R171: the envelope, length, protocol and source of the first unexpected message that meets what is named; all
ones where there is none. -/
noncomputable def matchProbe (c : AdminCtx) (e comm rank tag low any : Nat) : Effect :=
  queried (.matchProbe c e comm rank tag low any) c 0x0511 32
    (fun d => (mctx? d e).isSome && decide (low ≤ 64) && decide (any ≤ 1))
    (fun d data => ∃ m, mctx? d e = some m ∧
      data = match (m.unexp.filterMap (tagMsg? d)).find? (tagHit comm rank tag low any) with
        | none => List.replicate 32 255
        | some t =>
          let v := envOf t.hdr
          packVals [(8, v.2.2), (4, v.2.1), (2, v.1), (4, t.len), (1, b2n t.rndv), (4, t.hdr.srcDa.toNat), (4, t.hdr.srcEp.toNat)])

/-! ### Groups and Ricks (R172 to R187, R213) -/

/-- R172 to R174: COLL_GROUP_CREATE begins with the read of the member table, 8 bytes a member, from its function; the
command is in progress until it comes. -/
noncomputable def collGroupCreate (c : AdminCtx) (g key s n table scratch size : Nat) : Effect :=
  { cmd := .collGroupCreate c g key s n table scratch size
    pre := fun d => byMailbox (.collGroupCreate c g key s n table scratch size) c 0 d && decide (g < 4096)
      && d.coll.groups.all (fun x => x.1 != g && x.2.key != key) && decide (1 ≤ n) && decide (n ≤ 1048576) && busOk table 4096
      && busOk scratch 4096 && decide (4096 ≤ size) && decide (size ≤ 2 ^ 30)
      && (slot? d s).any (fun x => !hitsBar d x.f.hp table (8 * n) && !hitsBar d x.f.hp scratch size && canRead d x.f (8 * n + 1))
    post := fun d d' => ∃ x, slot? d s = some x ∧
      d' = hostRead x.f table (8 * n) (.admin ⟨c, 0x0601, [g, key, s, n, table, scratch, size]⟩ 0)
        { d with adm := { d.adm with running := [⟨c, 0x0601, [g, key, s, n, table, scratch, size]⟩] } } }

/-- R213: a group without instances is destroyed. -/
noncomputable def collGroupDestroy (c : AdminCtx) (g : Nat) : Completion :=
  served (.collGroupDestroy c g) c 0x0602 0
    (fun d => (mget d.coll.groups g).isSome && d.coll.insts.all (fun p => p.2.group != g))
    (fun _ => []) (fun d => { d with coll := { d.coll with groups := mdel d.coll.groups g } })

/-- R201, R213: the key, N and the number of local members; then a row for each local member. -/
noncomputable def collGroupQuery (c : AdminCtx) (g : Nat) : Effect :=
  queried (.collGroupQuery c g) c 0x0603 4096 (fun d => (mget d.coll.groups g).isSome)
    (fun d data => ∃ x, mget d.coll.groups g = some x ∧
      data.take 12 = packVals [(4, x.key), (4, x.n), (4, (localMembers d x).length)]
        ∧ data.length = 16 + 24 * min 170 (localMembers d x).length)

/-- R186, R187: an image in MBX.DATA that passes the load checks is loaded as the Rick of its number. -/
noncomputable def collRickLoad (c : AdminCtx) (i image len : Nat) : Effect :=
  { cmd := .collRickLoad c i image len
    pre := fun d => byMailbox (.collRickLoad c i image len) c 0 d && decide (i < 1024) && decide (1 ≤ len) && decide (len ≤ 4160)
      && decide (image + len ≤ 0x10000) && (mget d.coll.ricks i).isNone && (rickLoad (cellsRead d.mnt.data image len) len).isRight
    post := fun d d' => ∃ r, rickLoad (cellsRead d.mnt.data image len) len = .inr r
      ∧ d' = replyOut c 0x0610 0 0 [] { d with coll := { d.coll with ricks := mset d.coll.ricks i r } } }

/-- R213: a Rick that no instance runs is unloaded. -/
noncomputable def collRickUnload (c : AdminCtx) (i : Nat) : Completion :=
  served (.collRickUnload c i) c 0x0611 0
    (fun d => (mget d.coll.ricks i).isSome && d.coll.insts.all (fun p => p.2.rick != i))
    (fun _ => []) (fun d => { d with coll := { d.coll with ricks := mdel d.coll.ricks i } })

/-- R186, R213: the fields of a Rick's header as in its image. -/
noncomputable def collRickQuery (c : AdminCtx) (i : Nat) : Effect :=
  queried (.collRickQuery c i) c 0x0612 32 (fun d => (mget d.coll.ricks i).isSome)
    (fun d data => ∃ r, mget d.coll.ricks i = some r ∧ data.take 4 = toLe 4 0x4B434952 ∧ slice data 6 2 = toLe 2 r.steps.length
      ∧ slice data 8 2 = toLe 1 r.slots ++ toLe 1 r.flags ∧ slice data 12 20 = toLe 4 r.minM ++ toLe 4 r.maxM ++ toLe 8 r.build ++ toLe 4 r.crc)

/-! ### Counters (R203 to R209) -/

/-- R203, R205: a free range of counters without a mirror is allocated, and the reply names its first index. -/
noncomputable def collCounterAlloc (c : AdminCtx) (s count : Nat) : Effect :=
  { cmd := .collCounterAlloc c s count (2 ^ 64 - 1)
    pre := fun d => byMailbox (.collCounterAlloc c s count (2 ^ 64 - 1)) c 0 d && (slot? d s).isSome && decide (1 ≤ count)
      && decide (count ≤ 65536) && counterPlaces d count != []
    post := fun d d' => ∃ x o n, slot? d s = some x ∧ o + count ≤ 2 ^ 18 ∧ d.coll.ranges.all (fun r => !overlaps o count r.1 r.2.count) = true
      ∧ d' = replyOut c 0x0620 0 0 (toLe 4 o) { d with
        free := n, coll := { d.coll with ranges := mset d.coll.ranges o { count := count, slot := s, f := x.f, mirror := none } } } }

/-- R213: a range that nothing uses is freed with the values it held. -/
noncomputable def collCounterFree (c : AdminCtx) (first count : Nat) : Completion :=
  served (.collCounterFree c first count) c 0x0621 0
    (fun d => (mget d.coll.ranges first).any (fun r => r.count == count) && !rangeUsed d first count)
    (fun _ => [])
    (fun d => { d with coll := { d.coll with
      ranges := mdel d.coll.ranges first
      values := d.coll.values.filter (fun p => !(decide (first ≤ p.1) && decide (p.1 < first + count))) } })

/-- R213: the value of an allocated counter. -/
noncomputable def collCounterRead (c : AdminCtx) (i : Nat) : Completion :=
  served (.collCounterRead c i) c 0x0622 0 (fun d => (cntRange d i).isSome) (fun d => toLe 8 (cntValue d i)) id

/-- R203: a counter without a mirror is written; no running instance waits on it. -/
noncomputable def collCounterWrite (c : AdminCtx) (i v : Nat) : Completion :=
  served (.collCounterWrite c i v) c 0x0623 0
    (fun d => (cntRange d i).any (fun r => r.2.mirror == none) && d.coll.insts.all (fun p => p.2.state != .running))
    (fun _ => []) (fun d => { d with coll := { d.coll with values := mset d.coll.values i v } })

/-- R204: the completions of a side of an endpoint are bound to a counter of its job slot. -/
noncomputable def collCounterBind (c : AdminCtx) (e dir i : Nat) : Completion :=
  served (.collCounterBind c e dir i) c 0x0624 0
    (fun d => (ep? d e).isSome && decide (dir ≤ 1) && i != 2 ^ 32 - 1 && cntOfEp d i e)
    (fun _ => []) (fun d => { d with coll := { d.coll with binds := mset d.coll.binds (e * 2 + dir) i } })

/-- R204: index none takes the binding away. -/
noncomputable def collCounterUnbind (c : AdminCtx) (e dir : Nat) : Completion :=
  served (.collCounterBind c e dir (2 ^ 32 - 1)) c 0x0624 0 (fun d => (ep? d e).isSome && decide (dir ≤ 1))
    (fun _ => []) (fun d => { d with coll := { d.coll with binds := mdel d.coll.binds (e * 2 + dir) } })

/-- R208, R209: outside NORMAL a counter is armed with a tag. -/
noncomputable def collCounterArm (c : AdminCtx) (i tag : Nat) : Completion :=
  served (.collCounterArm c i tag) c 0x0630 0 (fun d => curMode d != 0 && (cntRange d i).isSome)
    (fun _ => []) (fun d => { d with coll := { d.coll with armed := mset d.coll.armed i tag } })

/-- R209: an armed counter is disarmed. -/
noncomputable def collCounterDisarm (c : AdminCtx) (i : Nat) : Completion :=
  served (.collCounterDisarm c i) c 0x0631 0 (fun d => (mget d.coll.armed i).isSome)
    (fun _ => []) (fun d => { d with coll := { d.coll with armed := mdel d.coll.armed i } })

/-- R188, R208: outside NORMAL an ARM_FIRE strand with JOB, counter, tag and increment is queued for the device. -/
noncomputable def collArmFire (c : AdminCtx) (da ep job counter tag inc : Nat) : Effect :=
  { cmd := .collArmFire c da ep job counter tag inc
    pre := fun d => byMailbox (.collArmFire c da ep job counter tag inc) c 0 d && curMode d != 0 && decide (da < 2 ^ 17)
      && decide (ep < 2 ^ 20) && decide (counter < 2 ^ 18) && reachable d da && turnFree d da && msnFree d ⟨0, BitVec.ofNat 17 da, ep, 0⟩
    post := fun d d' => queuedTo d d' da false (fun h bs => h.kind = 8 ∧ h.op = 2 ∧ h.dstDa.toNat = da ∧ h.dstEp.toNat = ep
      ∧ h.job.toNat = job ∧ h.opwf 0 32 = counter ∧ h.opwf 32 32 = tag ∧ h.opwf 64 32 = inc ∧ h.mlast = true ∧ bs = []) }

/-- R201, R213: a running instance of a local member aborts with cause 9; the group keeps the record. Its endpoint is of
type UNORDERED, so it does not stop, and its completion is written at once. -/
noncomputable def collAbort (c : AdminCtx) (g e : Nat) : Effect :=
  { cmd := .collAbort c g e
    pre := fun d => byMailbox (.collAbort c g e) c 0 d && (mget d.coll.groups g).any (fun x => (rankOf d x e).isSome)
      && (d.coll.insts.find? (fun p => p.2.group == g && p.2.ep == e && p.2.state == .running)).any (fun p => inst? d p.1 == some p.2)
      && (ep? d e).any (fun x => x.typ == 1) && quietCq d e false && d.ept.parked == [] && d.xp.sendRecs == [] && d.xp.contents == []
      && d.xp.ops.all (fun o => match o.2.owner with | .ring _ => o.2.ep == e | _ => false)
    post := fun d d' => ∃ p, p ∈ d.coll.insts ∧ p.2.group = g ∧ p.2.ep = e ∧ p.2.state = .running ∧ d'.coll.insts = mdel d.coll.insts p.1
        ∧ (mget d'.coll.groups g).bind (fun x => mget x.aborts e) = some (9, p.2.pc, p.2.rank, p.2.num) }

end Sys2Proof.Claims
end

