-- ==== Sys2Proof/Claims/System.lean ====
section
/-! DEFINITION. What is claimed of the commands of identity, power, reset, boot, life cycle, firmware, faults, counters and
TALLY, and of the clusters. -/

namespace Sys2Proof.Claims

open Machine

/-! ### Identity (R440) -/

/-- R440: what IDENTIFY gives. -/
noncomputable def identify (c : AdminCtx) : Effect :=
  queried (.identify c) c 0x0101 64 (fun _ => true)
    (fun d data => data =
      padTo 32 (packVals [(8, d.nv.serial), (4, d.rtr.da + b2n d.rtr.daValid * 2 ^ 31), (1, 0), (1, fld d (GLB + 0x020) 0 8), (1, curMode d),
        (1, d.xp.incarnation), (4, d.boot.versions.getD 0 0), (4, d.boot.versions.getD 1 0), (1, fld d (GLB + 0x028) 3 1), (1, d.nv.lc)])
        ++ padTo 32 [0x45, 0x56, 0x2D, 0x4F, 0x53, 0x4E, 0x31, 0x32, 0x38])

/-- R14, R440: the capacities; engines in service are those of clusters in ACTIVE. -/
noncomputable def capsQuery (c : AdminCtx) : Effect :=
  queried (.capsQuery c) c 0x0102 68 (fun _ => true)
    (fun d data => ∃ hosts active spare : Nat,
      hosts = ((List.range 8).filter (fun h => !absentPort d h)).length
        ∧ active = (if enabled d EMBER then ((List.range 72).filter (isActive d)).length * 8 else 0)
        ∧ spare = ((List.range 72).filter (isSpare d)).length * 8
        ∧ data = ([128, hosts, 1048576, 65536, 131072, 16384, 262144, 65536, 131072, 4096, 1024, 262144, 64, 4096, active, spare, 1024]
            : List Nat).flatMap (toLe 4))

/-- R440: ECHO gives its 16 bytes. -/
noncomputable def echo (c : AdminCtx) (a b : Nat) : Completion :=
  served (.echo c a b) c 0x0103 0 (fun _ => true) (fun _ => toLe 8 a ++ toLe 8 b) id

/-- R440: commands replied on the path before this one, of these not SUCCESS, and this one in progress. -/
noncomputable def adminStats (c : AdminCtx) : Completion :=
  served (.adminStats c) c 0x0104 0 (fun _ => true)
    (fun d => let n := (aget d.adm.stats .mailbox).getD (0, 0); toLe 8 n.1 ++ toLe 4 n.2 ++ [1, 0, 0, 0]) id

/-! ### Power (R490 to R509) -/

/-- R509: what PWR_QUERY gives; the bits of each rail's STATUS_WORD are left open. -/
noncomputable def pwrQuery (c : AdminCtx) : Effect :=
  { cmd := .pwrQuery c, pre := fun d => byMailbox (.pwrQuery c) c 136 d
    post := fun d d' => ∃ w : Nat → Nat,
      d' = replyOut c 0x0D01 0 0 (packVals (d.pwr.rails.zipIdx.flatMap (fun r =>
          [(4, r.1.mv), (4, r.1.ma), (4, (r.1.celsius % 2 ^ 32).toNat), (2, w r.2)])
        ++ [(4, wordValue d (PWR + 0x030)), (4, wordValue d (PWR + 0x034))]
        ++ (List.range 4).map (fun k => (8, (reg d (PWR + 0x100 + 8 * k)).toNat)))) { d with free := d.free + 1 } }

/-- R508, R509: the limit of activity, the droop threshold and STRETCH. -/
noncomputable def pwrLimitSet (c : AdminCtx) (slew droop stretch on : Nat) : Completion :=
  served (.pwrLimitSet c slew droop stretch on) c 0x0D02 0
    (fun d => decide (10 ≤ slew) && decide (slew ≤ 40) && decide (20 ≤ droop) && decide (droop ≤ 60) && decide (stretch ≤ 2) && mayPersist d on 0x800)
    (fun _ => [])
    (fun d => kept on 0x800 (fun _ => [slew, droop, stretch])
      (setFld (PWR + 0x020) 16 2 stretch (setFld (PWR + 0x020) 8 6 droop (setFld (PWR + 0x020) 0 6 slew d))))

/-- R508, R509: the thermal thresholds, in order and at most 105 °C. -/
noncomputable def pwrThermalSet (c : AdminCtx) (warn t1 t2 on : Nat) : Completion :=
  served (.pwrThermalSet c warn t1 t2 on) c 0x0D03 0
    (fun d => decide (warn ≤ t1) && decide (t1 < t2) && decide (t2 ≤ 105) && mayPersist d on 0x801)
    (fun _ => [])
    (fun d => kept on 0x801 (fun _ => [warn, t1, t2])
      (setFld (PWR + 0x024) 16 8 t2 (setFld (PWR + 0x024) 8 8 t1 (setFld (PWR + 0x024) 0 8 warn d))))

/-- R508, R509: a rail's PMBus address and page, that no other rail has. -/
noncomputable def pwrRailMap (c : AdminCtx) (r a page on : Nat) : Completion :=
  served (.pwrRailMap c r a page on) c 0x0D04 0
    (fun d => decide (r ≤ 5) && decide (a ≤ 0x7F) && d.pwr.rails.zipIdx.all (fun x => x.2 == r || x.1.addr != some (a, page))
      && mayPersist d on (0x810 + r))
    (fun _ => [])
    (fun d => kept on (0x810 + r) (fun _ => [a, page])
      { d with pwr := { d.pwr with rails := d.pwr.rails.zipIdx.map (fun x => if x.2 = r then { x.1 with addr := some (a, page) } else x.1) } })

/-- R500, R509: PREWARN outputs are forced, in BRINGUP and DIAG; each pin that changes is driven. -/
noncomputable def pwrPrewarnForce (c : AdminCtx) (mask duration : Nat) : Completion :=
  served (.pwrPrewarnForce c mask duration) c 0x0D05 0
    (fun d => decide (mask ≤ 15) && decide (1 ≤ duration) && decide (duration ≤ 1000) && (curMode d == 1 || curMode d == 2))
    (fun _ => [])
    (fun d =>
      let on (x : Dev) (j : Nat) : Bool := bitOf (d.coll.prewarn ||| x.pwr.forced) j
      let d' := { d with pwr := { d.pwr with forced := mask } }
      { d' with out := d.out ++ ((List.range 4).filter (fun j => on d' j != on d j)).map (fun j => .pin "PREWARN" j (b2n (on d' j))) })

/-- R500: what is forced ends; each pin that changes is driven. -/
noncomputable def prewarnForceExpiry : Completion :=
  { cmd := .prewarnForceExpiry, pre := fun _ => true
    post := fun d =>
      let js := (List.range 4).filter (fun j => bitOf (d.coll.prewarn ||| d.pwr.forced) j != bitOf d.coll.prewarn j)
      { d with pwr := { d.pwr with forced := 0 }, out := d.out ++ js.map (fun j => .pin "PREWARN" j (b2n (bitOf d.coll.prewarn j))) } }

/-- R509: the reading of each sensor, a byte each. -/
noncomputable def pwrSensorRead (c : AdminCtx) : Effect :=
  queried (.pwrSensorRead c) c 0x0D06 96 (fun _ => true) (fun d data => data = d.pwr.temps.map (fun t => BitVec.ofInt 8 t))

/-- R501: the readings are kept, and PWR.STATE shows the stage; a stage that is reached from below is an occurrence. -/
noncomputable def thermalReading (ts : List Int) : Completion :=
  let temps (d : Dev) : List Int := ts.take 96 ++ d.pwr.temps.drop ts.length
  let hot (d : Dev) : Int := ((temps d).zipIdx.drop 1).foldl (fun b p => if b < p.1 then p.1 else b) ((temps d).headD 0)
  let th (d : Dev) : List Nat := [fld d (PWR + 0x024) 0 8, fld d (PWR + 0x024) 8 8, fld d (PWR + 0x024) 16 8]
  { cmd := .thermalReading ts
    pre := fun d => decide (hot d < 110) && unheard d (srcWin 2 5) && unheard d (srcWin 2 6)
    post := fun d =>
      let st := fld d (PWR + 0x030) 0 2
      let new := thermalStage st (th d) (hot d)
      let d := setFld (PWR + 0x030) 0 2 new { d with pwr := { d.pwr with temps := temps d } }
      let d := if st < 1 ∧ 1 ≤ new then noted (srcWin 2 5) d else d
      if st < 3 ∧ 3 ≤ new then noted (srcWin 2 6) d else d }

/-- R502: at 115 °C THERMTRIP_N is driven low. -/
noncomputable def thermtrip (t : Int) : Completion :=
  { cmd := .thermtrip t, pre := fun d => decide (115 ≤ t) && !d.pwr.trip
    post := fun d => { d with pwr := { d.pwr with trip := true }, out := d.out ++ [.pin "THERMTRIP_N" 0 0] } }

/-- R498: a droop below the threshold begins a stretch of CCLK and is counted; at which phase is left open. -/
noncomputable def droopDetect (mv : Nat) : Effect :=
  { cmd := .droopDetect mv, pre := fun d => decide (fld d (PWR + 0x020) 8 6 < mv) && d.pwr.droopSince.isNone && roomFor d (PWR + 0x100) 1
    post := fun d d' => ∃ phase < 15,
      d' = count (PWR + 0x100) { d with free := d.free + 1, pwr := { d.pwr with droopSince := some d.clk, droopAcc := phase } } }

/-- R498: the stretch ends. -/
noncomputable def droopEnd : Completion :=
  { cmd := .droopEnd, pre := fun _ => true, post := fun d => { d with pwr := { d.pwr with droopSince := none } } }

/-- R499: a stretch that lasts is an occurrence of DROOP. -/
noncomputable def droopLong : Completion :=
  { cmd := .droopLong, pre := fun d => d.pwr.droopSince.isSome && unheard d (srcWin 2 4), post := noted (srcWin 2 4) }

/-- R495: a change that fits what 100 ns allow is granted at once; no thermal stage caps it. -/
noncomputable def slewGranted (b : SlewBlock) (rise : Bool) (n : Nat) : Completion :=
  let k := slewKind b
  { cmd := .slewGrantRequest b rise n
    pre := fun d => decide (0 < n) && !d.pwr.held.any (fun h => h.2.1 == rise) && decide (fld d (PWR + 0x030) 0 2 < 2)
      && decide (sumOf ((d.pwr.grants.filter (fun g => decide (d.clk < g.1 + 100) && g.2.1 == rise)).map (·.2.2)) + n ≤ fld d (PWR + 0x020) 0 6 * 100)
    post := fun d =>
      let a := lget d.pwr.active k 0
      { d with
        pwr := { d.pwr with
          estimate := if rise then d.pwr.estimate + n else d.pwr.estimate - n
          grants := d.pwr.grants.filter (fun g => decide (d.clk < g.1 + 100)) ++ [(d.clk, rise, n)]
          active := if k < 4 then lset d.pwr.active k (if rise then a + n else a - n) else d.pwr.active }
        out := d.out ++ [.grant b n] } }

/-- R495: behind what is held, a change in the same direction is held. -/
noncomputable def slewHeld (b : SlewBlock) (rise : Bool) (n : Nat) : Completion :=
  { cmd := .slewGrantRequest b rise n, pre := fun d => decide (0 < n) && d.pwr.held.any (fun h => h.2.1 == rise)
    post := fun d => { d with pwr := { d.pwr with held := d.pwr.held ++ [(b, rise, n)], heldSeen := true } } }

/-- R494: a mapped rail after a poll: its readings, or one more failed transaction. -/
def polled (old : Rail) (x : RailReading) : Rail :=
  if old.addr.isNone then old
  else if x.answered then { old with mv := x.millivolt, ma := x.milliamp, celsius := x.celsius, fault := false, bads := 0, fails := 0 }
  else { old with fails := (old.fails + 1) % 3 }

/-- The rails after a poll. -/
def pollRails (xs : List RailReading) (d : Dev) : Dev :=
  { d with pwr := { d.pwr with rails := d.pwr.rails.zipIdx.map (fun r =>
      match xs[r.2]? with
      | some x => polled r.1 x
      | none => r.1) } }

/-- A poll finds nothing wrong: what answers is in range and shows no fault, and what does not has not failed twice. -/
def pollQuiet (xs : List RailReading) (d : Dev) : Bool :=
  enabled d PWR && decide (d.pwr.rails.length = 6) && d.pwr.rails.zipIdx.all (fun r =>
    match xs[r.2]? with
    | some x => r.1.addr.isNone || (if x.answered then railOk d r.2 x.millivolt && !x.fault else r.1.fails != 2)
    | none => true)

/-- R494: the poll of every second. -/
noncomputable def pmbusPoll (xs : List RailReading) : Completion := { cmd := .pmbusPoll xs, pre := pollQuiet xs, post := pollRails xs }

/-- R494: the poll that PM_ALERT asks for. -/
noncomputable def pmAlert (xs : List RailReading) : Completion := { cmd := .pmAlert xs, pre := pollQuiet xs, post := pollRails xs }

/-- R493: the voltage commanded goes one step of 5 mV to the target, if it is as far away. -/
noncomputable def avsStep (m : Nat) : Completion :=
  { cmd := .avsStep (some m), pre := fun d => enabled d PWR
    post := fun d =>
      let t := avsTarget d
      let v := d.pwr.vcore
      { setFld (PWR + 0x030) 26 1 1 (setFld (PWR + 0x034) 0 10 t (setFld (PWR + 0x034) 16 10 m d)) with
        pwr := { d.pwr with vcore := if v + 5 ≤ t then v + 5 else if t + 5 ≤ v then v - 5 else v } } }

/-- R494: a regulator that answered before and no longer does is shown in PWR.STATE. -/
noncomputable def avsSilent : Completion :=
  { cmd := .avsStep none, pre := fun d => enabled d PWR && fld d (PWR + 0x030) 26 1 == 1, post := setFld (PWR + 0x030) 26 1 0 }

/-! ### Resets (R461 to R465, R488, R492) -/

/-- R462: after a device-level reset all is at its reset value but what resets keep: the Peat store, the flash, the straps,
what the board drives; pins go to their reset levels. -/
def resetTo (kind : Nat) (straps : BitVec 4) (power trip : Bool) (d d' : Dev) : Prop :=
  ∃ pins : List Output,
    d' = { Dev.reset with
      clk := d.clk, free := d.free, out := d.out ++ pins, nv := d.nv
      hosts := (hostsFor (fun i => straps.getLsbD i)).map (fun p => (p.1, { p.2 with perst := (host d p.1).perst }))
      pwr := { Dev.reset.pwr with trip := trip }
      boot := { straps := straps, cause := kind, power := power, refA := d.boot.refA, refB := d.boot.refB } }

/-- R373, R461: a cold reset; each controller is split as persisted, as HOST_SPLIT_SET set it, or as its strap says. -/
noncomputable def coldReset (straps : BitVec 4) : Effect :=
  { cmd := .coldReset straps, pre := fun _ => true
    post := fun d d' => resetTo 1 (BitVec.ofNat 4 (fields ((List.range 4).map (fun i => (i, b2n (splitNow d straps i)))))) true d.pwr.trip d d' }

/-- R461: RESET#. -/
noncomputable def resetPinAssert : Effect :=
  { cmd := .resetPinAssert, pre := fun d => d.boot.power, post := fun d d' => resetTo 2 d.boot.straps true d.pwr.trip d d' }

/-- R465, R479: the reset that DEVICE_RESET or LC_CHANGE has made due. -/
noncomputable def deviceLevelReset (kind : Nat) : Effect :=
  { cmd := .deviceLevelReset, pre := fun d => d.boot.power && d.boot.due == some kind
    post := fun d d' => resetTo kind d.boot.straps true d.pwr.trip d d' }

/-- R488: the supply has recovered. -/
noncomputable def pfailRecovered : Effect :=
  { cmd := .pfailRecovered, pre := fun d => d.boot.pfail && d.boot.power, post := fun d d' => resetTo 4 d.boot.straps true d.pwr.trip d d' }

/-- R492: POWER_GOOD falls: the device is held in reset. -/
noncomputable def powerGoodFall : Effect :=
  { cmd := .powerGoodFall, pre := fun _ => true, post := fun d d' => resetTo d.boot.cause d.boot.straps false false d d' }

/-- R465: DEVICE_RESET replies; the reset is due. -/
noncomputable def deviceReset (c : AdminCtx) : Completion :=
  served (.deviceReset c) c 0x0E01 0 (fun _ => true) (fun _ => []) (fun d => { d with boot := { d.boot with due := some 3 } })

/-- R464: a port that is down: its pages take their reset values, its role stays, LANE and LINK are enabled, and its
bring-up starts. -/
noncomputable def portReset (c : AdminCtx) (n : Nat) : Effect :=
  { cmd := .portReset c n
    pre := fun d => byMailbox (.portReset c n) c 0 d && decide (n < 128) && (port d n).state == 0
      && ((port d n).lane.phase == 0 || (port d n).lane.phase == 7) && (port d n).role != 2 && (port d n).roleNext == (port d n).role
      && d.nv.lc != 5 && enabled d RTR && (port d n).lane.hold != .dieLink && !((port d n).lane.svcSync && (port d n).lane.clkOk)
    post := fun d d' =>
      let p := port d' n
      p.state = 0 ∧ p.role = (port d n).role ∧ p.lane.phase = 1 ∧ p.lane.hold = .none ∧ p.out = (Machine.portReset n).out
        ∧ p.link = (Machine.portReset n).link ∧ p.neighbour = none ∧ p.txNext = none
        ∧ enabled d' (LANE n) = true ∧ enabled d' (LINK n) = true ∧ enabled d' (RIN n) = false ∧ enabled d' (OSCH n) = false
        ∧ (∀ a, LANE n ≤ a → a < LANE n + 0x4000 → a ≠ LANE n → a ≠ LANE n + 4 → a ≠ LINK n → a ≠ LINK n + 4 →
            reg d' a = BitVec.ofNat 64 (regReset a) ∧ a ∉ d'.wraps)
        ∧ (∀ a, a < LANE n ∨ LANE n + 0x4000 ≤ a → reg d' a = reg d a)
        ∧ d'.mnt = (replyOut c 0x0E02 0 0 [] d).mnt }

/-- Where the page of a block that BLOCK_RESET takes stands, and its size (R463, R535). -/
def resetPage (blk k : Nat) : Nat := match blk with | 0x16 => CONG | 0x17 => DMA | 0x1A => MGF | 0x06 => TALLY | _ => XLAT k

/-- R463: a disabled block without objects is reset. -/
noncomputable def blockReset (c : AdminCtx) (blk k : Nat) : Effect :=
  { cmd := .blockReset c blk k
    pre := fun d => byMailbox (.blockReset c blk k) c 0 d && !enabled d (resetPage blk k) && d.mgf.stalled == [] && d.tally.stop.isNone
      && (match blk with
        | 0x16 => k == 0
        | 0x17 => k == 0 && d.dma.chs == []
        | 0x1A => k == 0
        | 0x06 => k == 0
        | 0x10 => decide (k < 4) && d.xl.slots.all (fun s => s.2.f.hp.val / 2 != k)
        | _ => false)
    post := fun d d' =>
      (∀ a, resetPage blk k ≤ a → a < resetPage blk k + 0x1000 → reg d' a = BitVec.ofNat 64 (regReset a) ∧ a ∉ d'.wraps)
        ∧ (∀ a, a < resetPage blk k ∨ resetPage blk k + 0x1000 ≤ a → reg d' a = reg d a)
        ∧ (blk = 0x17 → d'.dma = {}) ∧ (blk = 0x1A → d'.mgf = {}) ∧ (blk = 0x06 → d'.tally = {})
        ∧ (blk = 0x10 → mget d'.xl.inst k = none)
        ∧ (blk = 0x16 → ∀ da, (peer d' da).req.queue = (peer d da).req.queue ∧ (peer d' da).req.next = (peer d da).req.next
            ∧ (peer d' da).req.unacked = (peer d da).req.unacked)
        ∧ d'.mnt = (replyOut c 0x0E03 0 0 [] d).mnt }

/-- R19, R20: a permitted change of mode; to NORMAL without armed test commands, to RECOVERY without endpoints to
disable. -/
noncomputable def setMode (c : AdminCtx) (m : Nat) : Completion :=
  served (.setMode c m) c 0x0E10 0
    (fun d => decide (m ≤ 3) && modeStep (curMode d) m && lcMode d.nv.lc m && (m != 0 || d.coll.armed == [])
      && (m != 3 || d.ept.eps.all (fun x => x.2.state != .ready && x.2.state != .active)))
    (fun _ => []) (setFld (GLB + 0x010) 0 2 m)

/-- R475: the mode that the next boot enters. -/
noncomputable def bootModeSet (c : AdminCtx) (m : Nat) : Completion :=
  served (.bootModeSet c m) c 0x0E11 0 (fun _ => decide (m ≤ 2)) (fun _ => [])
    (fun d => recordWear 0x30 80 { d with nv := { d.nv with bootMode := m } })

/-! ### Life cycle and the Peat store (R477 to R489) -/

/-- R489: the state, a pending wipe, the serial number and MIN_SECURITY. -/
noncomputable def lcQuery (c : AdminCtx) : Effect :=
  queried (.lcQuery c) c 0x0E20 20 (fun _ => true)
    (fun d data => data = packVals [(1, d.nv.lc), (1, b2n d.nv.wipe), (8, d.nv.serial), (4, d.nv.minSecurity)])

/-- R478, R479: a transition writes the state and WIPE, and the reset is due. -/
noncomputable def lcChange (c : AdminCtx) (lc : Nat) : Completion :=
  served (.lcChange c lc) c 0x0E21 0
    (fun d => decide (lc ≤ 5) && (lc == 5 || (d.nv.lc == 0 && lc == 1 && d.nv.written) || (d.nv.lc == 1 && lc == 2) || (d.nv.lc == 2 && lc == 3)
      || (d.nv.lc == 3 && lc == 2) || ((d.nv.lc == 1 || d.nv.lc == 2 || d.nv.lc == 3) && lc == 4) || (d.nv.lc == 4 && lc == 1)))
    (fun _ => [])
    (fun d => recordWear 0 16 { d with nv := { d.nv with lc := lc, wipe := true }, boot := { d.boot with due := some 5 } })

/-- R477, R489: in BLANK the identity is written, the key hash from MBX.DATA. -/
noncomputable def identityWrite (c : AdminCtx) (serial addr : Nat) : Completion :=
  served (.identityWrite c serial addr) c 0x0E22 0 (fun d => d.nv.lc == 0 && decide (addr + 48 ≤ 0x10000)) (fun _ => [])
    (fun d => recordWear 0 16 { d with nv := { d.nv with serial := serial, keyHash := cellsRead d.mnt.data addr 48, written := true } })

/-- R477, R489: in BLANK and RMA, bytes of CALIBRATION are written from MBX.DATA. -/
noncomputable def calibrationWrite (c : AdminCtx) (off addr len : Nat) : Completion :=
  served (.calibrationWrite c off addr len) c 0x0E23 0
    (fun d => (d.nv.lc == 0 || d.nv.lc == 3) && decide (off + len ≤ 0x10000) && decide (addr + len ≤ 0x10000))
    (fun _ => []) (fun d => peatWrite (0x010000 + off) (cellsRead d.mnt.data addr len) d)

/-- R480, R483: the regions and the count of each page as the WEAR region holds it. -/
noncomputable def peatQuery (c : AdminCtx) : Effect :=
  queried (.peatQuery c) c 0x0E30 16448 (fun _ => true)
    (fun d data => data = ([(0x000000, 0x10000), (0x010000, 0x10000), (0x020000, 0x10000), (0x030000, 0x50000), (0x080000, 0x80000),
        (0x100000, 0x100000), (0x200000, 0x200000), (0x400000, 0x400000)] : List (Nat × Nat)).flatMap (fun r => toLe 4 r.1 ++ toLe 4 r.2)
      ++ cellsRead d.nv.peat 0x020000 16384)

/-- R485, R486: a page of a journal entry, the newest first. -/
noncomputable def journalRead (c : AdminCtx) (age page : Nat) : Effect :=
  queried (.journalRead c age page) c 0x0E31 4096 (fun d => (d.nv.journal[age]?).any (fun e => decide (page < e.2.2)))
    (fun d data => ∃ e, d.nv.journal[age]? = some e ∧ data = cellsRead d.nv.peat (0x200000 + 4096 * ((e.2.1 + page) % 512)) 4096)

/-- R480: words of the store of regions whose bytes the spec gives. -/
noncomputable def peatRead (c : AdminCtx) (off len : Nat) : Effect :=
  queried (.peatRead c off len) c 0x0E32 (if 16 < len then len else 0)
    (fun d => off % 8 == 0 && len % 8 == 0 && decide (0 < len) && decide (len ≤ 4096) && decide (off + len ≤ 0x800000)
      && (List.range len).all (fun i => !peatOpen d (off + i)))
    (fun d data => data = cellsRead d.nv.peat off len)

/-- R480, R483: host software writes words of TRAINING or SCRATCH. -/
noncomputable def peatWrite (c : AdminCtx) (off addr len : Nat) : Completion :=
  served (.peatWrite c off addr len) c 0x0E33 0
    (fun d => off % 8 == 0 && len % 8 == 0 && decide (0 < len) && decide (len ≤ 4096) && peatUser off len && d.nv.lc != 5 && decide (addr + len ≤ 0x10000))
    (fun _ => []) (fun d => Machine.peatWrite off (cellsRead d.mnt.data addr len) d)

/-! ### Firmware (R471 to R474) -/

/-- R473: a slot that does not run is written. -/
noncomputable def fwWrite (c : AdminCtx) (slot off addr len : Nat) : Completion :=
  served (.fwWrite c slot off addr len) c 0x0E40 0
    (fun d => decide (slot ≤ 1) && decide (len ≤ 4096) && decide (slot * 0x2000000 ≤ off) && decide (off + len ≤ (slot + 1) * 0x2000000)
      && !(d.boot.image && fld d (GLB + 0x028) 3 1 == slot) && d.nv.lc != 5 && decide (addr + len ≤ 0x10000))
    (fun _ => [])
    (fun d => { d with nv := { d.nv with flash := cellsWrite d.nv.flash off (cellsRead d.mnt.data addr len) }
                       boot := { d.boot with verified := mdel d.boot.verified (2 + slot) } })

/-- R471, R473: a slot is verified: the first check that it fails, or 0, and its versions. -/
noncomputable def fwVerify (c : AdminCtx) (slot : Nat) : Completion :=
  served (.fwVerify c slot) c 0x0E41 0 (fun _ => decide (slot ≤ 1))
    (fun d => packVals ((1, slotCode d slot) :: (slotVersions d slot).map (fun x => (4, x))))
    (fun d =>
      let v := (slotCode d slot, slotVersions d slot)
      { d with boot := { d.boot with verified := mset (mset d.boot.verified slot v) (2 + slot) v } })

/-- R472, R473: a slot that FW_VERIFY found good boots next, on trial. -/
noncomputable def fwActivate (c : AdminCtx) (slot : Nat) : Completion :=
  served (.fwActivate c slot) c 0x0E42 0
    (fun d => decide (slot ≤ 1) && (mget d.boot.verified (2 + slot)).any (fun v => v.1 == 0) && d.nv.lc != 5)
    (fun _ => []) (fun d => recordWear 0 16 { d with nv := { d.nv with preferred := slot == 1, trial := 1 } })

/-- R472: the trial ends, and MIN_SECURITY rises to the running image's. -/
noncomputable def fwCommit (c : AdminCtx) : Completion :=
  served (.fwCommit c) c 0x0E43 0 (fun d => d.nv.trial != 0 && d.nv.lc != 5) (fun _ => [])
    (fun d => recordWear 0 16 { d with nv := { d.nv with trial := 0, minSecurity := max d.nv.minSecurity (d.boot.versions.getD 2 0) } })

/-- R489: GLB.BOOT, the slot record and each slot's versions as last verified. -/
noncomputable def fwQuery (c : AdminCtx) : Effect :=
  queried (.fwQuery c) c 0x0E44 32 (fun _ => true)
    (fun d data =>
      let v (s : Nat) : List (Nat × Nat) := ((mget d.boot.verified s).elim [0, 0, 0] (·.2)).map (fun x => (4, x))
      data = packVals ([(4, (reg d (GLB + 0x028)).toNat), (1, b2n d.nv.preferred), (1, d.nv.trial)] ++ v 0 ++ v 1))

/-- R474: stepping A0 has personality 0. -/
noncomputable def personalitySet (c : AdminCtx) : Completion :=
  served (.personalitySet c 0) c 0x0E50 0 (fun d => d.nv.lc != 5) (fun _ => [])
    (fun d => setFld (GLB + 0x020) 8 8 0 (recordWear 0 16 { d with nv := { d.nv with personality := 0 } }))

/-! ### Boot and power failure (R17, R466 to R468, R484 to R487) -/

/-- R466, R468: a device just out of reset, without records to restore, without a trial and without a pending wipe, boots
the preferred slot's image, else the other's, if it passes R471, else none: the incarnation goes up by one, PWR and the
other blocks are enabled, EMBER with an image only, and the stage is READY, in the persisted mode or without an image
in RECOVERY. -/
noncomputable def bootSequence : Effect :=
  let p (d : Dev) : Nat := b2n d.nv.preferred
  { cmd := .bootSequence []
    pre := fun d => d.nv.recs == [] && !d.nv.wipe && d.nv.trial == 0 && decide (d.nv.lc < 3) && decide (d.nv.bootMode ≤ 2)
      && decide (d = { Dev.reset with clk := d.clk, free := d.free, out := d.out, nv := d.nv, pwr := { Dev.reset.pwr with trip := d.pwr.trip }
                                      boot := { straps := d.boot.straps, cause := d.boot.cause, power := true, refA := d.boot.refA, refB := d.boot.refB } })
    post := fun d d' =>
      let slot : Option Nat := if slotCode d (p d) = 0 then some (p d) else if slotCode d (1 - p d) = 0 then some (1 - p d) else none
      fld d' (GLB + 0x028) 0 3 = 6 ∧ d'.boot.image = slot.isSome ∧ (∀ s, slot = some s → d'.boot.versions = slotVersions d s)
        ∧ d'.nv.incarnation = (d.nv.incarnation + 1) % 256 ∧ d'.xp.incarnation = d'.nv.incarnation ∧ d'.nv.jLive = false
        ∧ curMode d' = (if slot.isSome then d.nv.bootMode else 3) ∧ fld d' (GLB + 0x024) 0 4 = d.boot.cause % 16
        ∧ ([GLB, KILN, PWR, TIME, FLT, TALLY, MATCH, EPT, COLL, CLASP, XPORT, CONG, DMA, MGF] : List Nat).all (enabled d') = true
        ∧ enabled d' EMBER = slot.isSome }

/-- R484, R485: PFAIL# is taken, and a journal entry is written with the cause 1. -/
noncomputable def pfailTaken : Effect :=
  { cmd := .pfailTaken, pre := fun d => !d.boot.pfail && d.boot.power && unheard d (srcWin 0 3)
    post := fun d d' =>
      let n := if fld d (GLB + 0x028) 0 3 < 4 then 1 else 4
      d'.boot = { d.boot with pfail := true } ∧ d'.nv.jSeq = d.nv.jSeq + 1 ∧ d'.nv.jLive = true
        ∧ d'.nv.journal.head? = some (d.nv.jSeq + 1, d.nv.jNext, n) ∧ d'.nv.jNext = (d.nv.jNext + n) % 512
        ∧ d'.coll.prewarn = 0 ∧ d'.pwr.forced = 0 }

/-- R17: REFCLK_A fails and REFCLK_B is there: an occurrence, and no port proposes a change where the frequencies agree or
none is in service. -/
noncomputable def refclkAFail (within : Bool) : Completion :=
  { cmd := .refclkAFail within
    pre := fun d => d.boot.refA && d.boot.refB && unheard d (srcWin 0 4) && (within || d.ports.all (fun p => p.2.state == 0))
    post := fun d => noted (srcWin 0 4) { d with boot := { d.boot with refA := false } } }

/-- R17: REFCLK_B fails and REFCLK_A is there. -/
noncomputable def refclkBFail : Completion :=
  { cmd := .refclkBFail, pre := fun d => d.boot.refB && d.boot.refA && unheard d (srcWin 0 5)
    post := fun d => noted (srcWin 0 5) { d with boot := { d.boot with refB := false } } }

/-! ### Errors and containment (R11, R13, R512, R519) -/

/-- R13: a single-bit error is corrected. -/
noncomputable def sramCorrected (b : SramBlock) (obj : Option Nat) : Completion :=
  { cmd := .sramEccError b false obj, pre := fun _ => true, post := id }

/-- R13: an uncorrectable error of a block's own memory is an occurrence of its SRAM_ECC source. -/
noncomputable def sramUncorrectable (b : SramBlock) (w : Nat) : Completion :=
  { cmd := .sramEccError b true none
    pre := fun d => decide ((b, w) ∈ [(SramBlock.kiln, 1), (.pwr, 2), (.time, 3), (.flt, 4), (.tally, 5), (.ept, 7), (.matching, 8), (.coll, 9),
      (.clasp, 10), (.xport, 11), (.cong, 12), (.dma, 13), (.rtr, 14), (.mgf, 16)]) && unheard d (srcWin w 1)
    post := noted (srcWin w 1) }

/-- R13, R43: an uncorrectable error in payload of the Hearth marks the bead with POISON wherever the strand waits. -/
noncomputable def sramPayload (id k : Nat) : Completion :=
  { cmd := .sramEccError .hearthPayload true (some (id * 64 + k)), pre := fun _ => decide (k < 64), post := poisonWaiting id k }

/-- R10, R11: a die link that has failed 16 retries in a row: they are counted, and its source occurs. -/
noncomputable def dieLinkFail (die : Fin 8) : Completion :=
  { cmd := .dieLinkFail die, pre := fun d => roomFor d (GLB + 0x108 + 16 * die.val) 16 && unheard d (srcWin 17 die)
    post := fun d => noted (srcWin 17 die) (countBy (GLB + 0x108 + 16 * die.val) 16 d) }

/-- R453, R454, R519: the containment action of an Ember source fences the cluster that met its condition; its takeover waits
in order. -/
noncomputable def containmentAction (i p : Nat) : Completion :=
  { cmd := .containmentAction (srcWin 15 i)
    pre := fun d => decide (1 ≤ i) && decide (i ≤ 4) && d.flt.contain.contains (srcWin 15 i)
      && d.flt.met.filter (fun x => x.1 == srcWin 15 i) == [(srcWin 15 i, p)] && isActive d p && (replacement d p).isSome
      && unheard d (srcWin 15 6) && roomFor d (EMBER + 0x350) 1 && roomFor d (EMBER + 0x348) 1
    post := fun d =>
      let cause := if i = 1 then 2 else if i = 2 then 1 else if i = 3 then 3 else 6
      let d := { d with flt := { d.flt with contain := d.flt.contain.erase (srcWin 15 i), met := d.flt.met.filter (fun x => x.1 != srcWin 15 i) } }
      let d := count (EMBER + 0x350) (if cause = 1 then count (EMBER + 0x348) d else d)
      noted (srcWin 15 6) { d with ember := { d.ember with fenced := mset d.ember.fenced p cause, queue := insertNum p d.ember.queue } } }

/-- R512, R520: a lockstep mismatch is fatal: FATAL# is driven low and a journal entry is written that names the source. -/
noncomputable def lockstep : Effect :=
  { cmd := .lockstep
    pre := fun d => sevOf d (srcWin 1 2) == 4 && d.flt.fatal.isNone && !d.boot.pfail && d.boot.power && unheard d (srcWin 0 3)
    post := fun d d' => d'.flt.fatal = some (srcWin 1 2) ∧ leaves d d' (.pin "FATAL#" 0 0) ∧ d'.nv.jSeq = d.nv.jSeq + 1 ∧ d'.nv.jLive = true
      ∧ stickyOf d' (srcWin 1 2) = true }

/-- R521, R522: the first change that waits is written to the LOG ring under the next SEQ, and can be read there. -/
noncomputable def kilnLogWrite : Effect :=
  { cmd := .kilnLogWrite, pre := fun d => d.flt.marks != [] && (decide (d.flt.logAt + 1000000000 ≤ d.clk) || decide (d.flt.logIn < 16384))
    post := fun d d' => ∃ m rest, d.flt.marks = m :: rest ∧ d'.flt.marks = rest ∧ d'.nv.logSeq = d.nv.logSeq + 1 ∧ d'.flt.dropPend = 0
      ∧ mget d'.nv.newest m.source = some (d.nv.logSeq + 1) ∧ logAt? d' (d.nv.logSeq + 1) = some (logRecord d m (d.nv.logSeq + 1)) }

/-- R483: the counts of page writes are brought up to date in WEAR. -/
noncomputable def wearUpdate : Effect :=
  let stored (d : Dev) (p : Nat) : Nat := leNat (cellsRead d.nv.peat (0x020000 + 8 * p) 8)
  { cmd := .wearUpdate
    pre := fun d => decide (d.nv.wear.map (·.1)).Nodup
      && d.nv.wear.all (fun p => decide (stored d p.1 + p.2 < 800000000))
    post := fun d d' => (∀ p, stored d' p = stored d p + (mget d.nv.wear p).getD 0) ∧ d'.flt = d.flt ∧ d'.regs = d.regs
      ∧ (∀ a, a < 0x020000 → cellsRead d'.nv.peat a 1 = cellsRead d.nv.peat a 1) }

/-! ### Clusters (R448 to R460) -/

/-- A source met by a cluster: at severity Contain the cluster is one that the action concerns. -/
def clusterMet (i p : Nat) (d : Dev) : Dev :=
  noted (srcWin 15 i) (if sevApplied d (srcWin 15 i) false = 3 then { d with flt := { d.flt with met := d.flt.met ++ [(srcWin 15 i, p)] } } else d)

/-- R452: the watchdog of a cluster in ACTIVE. -/
noncomputable def watchdog (p : Fin 72) : Completion :=
  { cmd := .watchdog p, pre := fun d => enabled d EMBER && isActive d p && unheard d (srcWin 15 2), post := clusterMet 2 p }

/-- R453: a firmware trap of a cluster in ACTIVE. -/
noncomputable def firmwareTrap (p : Fin 72) : Completion :=
  { cmd := .firmwareTrap p, pre := fun d => enabled d EMBER && isActive d p && unheard d (srcWin 15 3), post := clusterMet 3 p }

/-- R453: the mesh stop of a cluster that is not fenced. -/
noncomputable def filigreeStop (p : Fin 72) : Completion :=
  { cmd := .filigreeStop p, pre := fun d => !isFenced d p && unheard d (srcWin 15 4), post := clusterMet 4 p }

/-- R455, R456: a cluster in SPARE takes over for the first fenced cluster that waits: the version not in use maps the logical
clusters to it and is switched to. -/
noncomputable def takeover (p q : Nat) : Completion :=
  { cmd := .takeover, pre := fun d => d.ember.queue.head? == some p && !d.ember.switching && (spares d).head? == some q
    post := fun d =>
      let m := mapTo (servedBy d p) q (mapNow d)
      { d with ember := { d.ember with
          queue := d.ember.queue.tail, switching := true, inj := !d.ember.inj
          mapA := if d.ember.inj then m else d.ember.mapA, mapB := if d.ember.inj then d.ember.mapB else m } } }

/-- R455: the old version is made equal to the new one. -/
noncomputable def takeoverDrained : Completion :=
  { cmd := .takeoverDrained, pre := fun d => d.ember.switching
    post := fun d => { d with ember := { d.ember with mapA := mapNow d, mapB := mapNow d, switching := false } } }

/-! ### Faults (R514 to R522, R534) -/

/-- R534: the sticky bit, severity, floor and routes of a source, and the SEQ of its newest record. -/
noncomputable def fltQuery (c : AdminCtx) (s : Nat) : Effect :=
  queried (.fltQuery c s) c 0x0F01 0 (fun _ => decide (s ≤ 1023))
    (fun d data =>
      let n := (mget d.nv.newest s).getD 0
      data = packVals [(1, b2n (stickyOf d s)), (1, sevOf d s), (1, sevFloor s), (1, routeOf d (srcGroup s)), (4, if (logAt? d n).isSome then n else 0)])

/-- R516: the severity of sources that are implemented and have no higher floor. -/
noncomputable def fltSeveritySet (c : AdminCtx) (s n v on : Nat) : Effect :=
  let i : Instr := .fltSeveritySet c s n v on
  { cmd := i
    pre := fun d => byMailbox i c 0 d && decide (1 ≤ n) && decide (s + n ≤ 1024) && decide (v ≤ 4) && decide (on ≤ 1)
      && (List.range n).all (fun k => !srcReserved (s + k) && decide (sevFloor (s + k) ≤ v) && (on == 0 || !recordBusy d (0x1000 + s + k)))
    post := fun d d' => (∀ x, sevOf d' x = if s ≤ x ∧ x < s + n then v else sevOf d x)
      ∧ (on = 1 → ∀ x, s ≤ x → x < s + n → record? d' (0x1000 + x) = some [v]) ∧ (on = 0 → d'.nv = d.nv)
      ∧ d'.flt.sticky = d.flt.sticky ∧ d'.flt.route = d.flt.route ∧ d'.mnt = (replyOut c 0x0F02 0 0 [] d).mnt }

/-- R517: the host ports that a group is routed to. -/
noncomputable def fltRouteSet (c : AdminCtx) (g mask on : Nat) : Completion :=
  served (.fltRouteSet c g mask on) c 0x0F03 0 (fun d => decide (g ≤ 159) && mayPersist d on (0x2000 + g)) (fun _ => [])
    (fun d => kept on (0x2000 + g) (fun _ => [mask]) { d with flt := { d.flt with route := mset d.flt.route g mask } })

/-- R522, R534: records of the log from a SEQ on, in ascending SEQ. -/
noncomputable def faultLogRead (c : AdminCtx) (first n : Nat) : Effect :=
  let rs (d : Dev) : List Bytes := (List.range n).filterMap (fun k => logAt? d (max (max 1 (d.nv.logSeq + 1 - 16384)) first + k))
  { cmd := .faultLogRead c first n
    pre := fun d => byMailbox (.faultLogRead c first n) c (56 * (rs d).length) d && first != 2 ^ 32 - 1 && decide (1 ≤ n) && decide (n ≤ 64) && rs d != []
    post := fun d d' => d' = replyOut c 0x0F10 0 0 (rs d).flatten d }

/-! ### TALLY and counters (R523 to R530, R534) -/

/-- R527, R528: snapshots of a selection start, into a ring of the PF of a host port. -/
noncomputable def tallyStart (c : AdminCtx) (h ring m period groups lo hi hmask : Nat) : Completion :=
  let pm := lo + hi * 2 ^ 64
  let size := tallySize groups pm hmask
  served (.tallyStart c h ring m period groups lo hi hmask) c 0x0F20 0
    (fun d => decide (h ≤ 7) && decide (1 ≤ m) && decide (m ≤ 8) && decide (1 ≤ period) && decide (period ≤ 1000000) && fld d (TALLY + 0x020) 0 1 == 0
      && !absentPort d h && ring % 4096 == 0 && !hitsBar d h ring (2 ^ m * ((size + 4095) / 4096 * 4096)) && decide (groups < 2 ^ 12)
      && decide (size ≤ period * 8192) && decide (size ≤ 1048576) && tallyRegsOf groups pm hmask != [])
    (fun _ => [])
    (fun d =>
      let d := setFld (TALLY + 0x020) 8 4 m (setFld (TALLY + 0x020) 1 3 h (setFld (TALLY + 0x020) 0 1 1 d))
      let d := setFld (TALLY + 0x02C) 0 32 0 (setFld (TALLY + 0x028) 0 32 0 (setFld (TALLY + 0x024) 0 20 period d))
      { d with tally := { f := mkFunc h 0, ring := ring, m := m, period := period, groups := groups, pmask := pm, hmask := hmask } })

/-- R530: snapshots stop; none is being written. -/
noncomputable def tallyStop (c : AdminCtx) : Completion :=
  served (.tallyStop c) c 0x0F21 0 (fun d => fld d (TALLY + 0x020) 0 1 == 1 && d.tally.busyTo == 0) (fun _ => []) (setFld (TALLY + 0x020) 0 1 0)

/-- R527 to R529: at a tick a snapshot is written to its place in the ring: SEQ first, then the rest, the closing words last. -/
noncomputable def tallyTick : Completion :=
  let rs (d : Dev) : List Nat := tallyRegsOf d.tally.groups d.tally.pmask d.tally.hmask
  { cmd := .tallyTick
    pre := fun d => fld d (TALLY + 0x020) 0 1 == 1 && d.tally.busyTo == 0 && canWrite d d.tally.f (72 + 8 * (rs d).length)
      && (List.range 4).all (fun k => !(rs d).contains ([EMBER + 0x340, EMBER + 0x358, EMBER + 0x360, EMBER + 0x368].getD k 0))
    post := fun d =>
      let t := d.tally
      let q := (fld d (TALLY + 0x028) 0 32 + 1) % 2 ^ 32
      let b := tallyBytes q (rs d) d
      let size := b.length
      let place := t.ring + q % 2 ^ t.m * ((size + 4095) / 4096 * 4096)
      let d := hostWrite t.f place (b.take 4) false false d
      let d := hostWrite t.f (place + 4) ((b.drop 4).take (size - 12)) true false d
      let d := hostWrite t.f (place + size - 8) (b.drop (size - 8)) false false d
      { d with tally := { d.tally with skipped := 0, busyTo := d.clk + (size * 1000 + 8191) / 8192 } } }

/-- R530: at a tick during the writing of a snapshot none is taken: it is counted as skipped. -/
noncomputable def tallyMissed : Completion :=
  { cmd := .tallyTick
    pre := fun d => fld d (TALLY + 0x020) 0 1 == 1 && decide (d.clk < d.tally.busyTo) && !frozen d && !lostFn d d.tally.f && (fn d d.tally.f).bme
      && unheard d (srcWin 5 2)
    post := fun d => noted (srcWin 5 2) (setFld (TALLY + 0x02C) 0 32 (min (2 ^ 32 - 1) (fld d (TALLY + 0x02C) 0 32 + 1))
      { d with tally := { d.tally with skipped := min (2 ^ 32 - 1) (d.tally.skipped + 1) } }) }

/-- R524: a pair of counters is chained, or no longer; both start at 0 without WRAP flags. -/
noncomputable def counterChain (c : AdminCtx) (a on : Nat) : Completion :=
  served (.counterChain c a on) c 0x0F30 0
    (fun _ => (perfAt a).any (fun r => decide (r.idx % 2 = 0) && decide (r.idx + 1 < r.desc.n)) && decide (on ≤ 1)) (fun _ => [])
    (fun d =>
      let d := setReg (a + 8) 0 (setReg a 0 d)
      { d with wraps := d.wraps.filter (fun w => w != a && w != a + 8)
               chains := d.chains.filter (· != a) ++ (if on = 1 then [a] else []) })

/-- R525: the counters of a block's instance go to 0, and its WRAP flags; its other registers stay. -/
noncomputable def counterClear (c : AdminCtx) (b : BlockDesc) (k : Nat) : Effect :=
  let mine (a : Nat) : Bool := decide (b.base + k * b.stride ≤ a) && decide (a < b.base + k * b.stride + 0x1000 * b.pages)
  { cmd := .counterClear c b.id k
    pre := fun d => byMailbox (.counterClear c b.id k) c 0 d && blocks.contains b && decide (b.id < 0xF0) && decide (k < b.inst)
    post := fun d d' => (∀ a, mine a = true → isCounter a = true → reg d' a = 0) ∧ (∀ a, mine a = false ∨ isCounter a = false → reg d' a = reg d a)
      ∧ (∀ a, a ∈ d'.wraps ↔ a ∈ d.wraps ∧ mine a = false) ∧ d'.mnt = (replyOut c 0x0F31 0 0 [] d).mnt }

/-- R523: the WRAP flag of a counter is cleared, or with none every flag. -/
noncomputable def counterWrapClear (c : AdminCtx) (a : Nat) : Completion :=
  served (.counterWrapClear c a) c 0x0F32 0 (fun _ => a == 2 ^ 32 - 1 || (perfAt a).isSome) (fun _ => [])
    (fun d => { d with wraps := if a = 2 ^ 32 - 1 then [] else d.wraps.filter (· != a) })

end Sys2Proof.Claims
end

