-- ==== Sys2Proof/Certificates/Slice0/Obligations.lean ====
section
/-! DEFINITION. The statements for the provers: the rules that many commands share, then of every command of the table that
it completes, and with what effect. -/

open Sys2Proof Sys2Proof.Machine

/-! ### The block and its queue -/

/-- A step with a command at the front of the queue is the command's meaning with the rest of the queue; with an empty queue
it is one tick of the clock (DESIGN CHOICE, log 2). -/
def Obligations.StepTakesFront : Prop :=
  (∀ (c : Instr) (s : State) (rest : List Instr), step { s with pending := c :: rest } = exec c { s with pending := rest })
    ∧ ∀ s : State, s.pending = [] → step s = .next (s.commit (tick s.dev)) ∧ (s.commit (tick s.dev)).pending = []

/-- What reset leaves (R18, R27, R101, R215, R253, R351, R353): the mode is BRINGUP and boot has not begun, every fabric port is
DOWN with role UNUSED, fabric time is 0 in FREE_RUN, nothing is created, every Braid is CLOSED, and no register holds
anything but its reset value. -/
def Obligations.ResetValues : Prop :=
  State.reset.pending = [] ∧ curMode Dev.reset = 1 ∧ fld Dev.reset (GLB + 0x028) 0 3 = 0
    ∧ (∀ n : PortNo, (port Dev.reset n).role = 2 ∧ (port Dev.reset n).state = 0 ∧ (port Dev.reset n).lane.phase = 0)
    ∧ Dev.reset.time.state = .freeRun ∧ Dev.reset.time.ns = 0 ∧ Dev.reset.rtr.daValid = false
    ∧ (∀ e : Nat, ep? Dev.reset e = none) ∧ (∀ c : Nat, cq? Dev.reset c = none) ∧ (∀ s : Nat, slot? Dev.reset s = none)
    ∧ (∀ da : Nat, (peer Dev.reset da).state = .closed ∧ (peer Dev.reset da).rxReq.synced = false ∧ (peer Dev.reset da).rxRsp.synced = false)
    ∧ (∀ s : Nat, stickyOf Dev.reset s = false ∧ sevOf Dev.reset s = sevReset s)
    ∧ (∀ a : Nat, reg Dev.reset a = BitVec.ofNat 64 (regReset a))
    ∧ (fld Dev.reset (CONG + 0x020) 0 12 = 1000 ∧ reg Dev.reset (XLAT 0 + 0x020) = 0xACE1)

/-- The invariant of the addressed stores holds at reset. -/
def Obligations.StoresWfAtReset : Prop := StoresWf State.reset.dev

/-- Every step keeps the addressed stores (the Peat store, the flash, MBX.DATA) in their one form. -/
def Obligations.StoresWfKept : Prop := ∀ s t : State, StoresWf s.dev → step s = .next t → StoresWf t.dev

/-- The addressed stores: what is written is read back, every other byte stays, the one form is kept, and two stores in it
with the same bytes are the same list. -/
def Obligations.StoreReadBack : Prop :=
  (∀ (m : List Host.Cell) (a : Nat) (bs : Bytes), cellsWf m = true →
    cellsRead (cellsWrite m a bs) a bs.length = bs ∧ cellsWf (cellsWrite m a bs) = true
      ∧ ∀ b, b < a ∨ a + bs.length ≤ b → cellAt (cellsWrite m a bs) b = cellAt m b)
    ∧ ∀ m n : List Host.Cell, cellsWf m = true → cellsWf n = true → (∀ a, cellAt m a = cellAt n a) → m = n

/-! ### Beads, headers and strands -/

/-- R37: the trailer of a bead holds T.KIND, T.LAST, T.POISON and T.CRC in these bits, and is read back so; T.LAST of the idle
bead is 1 and its T.KIND 0; the T.CRC of a stomped bead is the inverse of the bead's CRC. -/
def Obligations.TrailerLayout : Prop :=
  (∀ (k l p : Bool) (c : BitVec 13),
    (mkTrailer k l p c).getLsbD 0 = k ∧ (mkTrailer k l p c).getLsbD 1 = l ∧ (mkTrailer k l p c).getLsbD 2 = p
      ∧ ∀ i < 13, (mkTrailer k l p c).getLsbD (3 + i) = c.getLsbD i)
    ∧ (∀ b : Bead, b.kind = b.trailer.getLsbD 0 ∧ b.last = b.trailer.getLsbD 1 ∧ b.poisoned = b.trailer.getLsbD 2
      ∧ (∀ i < 13, b.crc.getLsbD i = b.trailer.getLsbD (3 + i)) ∧ b.stomp.crc = b.computed ^^^ 0x1FFF)
    ∧ idleBead.last = true ∧ idleBead.kind = false ∧ idleBead.poisoned = false

/-- R46: bit n of the header lies in content byte n / 8 at bit n mod 8, for every bit of every field. -/
def Obligations.HeaderLayout : Prop :=
  ∀ h : Hdr, h.encode.length = 64 ∧ ∀ f ∈ Claims.headerTable h, ∀ i < f.2.1, Claims.headerBit h.encode (f.1 + i) = f.2.2.testBit i

/-- R46: a header is read back from the bead that carries it, with every field at every value. -/
def Obligations.HeaderRoundTrip : Prop :=
  (∀ h : Hdr, Hdr.decode h.encode = h) ∧ ∀ bs : Bytes, bs.length = 64 → (Hdr.decode bs).encode = bs

/-- R44: the beads of a strand: how many they are, where each byte of the payload lies, what lies beyond LEN, and where T.LAST
is 1; a trimmed strand is its header alone and keeps LEN. -/
def Obligations.StrandStructure : Prop :=
  ∀ (h : Hdr) (cs : List Chunk), (Claims.bytesOf cs).length = h.len.toNat → h.len.toNat ≤ 4096 →
    let bs := (mkStrand h cs).allBeads
    (h.trim = false →
      bs.length = 1 + ceilDiv h.len.toNat 64 ∧ 1 ≤ bs.length ∧ bs.length ≤ 65
        ∧ (∀ b ∈ bs, b.content.length = 64)
        ∧ (∀ i < bs.length, (bs.getD i default).kind = decide (i = 0) ∧ (bs.getD i default).last = decide (i + 1 = bs.length))
        ∧ (∀ k < h.len.toNat, (bs.getD (k / 64 + 1) default).content.getD (k % 64) 0 = (Claims.bytesOf cs).getD k 0)
        ∧ (∀ k, h.len.toNat ≤ k → k < 64 * ceilDiv h.len.toNat 64 → (bs.getD (k / 64 + 1) default).content.getD (k % 64) 0 = 0)
        ∧ (mkStrand h cs).payload = Claims.bytesOf cs)
      ∧ (h.trim = true → bs = [(mkStrand h cs).headBead] ∧ (mkStrand h cs).headBead.last = true ∧ (mkStrand h cs).hdr.len = h.len)

/-- R39, R40, R41, R47: every bead of a strand is good as its source makes it, and its header bead stays good whatever the mutable
fields become, a trimmed header included. -/
def Obligations.BeadsAreGood : Prop :=
  ∀ (h : Hdr) (cs : List Chunk),
    (∀ b ∈ (mkStrand h cs).allBeads, b.classify = .good)
      ∧ ∀ (lsn : BitVec 20) (ttl : BitVec 5) (defl : BitVec 2) (trim : Bool) (ce : BitVec 2) (vn : Bool),
          ({ mkStrand h cs with hdr := Claims.remade (mkStrand h cs).hdr lsn ttl defl trim ce vn } : Strand).headBead.classify = .good

/-- R37, R41, R42: a bead without T.POISON, good or bad, that a router stomps is found stomped by the next receiver; its content and its
other trailer bits stay, and in a good bead every bit of T.CRC is inverted; the idle bead is good and the end bead stomped. That a bad
bead gets the inverse of its CRC is the model's reading (DEDUCED, log 53). -/
def Obligations.StompedBeads : Prop :=
  (∀ b : Bead, b.stomp.content = b.content ∧ b.stomp.kind = b.kind ∧ b.stomp.last = b.last ∧ b.stomp.poisoned = b.poisoned
      ∧ b.stomp.computed = b.computed ∧ (b.poisoned = false → b.stomp.classify = .stomped)
      ∧ (b.classify = .good → b.poisoned = false → b.stomp.trailer = b.trailer ^^^ 0xFFF8))
    ∧ idleBead.classify = .good ∧ endBead.classify = .stomped

/-! ### Words and rates -/

/-- R129: the new word of each atomic operation; FETCH_ADD_F64 quiets the NaN of the word, else that of the operand, gives the
default NaN for infinities of opposite sign, and keeps a word that is not a NaN or -0 when +0 is added. -/
def Obligations.AtomicWords : Prop :=
  ∀ w a b : BitVec 64,
    atomicNew 0 w.toNat a.toNat b.toNat = some (w + a).toNat
      ∧ atomicNew 1 w.toNat a.toNat b.toNat = (if w = a then some b.toNat else none)
      ∧ atomicNew 2 w.toNat a.toNat b.toNat = some a.toNat
      ∧ atomicNew 3 w.toNat a.toNat b.toNat = some (w &&& a).toNat
      ∧ atomicNew 4 w.toNat a.toNat b.toNat = some (w ||| a).toNat
      ∧ atomicNew 5 w.toNat a.toNat b.toNat = some (w ^^^ a).toNat
      ∧ (fp64.isNan w.toNat = true → atomicNew 6 w.toNat a.toNat b.toNat = some (w ||| 0x8000000000000).toNat)
      ∧ (fp64.isNan w.toNat = false → fp64.isNan a.toNat = true → atomicNew 6 w.toNat a.toNat b.toNat = some (a ||| 0x8000000000000).toNat)
      ∧ (w = 0x7FF0000000000000 ∧ a = 0xFFF0000000000000 ∨ w = 0xFFF0000000000000 ∧ a = 0x7FF0000000000000 →
          atomicNew 6 w.toNat a.toNat b.toNat = some 0x7FF8000000000000)
      ∧ (fp64.isNan w.toNat = false → w ≠ 0x8000000000000000 → atomicNew 6 w.toNat 0 b.toNat = some w.toNat)

/-- R206: a counter has reached a threshold when the difference, taken as signed, is 0 or more; one more than 2^63 ahead counts as
reached. -/
def Obligations.ThresholdReached : Prop :=
  ∀ c h : BitVec 64, (reached c.toNat h.toNat = true ↔ 0 ≤ (c - h).toInt) ∧ (2 ^ 63 < (h - c).toNat → reached c.toNat h.toNat = true)

/-- R251: what each congestion event does to a Braid's rate state; a trim notice or timeout within CI of an echo cut brings the
rate down to half of its value before that cut; an echo within CI of any cut changes neither RATE nor ALPHA. -/
def Obligations.CongestionCuts : Prop :=
  ∀ (d : Dev) (s : SendHalf),
    let g := fld d (CONG + 0x020) 28 4
    ((rateEcho d s).lastEvent = d.clk ∧ (rateEcho d s).aiAt = d.clk ∧ (rateCut d s).lastEvent = d.clk ∧ (rateCut d s).aiAt = d.clk)
      ∧ (Claims.mayCut d s →
          (rateEcho d s).alpha = s.alpha - s.alpha / 2 ^ g + 1024 / 2 ^ g ∧ (rateEcho d s).rBefore = s.rate
            ∧ (rateEcho d s).rate = max 10 (s.rate * (2048 - (rateEcho d s).alpha) / 2048) ∧ (rateEcho d s).lastCut = d.clk
            ∧ (rateCut d s).alpha = s.alpha ∧ (rateCut d s).rBefore = s.rate ∧ (rateCut d s).rate = max 10 (s.rate / 2)
            ∧ (rateCut d s).lastCut = d.clk)
      ∧ (¬ Claims.mayCut d s →
          (rateEcho d s).alpha = s.alpha ∧ (rateEcho d s).rate = s.rate ∧ (rateEcho d s).rBefore = s.rBefore ∧ (rateEcho d s).lastCut = s.lastCut
            ∧ (rateCut d s).alpha = s.alpha ∧ (rateCut d s).rate = max 10 (min s.rate (s.rBefore / 2)) ∧ (rateCut d s).rBefore = s.rBefore
            ∧ (rateCut d s).lastCut = s.lastCut)
      ∧ ∀ d' : Dev, ¬ Claims.mayCut d' (rateEcho d s) →
          (rateEcho d' (rateEcho d s)).rate = (rateEcho d s).rate ∧ (rateEcho d' (rateEcho d s)).alpha = (rateEcho d s).alpha
            ∧ (Claims.mayCut d s → (rateCut d' (rateEcho d s)).rate ≤ max 10 (s.rate / 2))

/-- R251, R252: RATE stays from 10 to 4,000 and ALPHA at most 1,024, through every congestion event and every firing of the
increase timer; an increase never lowers the rate and a cut never raises it. -/
def Obligations.RateStaysInRange : Prop :=
  ∀ (d : Dev) (s : SendHalf), Claims.rateOk s →
    Claims.rateOk (rateEcho d s) ∧ Claims.rateOk (rateCut d s) ∧ Claims.rateOk (rateIncrease d s)
      ∧ (rateEcho d s).rate ≤ s.rate ∧ (rateCut d s).rate ≤ s.rate ∧ s.rate ≤ (rateIncrease d s).rate

/-! ### Host memory, completions and interrupts -/

/-- R375: writes are split at Max_Payload_Size and reads at Max_Read_Request_Size, both at 4 KiB boundaries; the parts cover the
range in order, and the TLPs that leave are those parts. -/
def Obligations.TransfersAreSplit : Prop :=
  (∀ most addr len : Nat, 0 < most → Claims.parted most addr len (tlps most addr len))
    ∧ (∀ (d : Dev) (f : Func) (addr : Nat) (bs : Bytes) (ro poison : Bool),
        mayIssue d f = true → frozen d = false → (fn d f).bme = true →
        (hostWrite f addr bs ro poison d).out
          = d.out ++ Claims.writesOf f (ro && (fn d f).ro) poison (tlps (fn d (pf f.hp)).mps addr bs.length) bs)
    ∧ (∀ (d : Dev) (f : Func) (addr len : Nat) (use : Use),
        mayIssue d f = true → (fn d f).bme = true → 0 < len →
        outstanding d f.hp + (tlps (fn d (pf f.hp)).mrrs addr len).length ≤ 768 →
        (hostRead f addr len use d).out = d.out ++ Claims.readsOf f d.nextReq (tlps (fn d (pf f.hp)).mrrs addr len))

/-- R375: no more than 768 requests of a host port are outstanding, through every read, every atomic and every completion. -/
def Obligations.OutstandingBounded : Prop :=
  ∀ d : Dev, Claims.withinTags d →
    (∀ (f : Func) (rs : List (Nat × Nat)) (use : Use), Claims.withinTags (hostReadMany f rs use d))
      ∧ (∀ (f : Func) (addr o a b : Nat) (use : Use), Claims.withinTags (hostAtomic f addr o a b use d))
      ∧ ∀ (id : Nat) (st : RdStatus) (bs : Bytes), Claims.withinTags (npComplete id st bs d)

/-- R79, R80, R81: a completion entry goes to its place in the queue with the PHASE of its pass, as bytes 0 to 30 and then byte 31,
or as one write with WHOLE_WRITE, without Relaxed Ordering. -/
def Obligations.CompletionWrites : Prop :=
  ∀ (d : Dev) (c : Nat) (e : Cqe) (x : Cq), cq? d c = some x → Claims.entriesFit d x → x.armed = false →
    let bs := e.encode (decide (x.wr / 2 ^ x.n % 2 = 0))
    let a := x.base + 32 * (x.wr % 2 ^ x.n)
    bs.length = 32 ∧ leAt bs 7 1 = e.status % 256 ∧ leAt bs 16 4 = e.bytes % 2 ^ 32 ∧ leAt bs 20 8 = e.data % 2 ^ 64
      ∧ bitOf (leAt bs 31 1) 7 = decide (x.wr / 2 ^ x.n % 2 = 0)
      ∧ (cqPut c e d).out = d.out ++ (if x.whole then [.hostWrite x.f a bs false false]
          else [.hostWrite x.f a (bs.take 31) false false, .hostWrite x.f (a + 31) (bs.drop 31) false false])
      ∧ cq? (cqPut c e d) c = some { x with wr := (x.wr + 1) % 2 ^ 32 }

/-- R383: a requested vector that is blocked only becomes pending, and requests merge; one that is not sends its message, a 4-byte
write without Relaxed Ordering, and is not pending. -/
def Obligations.VectorRequests : Prop :=
  ∀ (d : Dev) (f : Func) (v : Nat),
    let e := (mget (fn d f).msix v).getD {}
    (e.mask = true ∨ (fn d f).fnMask = true ∨ (fn d f).msixEn = false ∨ (fn d f).bme = false →
      (msixRequest f v d).out = d.out ∧ mget (fn (msixRequest f v d) f).msix v = some { e with pend := true }
        ∧ msixRequest f v (msixRequest f v d) = msixRequest f v d)
      ∧ (e.mask = false → (fn d f).fnMask = false → (fn d f).msixEn = true → (fn d f).bme = true →
          mayIssue d f = true → frozen d = false → 4 ≤ (fn d (pf f.hp)).mps → e.addr % 4 = 0 →
          (msixRequest f v d).out = d.out ++ [.hostWrite f e.addr (toLe 4 e.data) false false]
            ∧ mget (fn (msixRequest f v d) f).msix v = some { e with pend := false })

/-! ### Event sources, counters and rights -/

/-- R514: what an occurrence does at each severity: nothing when ignored; else the sticky bit is set, a change of it is marked for
the log, a FAULT event is posted at Notify or Contain only at such a change, and the containment action and the fatal path are
taken every time. -/
def Obligations.OccurrenceHandled : Prop :=
  ∀ (d : Dev) (s : Nat) (forced : Bool), srcReserved s = false →
    let v := sevApplied d s forced
    let d' := occur s forced d
    let was := stickyOf d s
    (v = 0 → d' = d)
      ∧ (v ≠ 0 → stickyOf d' s = true ∧ (∀ r, r ≠ s → stickyOf d' r = stickyOf d r)
          ∧ d'.flt.marks = d.flt.marks ++ (if was then [] else [{ source := s, edge := true, forced := forced, sev := v }])
          ∧ d'.work = d.work ++ (if (v = 2 ∨ v = 3) ∧ was = false then [.faultEvent s v forced] else []) ++ (if v = 4 then [.fatal s] else [])
          ∧ d'.flt.contain = d.flt.contain ++ (if v = 3 then [s] else [])
          ∧ d' = { d with work := d'.work, flt := { d.flt with sticky := d'.flt.sticky, marks := d'.flt.marks, contain := d'.flt.contain } })
      ∧ (v ≠ 0 → stickyOf (clearSticky [s] d') s = false)

/-- R523, R524: a performance counter counts modulo 2^48 and sets its WRAP flag when it wraps; a chained pair counts modulo 2^96, and
its odd counter counts nothing of its own; a link error counter holds its largest value. -/
def Obligations.CountersCount : Prop :=
  ∀ (d : Dev) (a n : Nat), 0x200 ≤ a % 4096 → a % 4096 + 8 < 4096 → (reg d a).toNat < 2 ^ 48 → n < 2 ^ 48 →
    (chainedOdd d a = true → countBy a n d = d)
      ∧ (chainedOdd d a = false → d.chains.contains a = false →
          (reg (countBy a n d) a).toNat = ((reg d a).toNat + n) % 2 ^ 48
            ∧ ((countBy a n d).wraps.contains a = (d.wraps.contains a || decide (2 ^ 48 ≤ (reg d a).toNat + n))))
      ∧ (chainedOdd d a = false → d.chains.contains a = true → (reg d (a + 8)).toNat < 2 ^ 48 →
          (reg (countBy a n d) a).toNat + 2 ^ 48 * (reg (countBy a n d) (a + 8)).toNat
              = ((reg d a).toNat + 2 ^ 48 * (reg d (a + 8)).toNat + n) % 2 ^ 96
            ∧ ((countBy a n d).wraps.contains a
                = (d.wraps.contains a || decide (2 ^ 96 ≤ (reg d a).toNat + 2 ^ 48 * (reg d (a + 8)).toNat + n))))
      ∧ ((reg d a).toNat ≤ 0xFFFFFFFF → (reg (countErr a n d) a).toNat = min 0xFFFFFFFF ((reg d a).toNat + n))

/-- R418, R432 (order 3): every admin command that is not open to VFs is refused on a VF's admin ring with NOT_PERMITTED, and does
nothing but the reply. -/
def Obligations.VfCommandsRefused : Prop :=
  ∀ (i : Instr) (p : AdminPart) (m : AdmCmd) (f : Func) (s : State),
    i.adminPart = some p → m ∈ adminCmds → m.op = p.op → m.vf = false → p.wellFormed = true →
    p.ctx.path = .ring f → f.fn ≠ 0 → p.ctx.intr = false →
    atRest s.dev = true → pathExists s.dev (.ring f) = true → canWrite s.dev f 33 = true →
    exec i s = .next { s with dev := replyOut p.ctx p.op 5 0 [] s.dev }

/-! ### What each command of the table does -/

/-- The commands of endpoint blocks, endpoints, CQs and EQs complete with their effect: for each named claim, on every state
whose device is at rest and meets what the claim asks, the command answers a next state with the claimed effect. -/
def Obligations.EndpointCommands : Prop :=
  (∀ (c : AdminCtx) (b h v job backing : Nat), (Claims.epBlockAssign c b h v job backing).Holds)
    ∧ (∀ (c : AdminCtx) (b : Nat), (Claims.epBlockRelease c b).Holds)
    ∧ (∀ (c : AdminCtx) (e typ sBase sN rBase rN sCq rCq eq pin poll : Nat), (Claims.epCreate c e typ sBase sN rBase rN sCq rCq eq pin poll).Holds)
    ∧ (∀ (c : AdminCtx) (e : Nat), (Claims.epEnable c e).Holds)
    ∧ (∀ (c : AdminCtx) (e : Nat), (Claims.epDisable c e).Holds)
    ∧ (∀ (c : AdminCtx) (e : Nat), (Claims.epReset c e).Holds)
    ∧ (∀ (c : AdminCtx) (e : Nat), (Claims.epDestroy c e).Holds)
    ∧ (∀ (c : AdminCtx) (e : Nat), (Claims.epQuery c e).Holds)
    ∧ (∀ (c : AdminCtx) (cq f base n head eq arm whole : Nat), (Claims.cqCreate c cq f base n head eq arm whole).Holds)
    ∧ (∀ (c : AdminCtx) (cq : Nat), (Claims.cqReset c cq).Holds)
    ∧ (∀ (c : AdminCtx) (cq : Nat), (Claims.cqDestroy c cq).Holds)
    ∧ (∀ (c : AdminCtx) (f q base n head vector count time : Nat), (Claims.eqCreate c f q base n head vector count time).Holds)
    ∧ (∀ (c : AdminCtx) (f q count time : Nat), (Claims.eqModerate c f q count time).Holds)
    ∧ (∀ (c : AdminCtx) (f q : Nat), (Claims.eqDestroy c f q).Holds)

/-- The commands of job slots, translation and DMA channels complete with their effect: for each named claim, on every state
whose device is at rest and meets what the claim asks, the command answers a next state with the claimed effect. -/
def Obligations.TranslationAndDmaCommands : Prop :=
  (∀ (c : AdminCtx) (job h v root mrBase m : Nat), (Claims.jobSlotCreate c job h v root mrBase m).Holds)
    ∧ (∀ (c : AdminCtx) (s : Nat), (Claims.jobSlotDestroy c s).Holds)
    ∧ (∀ (c : AdminCtx) (s root : Nat), (Claims.rootSet c s root).Holds)
    ∧ (∀ (c : AdminCtx) (s g iova size bus ctl rsv : Nat), (Claims.segSet c s g iova size bus ctl rsv).Holds)
    ∧ (∀ (c : AdminCtx) (s iova pages scope : Nat), (Claims.xlatInvalidate c s iova pages scope).Holds)
    ∧ (∀ (c : AdminCtx) (s : Nat), (Claims.xlatInvalidateSlot c s).Holds)
    ∧ (∀ (c : AdminCtx) (s r : Nat), (Claims.mrInvalidate c s r).Holds)
    ∧ (∀ (c : AdminCtx) (ch h slotA ring n ord tc prio : Nat), (Claims.dmaChCreate c ch h slotA ring n ord tc prio).Holds)
    ∧ (∀ (c : AdminCtx) (ch t da ep rkey : Nat), (Claims.dmaChTargetSet c ch t da ep rkey).Holds)
    ∧ (∀ (c : AdminCtx) (ch : Nat), (Claims.dmaChStart c ch).Holds)
    ∧ (∀ (c : AdminCtx) (ch : Nat), (Claims.dmaChStop c ch).Holds)
    ∧ (∀ (c : AdminCtx) (ch : Nat), (Claims.dmaChReset c ch).Holds)
    ∧ (∀ (c : AdminCtx) (ch : Nat), (Claims.dmaChDestroy c ch).Holds)
    ∧ (∀ (c : AdminCtx) (ch : Nat), (Claims.dmaChQuery c ch).Holds)
    ∧ (∀ (c : AdminCtx) (ch prio : Nat), (Claims.dmaChPrioSet c ch prio).Holds)

/-- The commands of Clasp locks and of tag matching complete with their effect: for each named claim, on every state whose
device is at rest and meets what the claim asks, the command answers a next state with the claimed effect. -/
def Obligations.ClaspAndMatchingCommands : Prop :=
  (∀ (c : AdminCtx) (n s fairness members : Nat), (Claims.claspDomainCreate c n s fairness members).Holds)
    ∧ (∀ (c : AdminCtx) (n : Nat), (Claims.claspDomainDestroy c n).Holds)
    ∧ (∀ (c : AdminCtx) (i s iova : Nat), (Claims.claspQuery c i s iova).Holds)
    ∧ (∀ (c : AdminCtx) (i : Nat), (Claims.claspForceRelease c i).Holds)
    ∧ (∀ (c : AdminCtx) (i da ep : Nat), (Claims.claspWaiterRemove c i da ep).Holds)
    ∧ (∀ (c : AdminCtx) (e recBase uBase b spBase sz : Nat), (Claims.matchCtxCreate c e recBase uBase b spBase sz).Holds)
    ∧ (∀ (c : AdminCtx) (e : Nat), (Claims.matchCtxDestroy c e).Holds)
    ∧ (∀ (c : AdminCtx) (e : Nat), (Claims.matchQuery c e).Holds)
    ∧ (∀ (c : AdminCtx) (e comm rank tag low any : Nat), (Claims.matchProbe c e comm rank tag low any).Holds)

/-- The commands of collective groups, Ricks and completion counters complete with their effect: for each named claim, on
every state whose device is at rest and meets what the claim asks, the command answers a next state with the claimed
effect. -/
def Obligations.CollectiveCommands : Prop :=
  (∀ (c : AdminCtx) (g key s n table scratch size : Nat), (Claims.collGroupCreate c g key s n table scratch size).Holds)
    ∧ (∀ (c : AdminCtx) (g : Nat), (Claims.collGroupDestroy c g).Holds)
    ∧ (∀ (c : AdminCtx) (g : Nat), (Claims.collGroupQuery c g).Holds)
    ∧ (∀ (c : AdminCtx) (i image len : Nat), (Claims.collRickLoad c i image len).Holds)
    ∧ (∀ (c : AdminCtx) (i : Nat), (Claims.collRickUnload c i).Holds)
    ∧ (∀ (c : AdminCtx) (i : Nat), (Claims.collRickQuery c i).Holds)
    ∧ (∀ (c : AdminCtx) (s count : Nat), (Claims.collCounterAlloc c s count).Holds)
    ∧ (∀ (c : AdminCtx) (first count : Nat), (Claims.collCounterFree c first count).Holds)
    ∧ (∀ (c : AdminCtx) (i : Nat), (Claims.collCounterRead c i).Holds)
    ∧ (∀ (c : AdminCtx) (i v : Nat), (Claims.collCounterWrite c i v).Holds)
    ∧ (∀ (c : AdminCtx) (e dir i : Nat), (Claims.collCounterBind c e dir i).Holds)
    ∧ (∀ (c : AdminCtx) (e dir : Nat), (Claims.collCounterUnbind c e dir).Holds)
    ∧ (∀ (c : AdminCtx) (i tag : Nat), (Claims.collCounterArm c i tag).Holds)
    ∧ (∀ (c : AdminCtx) (i : Nat), (Claims.collCounterDisarm c i).Holds)
    ∧ (∀ (c : AdminCtx) (da ep job counter tag inc : Nat), (Claims.collArmFire c da ep job counter tag inc).Holds)
    ∧ (∀ (c : AdminCtx) (g e : Nat), (Claims.collAbort c g e).Holds)

/-- The commands of Braids, shapers, schedulers and marking complete with their effect: for each named claim, on every state
whose device is at rest and meets what the claim asks, the command answers a next state with the claimed effect. -/
def Obligations.BraidAndSchedulerCommands : Prop :=
  (∀ (c : AdminCtx) (da vn : Nat), (Claims.braidQuery c da vn).Holds)
    ∧ (∀ (c : AdminCtx) (da vn rate alpha : Nat), (Claims.braidRateSet c da vn rate alpha).Holds)
    ∧ (∀ (c : AdminCtx) (t q weight rate burst mode : Nat), (Claims.schedQueueSet c t q weight rate burst mode).Holds)
    ∧ (∀ (c : AdminCtx) (t rate burst overhead mode : Nat), (Claims.schedPortShapeSet c t rate burst overhead mode).Holds)
    ∧ (∀ (c : AdminCtx) (t q kmin kmax pmax : Nat), (Claims.schedMarkSet c t q kmin kmax pmax).Holds)
    ∧ (∀ (c : AdminCtx) (t q : Nat), (Claims.schedHistSelect c t q).Holds)
    ∧ (∀ (c : AdminCtx) (hp g rate burst mode : Nat), (Claims.shapeGroupSet c hp g rate burst mode).Holds)
    ∧ (∀ (c : AdminCtx) (e g : Nat), (Claims.shapeGroupBind c e g).Holds)
    ∧ (∀ (c : AdminCtx) (t : Nat), (Claims.schedStatsRead c t).Holds)

/-- The commands of addresses, ports, routes and epochs complete with their effect: for each named claim, on every state whose
device is at rest and meets what the claim asks, the command answers a next state with the claimed effect. -/
def Obligations.RouterCommands : Prop :=
  (∀ (c : AdminCtx) (da persist : Nat), (Claims.deviceDaSet c da persist).Holds)
    ∧ (∀ (c : AdminCtx) (n role persist : Nat), (Claims.portRoleSet c n role persist).Holds)
    ∧ (∀ (c : AdminCtx) (n on : Nat), (Claims.portDrain c n on).Holds)
    ∧ (∀ (c : AdminCtx) (n : Nat), (Claims.portQuery c n).Holds)
    ∧ (∀ (c : AdminCtx) (ver image len allow : Nat), (Claims.routeLoad c ver image len allow).Holds)
    ∧ (∀ (c : AdminCtx) (ver table ix e allow persist : Nat), (Claims.routeEntrySet c ver table ix e allow persist).Holds)
    ∧ (∀ (c : AdminCtx) (ver table ix : Nat), (Claims.routeEntryRead c ver table ix).Holds)
    ∧ (∀ (c : AdminCtx) (ver persist : Nat), (Claims.routeEpochSet c ver persist).Holds)
    ∧ (∀ (c : AdminCtx) (n q dth : Nat), (Claims.routeDeflSet c n q dth).Holds)
    ∧ (∀ (c : AdminCtx) (hintW dim seed age : Nat), (Claims.routeParamSet c hintW dim seed age).Holds)
    ∧ (∀ (c : AdminCtx) (hp th : Nat), (Claims.routeLandSet c hp th).Holds)
    ∧ (∀ (c : AdminCtx) (dst src epoch vn tc entropy det arr : Nat), (Claims.routeProbe c dst src epoch vn tc entropy det arr).Holds)

/-- The commands of lanes, clocks, cages and tests complete with their effect: for each named claim, on every state whose
device is at rest and meets what the claim asks, the command answers a next state with the claimed effect. -/
def Obligations.LaneCommands : Prop :=
  (∀ (c : AdminCtx) (n : Nat), (Claims.laneQuery c n).Holds)
    ∧ (∀ (c : AdminCtx) (n kind lane : Nat), (Claims.laneRetrain c n kind lane).Holds)
    ∧ (∀ (c : AdminCtx) (n : Nat), (Claims.laneHistoryClear c n).Holds)
    ∧ (∀ (c : AdminCtx) (p0 p1 p2 p3 : Nat), (Claims.clockParentSet c p0 p1 p2 p3).Holds)
    ∧ (∀ (c : AdminCtx), (Claims.clockParentQuery c).Holds)
    ∧ (∀ (c : AdminCtx) (n allow : Nat), (Claims.laneTestEnter c n allow).Holds)
    ∧ (∀ (c : AdminCtx) (n : Nat), (Claims.laneTestExit c n).Holds)
    ∧ (∀ (c : AdminCtx) (n mask gen chk user : Nat), (Claims.lanePatternSet c n mask gen chk user).Holds)
    ∧ (∀ (c : AdminCtx) (n kind mask : Nat), (Claims.laneLoopbackSet c n kind mask).Holds)
    ∧ (∀ (c : AdminCtx) (n mask : Nat), (Claims.laneLoopbackFar c n mask).Holds)
    ∧ (∀ (c : AdminCtx) (n lane kind v stop : Nat), (Claims.laneErrInject c n lane kind v stop).Holds)
    ∧ (∀ (c : AdminCtx) (n lane eye ph0 ph1 phStep of0 of1 ofStep dwell res : Nat), (Claims.laneEyeScan c n lane eye ph0 ph1 phStep of0 of1 ofStep dwell res).Holds)
    ∧ (∀ (c : AdminCtx) (n : Nat), (Claims.lanePrbsRead c n).Holds)
    ∧ (∀ (c : AdminCtx) (n auto autoPwr pwrEn indA indB : Nat), (Claims.cageSet c n auto autoPwr pwrEn indA indB).Holds)

/-- The commands of fabric time and of host ports complete with their effect: for each named claim, on every state whose
device is at rest and meets what the claim asks, the command answers a next state with the claimed effect. -/
def Obligations.TimeAndHostCommands : Prop :=
  (∀ (c : AdminCtx), (Claims.timeQuery c).Holds)
    ∧ (∀ (c : AdminCtx) (mode gm prio lock unlock step lim persist : Nat), (Claims.timeCfgSet c mode gm prio lock unlock step lim persist).Holds)
    ∧ (∀ (c : AdminCtx) (ns frac : Nat), (Claims.timeSet c ns frac).Holds)
    ∧ (∀ (c : AdminCtx) (utc persist : Nat), (Claims.timeUtcSet c utc persist).Holds)
    ∧ (∀ (c : AdminCtx) (n : Nat), (Claims.timePortQuery c n).Holds)
    ∧ (∀ (c : AdminCtx) (n asym persist : Nat), (Claims.timeAsymSet c n asym persist).Holds)
    ∧ (∀ (c : AdminCtx) (k hp fn addr period : Nat), (Claims.timeMirrorSet c k hp fn addr period).Holds)
    ∧ (∀ (c : AdminCtx) (outEn outAny width outDelay inEn inDisc inDelay tod persist : Nat), (Claims.timePpsSet c outEn outAny width outDelay inEn inDisc inDelay tod persist).Holds)
    ∧ (∀ (c : AdminCtx) (h : Nat), (Claims.hostQuery c h).Holds)
    ∧ (∀ (c : AdminCtx) (h vfs pfv vfv persist : Nat), (Claims.hostFuncConfig c h vfs pfv vfv persist).Holds)
    ∧ (∀ (c : AdminCtx) (k split persist : Nat), (Claims.hostSplitSet c k split persist).Holds)
    ∧ (∀ (c : AdminCtx) (h auto autoPwr pwrEn attn pwr notify persist : Nat), (Claims.hostSlotSet c h auto autoPwr pwrEn attn pwr notify persist).Holds)
    ∧ (∀ (c : AdminCtx) (h : Nat), (Claims.hostWake c h).Holds)
    ∧ (∀ (c : AdminCtx) (h : HostNo), (Claims.hostSlotRemove c h).Holds)

/-- The identity commands and the commands of power and temperature complete with their effect: for each named claim, on every
state whose device is at rest and meets what the claim asks, the command answers a next state with the claimed effect. -/
def Obligations.IdentityAndPowerCommands : Prop :=
  (∀ (c : AdminCtx), (Claims.identify c).Holds)
    ∧ (∀ (c : AdminCtx), (Claims.capsQuery c).Holds)
    ∧ (∀ (c : AdminCtx) (a b : Nat), (Claims.echo c a b).Holds)
    ∧ (∀ (c : AdminCtx), (Claims.adminStats c).Holds)
    ∧ (∀ (c : AdminCtx), (Claims.pwrQuery c).Holds)
    ∧ (∀ (c : AdminCtx) (slew droop stretch on : Nat), (Claims.pwrLimitSet c slew droop stretch on).Holds)
    ∧ (∀ (c : AdminCtx) (warn t1 t2 on : Nat), (Claims.pwrThermalSet c warn t1 t2 on).Holds)
    ∧ (∀ (c : AdminCtx) (r a page on : Nat), (Claims.pwrRailMap c r a page on).Holds)
    ∧ (∀ (c : AdminCtx) (mask duration : Nat), (Claims.pwrPrewarnForce c mask duration).Holds)
    ∧ (∀ (c : AdminCtx), (Claims.pwrSensorRead c).Holds)

/-- The commands of reset, modes, life cycle, the Peat store and firmware complete with their effect: for each named claim, on
every state whose device is at rest and meets what the claim asks, the command answers a next state with the claimed
effect. -/
def Obligations.ResetAndFirmwareCommands : Prop :=
  (∀ (c : AdminCtx), (Claims.deviceReset c).Holds)
    ∧ (∀ (c : AdminCtx) (n : Nat), (Claims.portReset c n).Holds)
    ∧ (∀ (c : AdminCtx) (blk k : Nat), (Claims.blockReset c blk k).Holds)
    ∧ (∀ (c : AdminCtx) (m : Nat), (Claims.setMode c m).Holds)
    ∧ (∀ (c : AdminCtx) (m : Nat), (Claims.bootModeSet c m).Holds)
    ∧ (∀ (c : AdminCtx), (Claims.lcQuery c).Holds)
    ∧ (∀ (c : AdminCtx) (lc : Nat), (Claims.lcChange c lc).Holds)
    ∧ (∀ (c : AdminCtx) (serial addr : Nat), (Claims.identityWrite c serial addr).Holds)
    ∧ (∀ (c : AdminCtx) (off addr len : Nat), (Claims.calibrationWrite c off addr len).Holds)
    ∧ (∀ (c : AdminCtx), (Claims.peatQuery c).Holds)
    ∧ (∀ (c : AdminCtx) (age page : Nat), (Claims.journalRead c age page).Holds)
    ∧ (∀ (c : AdminCtx) (off len : Nat), (Claims.peatRead c off len).Holds)
    ∧ (∀ (c : AdminCtx) (off addr len : Nat), (Claims.peatWrite c off addr len).Holds)
    ∧ (∀ (c : AdminCtx) (slot off addr len : Nat), (Claims.fwWrite c slot off addr len).Holds)
    ∧ (∀ (c : AdminCtx) (slot : Nat), (Claims.fwVerify c slot).Holds)
    ∧ (∀ (c : AdminCtx) (slot : Nat), (Claims.fwActivate c slot).Holds)
    ∧ (∀ (c : AdminCtx), (Claims.fwCommit c).Holds)
    ∧ (∀ (c : AdminCtx), (Claims.fwQuery c).Holds)
    ∧ (∀ (c : AdminCtx), (Claims.personalitySet c).Holds)

/-- The commands of faults, TALLY and counters complete with their effect: for each named claim, on every state whose device
is at rest and meets what the claim asks, the command answers a next state with the claimed effect. -/
def Obligations.FaultAndCounterCommands : Prop :=
  (∀ (c : AdminCtx) (s : Nat), (Claims.fltQuery c s).Holds)
    ∧ (∀ (c : AdminCtx) (s n v on : Nat), (Claims.fltSeveritySet c s n v on).Holds)
    ∧ (∀ (c : AdminCtx) (g mask on : Nat), (Claims.fltRouteSet c g mask on).Holds)
    ∧ (∀ (c : AdminCtx) (first n : Nat), (Claims.faultLogRead c first n).Holds)
    ∧ (∀ (c : AdminCtx) (h ring m period groups lo hi hmask : Nat), (Claims.tallyStart c h ring m period groups lo hi hmask).Holds)
    ∧ (∀ (c : AdminCtx), (Claims.tallyStop c).Holds)
    ∧ (∀ (c : AdminCtx) (a on : Nat), (Claims.counterChain c a on).Holds)
    ∧ (∀ (c : AdminCtx) (b : BlockDesc) (k : Nat), (Claims.counterClear c b k).Holds)
    ∧ (∀ (c : AdminCtx) (a : Nat), (Claims.counterWrapClear c a).Holds)

/-- What the power and temperature monitors see takes effect: for each named claim, on every state whose device is at rest and
meets what the claim asks, the command answers a next state with the claimed effect. -/
def Obligations.PowerEvents : Prop :=
  Claims.prewarnForceExpiry.Holds
    ∧ (∀ (ts : List Int), (Claims.thermalReading ts).Holds)
    ∧ (∀ (t : Int), (Claims.thermtrip t).Holds)
    ∧ (∀ (mv : Nat), (Claims.droopDetect mv).Holds)
    ∧ Claims.droopEnd.Holds
    ∧ Claims.droopLong.Holds
    ∧ (∀ (b : SlewBlock) (rise : Bool) (n : Nat), (Claims.slewGranted b rise n).Holds)
    ∧ (∀ (b : SlewBlock) (rise : Bool) (n : Nat), (Claims.slewHeld b rise n).Holds)
    ∧ (∀ (xs : List RailReading), (Claims.pmbusPoll xs).Holds)
    ∧ (∀ (xs : List RailReading), (Claims.pmAlert xs).Holds)
    ∧ (∀ (m : Nat), (Claims.avsStep m).Holds)
    ∧ Claims.avsSilent.Holds

/-- Resets, boot, power loss and lost reference clocks take effect: for each named claim, on every state whose device is at
rest and meets what the claim asks, the command answers a next state with the claimed effect. -/
def Obligations.ResetAndBootEvents : Prop :=
  (∀ (straps : BitVec 4), (Claims.coldReset straps).Holds)
    ∧ Claims.resetPinAssert.Holds
    ∧ (∀ (kind : Nat), (Claims.deviceLevelReset kind).Holds)
    ∧ Claims.pfailRecovered.Holds
    ∧ Claims.powerGoodFall.Holds
    ∧ Claims.bootSequence.Holds
    ∧ Claims.pfailTaken.Holds
    ∧ (∀ (within : Bool), (Claims.refclkAFail within).Holds)
    ∧ Claims.refclkBFail.Holds

/-- Memory errors, containment, logging, TALLY and the fences and takeovers of Ember take effect: for each named claim, on
every state whose device is at rest and meets what the claim asks, the command answers a next state with the claimed
effect. -/
def Obligations.FaultAndEmberEvents : Prop :=
  (∀ (b : SramBlock) (obj : Option Nat), (Claims.sramCorrected b obj).Holds)
    ∧ (∀ (b : SramBlock) (w : Nat), (Claims.sramUncorrectable b w).Holds)
    ∧ (∀ (id k : Nat), (Claims.sramPayload id k).Holds)
    ∧ (∀ (die : Fin 8), (Claims.dieLinkFail die).Holds)
    ∧ (∀ (i p : Nat), (Claims.containmentAction i p).Holds)
    ∧ Claims.lockstep.Holds
    ∧ Claims.kilnLogWrite.Holds
    ∧ Claims.wearUpdate.Holds
    ∧ (∀ (p : Fin 72), (Claims.watchdog p).Holds)
    ∧ (∀ (p : Fin 72), (Claims.firmwareTrap p).Holds)
    ∧ (∀ (p : Fin 72), (Claims.filigreeStop p).Holds)
    ∧ (∀ (p q : Nat), (Claims.takeover p q).Holds)
    ∧ Claims.takeoverDrained.Holds
    ∧ Claims.tallyTick.Holds
    ∧ Claims.tallyMissed.Holds

/-- Resets and state changes of functions and host ports take effect: for each named claim, on every state whose device is at
rest and meets what the claim asks, the command answers a next state with the claimed effect. -/
def Obligations.HostFunctionEvents : Prop :=
  (∀ (f : Func), (Claims.flr f).Holds)
    ∧ (∀ (h : HostNo), (Claims.vfDisable h).Holds)
    ∧ (∀ (f : Func), (Claims.d3hotEntry f).Holds)
    ∧ (∀ (f : Func), (Claims.returnToD0 f).Holds)
    ∧ (∀ (f : Func), (Claims.busMasterDisable f).Holds)
    ∧ (∀ (h : HostNo), (Claims.perstAssert h).Holds)
    ∧ (∀ (h : HostNo), (Claims.perstDeassert h).Holds)
    ∧ (∀ (h : HostNo), (Claims.hotReset h).Holds)
    ∧ (∀ (h : HostNo), (Claims.hostLinkDown h).Holds)
    ∧ (∀ (h : HostNo) (speed width : Nat) (flit : Bool), (Claims.dlActiveReached h speed width flit).Holds)
    ∧ (∀ (h : HostNo) (s : LossScope) (c : LossCause), (Claims.hostLossDestroy h s c).Holds)

/-- Events of host slots, of MSI-X vectors and of PCIe errors take effect: for each named claim, on every state whose device
is at rest and meets what the claim asks, the command answers a next state with the claimed effect. -/
def Obligations.HostSlotAndInterruptEvents : Prop :=
  (∀ (h : HostNo), (Claims.presenceTaken h).Holds)
    ∧ (∀ (h : HostNo), (Claims.presenceLost h).Holds)
    ∧ (∀ (h : HostNo), (Claims.powerFaultTaken h).Holds)
    ∧ (∀ (h : HostNo), (Claims.buttonPress h).Holds)
    ∧ (∀ (h : HostNo), (Claims.poweringDone h).Holds)
    ∧ (∀ (f : Func) (v : Nat), (Claims.msixUnmask f v).Holds)
    ∧ (∀ (f : Func) (v : Nat), (Claims.msixBusMaster f v).Holds)
    ∧ (∀ (f : Func) (q : Nat), (Claims.eqModerationTimer f q).Holds)
    ∧ (∀ (h : HostNo), (Claims.correctableLinkError h).Holds)
    ∧ (∀ (h : HostNo), (Claims.controllerUncorrectable h).Holds)

/-- DMA descriptors, chunks and kicks take effect: for each named claim, on every state whose device is at rest and meets what
the claim asks, the command answers a next state with the claimed effect. -/
def Obligations.DmaWork : Prop :=
  (∀ (ch : Fin 64), (Claims.dmaCopy ch).Holds)
    ∧ (∀ (ch : Fin 64), (Claims.dmaPeatRead ch).Holds)
    ∧ (∀ (ch : Fin 64), (Claims.dmaPeatWrite ch).Holds)
    ∧ (∀ (ch : Fin 64), (Claims.dmaPut ch).Holds)
    ∧ (∀ (ch : Fin 64), (Claims.dmaGet ch).Holds)
    ∧ (∀ (ch id bus : Nat), (Claims.dmaChunkSelect ch id bus).Holds)
    ∧ (∀ (f : Func) (ch : Fin 64), (Claims.dmaKickOff f ch).Holds)
    ∧ (∀ (f : Func) (ch : Fin 64), (Claims.dmaKick f ch).Holds)

/-- Register reads and writes take effect by the access types of the registers: for each named claim, on every state whose
device is at rest and meets what the claim asks, the command answers a next state with the claimed effect. -/
def Obligations.RegisterAccesses : Prop :=
  (∀ (m : Master) (b v : Nat), (Claims.ctrlEnSet m b v).Holds)
    ∧ (∀ (m : Master) (b v : Nat), (Claims.ctrlEnClear m b v).Holds)
    ∧ (∀ (m : Master) (b w v : Nat), (Claims.ctrlEnKept m b w v).Holds)
    ∧ (∀ (m : Master) (v : Nat), (Claims.regTaken m v).Holds)
    ∧ (∀ (m : Master) (v : Nat), (Claims.regIgnored m v).Holds)
    ∧ (∀ (f : Func) (off width v : Nat), (Claims.regPoisoned f off width v).Holds)
    ∧ (∀ (f : Func) (off v : Nat), (Claims.regImproper f off v).Holds)
    ∧ (∀ (m : Master), (Claims.reservePeakRead m).Holds)
    ∧ (∀ (m : Master), (Claims.timeNowLatch m).Holds)
    ∧ (∀ (m : Master) (a : Nat), (Claims.chainedCounterRead m a).Holds)
    ∧ (∀ (m : Master) (a x : Nat), (Claims.chainedCounterOdd m a x).Holds)

/-- Doorbells, arming, fault registers, fence requests and admin ring registers take effect: for each named claim, on every
state whose device is at rest and meets what the claim asks, the command answers a next state with the claimed effect. -/
def Obligations.DoorbellsAndRingRegisters : Prop :=
  (∀ (f : Func) (e k n : Nat), (Claims.doorbell f e k n).Holds)
    ∧ (∀ (f : Func) (e k n : Nat), (Claims.doorbellDropped f e k n).Holds)
    ∧ (∀ (f : Func) (q : Nat), (Claims.cqArm f q).Holds)
    ∧ (∀ (f : Func) (q : Nat), (Claims.cqArmDropped f q).Holds)
    ∧ (∀ (m : Master) (l : Fin 64), (Claims.fenceReq m l).Holds)
    ∧ (∀ (m : Master) (w i : Fin 32), (Claims.fltForce m w i).Holds)
    ∧ (∀ (m : Master) (w : Fin 32) (bits : BitVec 32), (Claims.fltStickyClear m w bits).Holds)
    ∧ (∀ (m : Master) (h : HostNo), (Claims.adminRingEnable m h).Holds)
    ∧ (∀ (m : Master) (h : HostNo), (Claims.adminRingDisable m h).Holds)
    ∧ (∀ (m : Master) (h : HostNo) (n : BitVec 16), (Claims.admCmdTail m h n).Holds)
    ∧ (∀ (m : Master) (h : HostNo) (n : BitVec 16), (Claims.admRspHead m h n).Holds)

/-- The management FIFOs and the management strands take effect: for each named claim, on every state whose device is at rest
and meets what the claim asks, the command answers a next state with the claimed effect. -/
def Obligations.ManagementFifos : Prop :=
  (∀ (m : Master) (w : BitVec 64), (Claims.txData m w).Holds)
    ∧ (∀ (m : Master) (w : BitVec 64) (p : Nat), (Claims.txEnd m w p).Holds)
    ∧ (∀ (m : Master) (w : BitVec 64) (fin : Bool), (Claims.rxDataRead m w fin).Holds)
    ∧ (∀ (f : Func), (Claims.rxDataStallEnd f).Holds)
    ∧ (∀ (m : Master), (Claims.flushRx m).Holds)
    ∧ (∀ (m : Master), (Claims.flushTx m).Holds)
    ∧ (∀ (n : Nat), (Claims.flushRxDone n).Holds)
    ∧ Claims.flushTxDone.Holds
    ∧ (∀ (st : Strand), (Claims.mgmtRx st).Holds)
    ∧ (∀ (st : Strand), (Claims.remoteAdmin st).Holds)
    ∧ (∀ (st : Strand) (p : Nat), (Claims.dataWrite st p).Holds)
    ∧ (∀ (st : Strand) (p : Nat), (Claims.dataRead st p).Holds)

/-- Commands of the admin rings, the mailbox and the maintenance port take effect: for each named claim, on every state whose
device is at rest and meets what the claim asks, the command answers a next state with the claimed effect. -/
def Obligations.AdminPathsAndMailbox : Prop :=
  (∀ (f : Func), (Claims.adminCommandFetch f).Holds)
    ∧ (∀ (bs : Bytes), (Claims.adminCommandBegin bs).Holds)
    ∧ (∀ (bs : Bytes), (Claims.adminUnknown bs).Holds)
    ∧ (∀ (bs : Bytes), (Claims.adminTimeout bs).Holds)
    ∧ Claims.mbxGo.Holds
    ∧ Claims.mbxGoBusy.Holds
    ∧ (∀ (a : Nat), (Claims.maintenanceRead a).Holds)
    ∧ (∀ (a v : Nat), (Claims.maintenanceWrite a v).Holds)
    ∧ (∀ (n a : Nat), (Claims.maintenancePart n a).Holds)
    ∧ (∀ (a : Nat), (Claims.mctpRead a).Holds)
    ∧ Claims.maintenanceGap.Holds

/-- Pulses per second, the time line and the time mirrors take effect: for each named claim, on every state whose device is at
rest and meets what the claim asks, the command answers a next state with the claimed effect. -/
def Obligations.TimePulses : Prop :=
  Claims.ppsInStamp.Holds
    ∧ Claims.ppsInIgnored.Holds
    ∧ Claims.ppsInFirst.Holds
    ∧ Claims.gmPpsTimeout.Holds
    ∧ Claims.ppsOutEdge.Holds
    ∧ Claims.ppsOutHeld.Holds
    ∧ Claims.todLineSent.Holds
    ∧ (∀ (k : Fin 64), (Claims.mirrorWrite k).Holds)

/-- Markers, stamps, the servo, clock parents and the election of the grandmaster take effect: for each named claim, on every
state whose device is at rest and meets what the claim asks, the command answers a next state with the claimed effect. -/
def Obligations.TimeTransfer : Prop :=
  (∀ (n : PortNo), (Claims.markerSend n).Holds)
    ∧ (∀ (n : PortNo), (Claims.markerArrival n).Holds)
    ∧ (∀ (n : PortNo) (seq ns frac q : Nat), (Claims.stampDeparture n seq ns frac q).Holds)
    ∧ (∀ (n : PortNo) (seq ns frac q : Nat), (Claims.stampArrival n seq ns frac q).Holds)
    ∧ (∀ (n : PortNo) (seq ns frac q : Nat), (Claims.stampSample n seq ns frac q).Holds)
    ∧ (∀ (n : PortNo) (seq ns frac q : Nat), (Claims.thetaLocked n seq ns frac q).Holds)
    ∧ (∀ (n : PortNo) (seq ns frac q : Nat), (Claims.thetaLocking n seq ns frac q).Holds)
    ∧ Claims.servoNoTheta.Holds
    ∧ Claims.holdoverLimit.Holds
    ∧ Claims.clockParentLost.Holds
    ∧ (∀ (p : Nat), (Claims.clockParentMoves p).Holds)
    ∧ Claims.announceSend.Holds
    ∧ (∀ (n : PortNo) (st : Strand), (Claims.timeAnnouncement n st).Holds)
    ∧ Claims.electionKept.Holds
    ∧ Claims.electionWon.Holds
    ∧ (∀ (n : PortNo), (Claims.electionLost n).Holds)

/-- Sync, clocks, TRAIN_STATE and the identity exchange take effect: for each named claim, on every state whose device is at
rest and meets what the claim asks, the command answers a next state with the claimed effect. -/
def Obligations.LinkBringUp : Prop :=
  (∀ (n : PortNo), (Claims.syncAcquired n).Holds)
    ∧ (∀ (n : PortNo), (Claims.syncToIdentity n).Holds)
    ∧ (∀ (n : PortNo), (Claims.syncLost n).Holds)
    ∧ (∀ (n : PortNo), (Claims.syncLostInService n).Holds)
    ∧ (∀ (n : PortNo), (Claims.clkLost n).Holds)
    ∧ (∀ (n : PortNo), (Claims.clkLostInService n).Holds)
    ∧ (∀ (n : PortNo), (Claims.codewordLockLost n).Holds)
    ∧ (∀ (n : PortNo), (Claims.clkRestored n).Holds)
    ∧ (∀ (n : PortNo), (Claims.trainStateSend n).Holds)
    ∧ (∀ (n : PortNo) (phase rxr half txa : Nat), (Claims.trainStateHeard n phase rxr half txa).Holds)
    ∧ (∀ (n : PortNo) (half txa : Nat), (Claims.trainStateAligns n half txa).Holds)
    ∧ (∀ (n : PortNo), (Claims.identitySend n).Holds)
    ∧ (∀ (n : PortNo) (da pn role halfOk pers serial : Nat), (Claims.identityAccepted n da pn role halfOk pers serial).Holds)
    ∧ (∀ (n : PortNo) (da pn role valid halfOk two pers serial : Nat), (Claims.identityRefused n da pn role valid halfOk two pers serial).Holds)
    ∧ (∀ (n : PortNo), (Claims.identityRetry n).Holds)
    ∧ (∀ (n : PortNo), (Claims.bringupRetry n).Holds)
    ∧ (∀ (n : PortNo), (Claims.downHoldExpiry n).Holds)

/-- Equalisation, lane readiness, entering service and training history take effect: for each named claim, on every state
whose device is at rest and meets what the claim asks, the command answers a next state with the claimed effect. -/
def Obligations.LinkTraining : Prop :=
  (∀ (n : PortNo) (lane : Fin 2) (k : Fin 8) (pre seq : Nat), (Claims.trainPreset n lane k pre seq).Holds)
    ∧ (∀ (n : PortNo) (lane : Fin 2) (k : Fin 4) (seq : Nat), (Claims.trainIncrement n lane k seq).Holds)
    ∧ (∀ (n : PortNo) (lane : Fin 2) (body : Bytes), (Claims.trainRepeated n lane body).Holds)
    ∧ (∀ (n : PortNo) (lane : Fin 2) (pre seq : Nat) (taps : Vector Byte 6), (Claims.trainAnswered n lane pre seq taps).Holds)
    ∧ (∀ (n : PortNo) (lane : Fin 2), (Claims.trainResent n lane).Holds)
    ∧ (∀ (n : PortNo) (lane : Fin 2), (Claims.trainGivenUp n lane).Holds)
    ∧ (∀ (n : PortNo) (lane : Fin 2) (errors : Nat), (Claims.laneReady n lane errors).Holds)
    ∧ (∀ (n : PortNo) (lane : Fin 2) (errors : Nat), (Claims.laneNotReady n lane errors).Holds)
    ∧ (∀ (n : PortNo) (lane : Fin 2), (Claims.alignLock n lane).Holds)
    ∧ (∀ (n : PortNo), (Claims.enterService n).Holds)
    ∧ (∀ (n : PortNo), (Claims.retrained n).Holds)
    ∧ (∀ (n : PortNo), (Claims.eqLimitHalf n).Holds)
    ∧ (∀ (n : PortNo), (Claims.eqLimitFails n).Holds)
    ∧ (∀ (n : PortNo) (da pn : Nat), (Claims.historyWritten n da pn).Holds)
    ∧ (∀ (n : PortNo), (Claims.learningExpiry n).Holds)

/-- NEGOTIATE frames and their timers take effect: for each named claim, on every state whose device is at rest and meets what
the claim asks, the command answers a next state with the claimed effect. -/
def Obligations.LinkNegotiation : Prop :=
  (∀ (n : PortNo) (kind lane key seq : Nat), (Claims.proposalAccepted n kind lane key seq).Holds)
    ∧ (∀ (n : PortNo) (kind lane key seq : Nat), (Claims.proposalRejected n kind lane key seq).Holds)
    ∧ (∀ (n : PortNo) (kind lane key seq : Nat), (Claims.proposalIgnored n kind lane key seq).Holds)
    ∧ (∀ (n : PortNo) (lane key seq : Nat), (Claims.proposalWithdrawn n lane key seq).Holds)
    ∧ (∀ (n : PortNo) (kind lane key seq : Nat), (Claims.acceptHeard n kind lane key seq).Holds)
    ∧ (∀ (n : PortNo) (kind lane key seq : Nat), (Claims.rejectHeard n kind lane key seq).Holds)
    ∧ (∀ (n : PortNo) (kind lane key seq : Nat), (Claims.doneHeard n kind lane key seq).Holds)
    ∧ (∀ (n : PortNo), (Claims.proposeResent n).Holds)
    ∧ (∀ (n : PortNo), (Claims.proposalAbandoned n).Holds)
    ∧ (∀ (n : PortNo) (c : AdminCtx), (Claims.retrainAbandoned n c).Holds)
    ∧ (∀ (n : PortNo), (Claims.retrainTimeout n).Holds)

/-- Congestion hints, link health, loopbacks, patterns and the indicator scan bus take effect: for each named claim, on every
state whose device is at rest and meets what the claim asks, the command answers a next state with the claimed effect. -/
def Obligations.LinkHealthAndScan : Prop :=
  (∀ (n : PortNo) (req rsp : Nat), (Claims.congHint n req rsp).Holds)
    ∧ Claims.congHintSend.Holds
    ∧ (∀ (n : PortNo), (Claims.hintStale n).Holds)
    ∧ (∀ (n : PortNo) (corr0 corr1 unc0 unc1 eye0 eye1 : Nat), (Claims.linkHealth n corr0 corr1 unc0 unc1 eye0 eye1).Holds)
    ∧ (∀ (n : PortNo) (eye0 eye1 : BitVec 7), (Claims.linkHealthSend n eye0 eye1).Holds)
    ∧ (∀ (n : PortNo), (Claims.healthSkipped n).Holds)
    ∧ (∀ (n : PortNo), (Claims.healthDims n).Holds)
    ∧ (∀ (n : PortNo), (Claims.healthNarrows n).Holds)
    ∧ (∀ (n : PortNo) (enable lanes : Nat), (Claims.loopback n enable lanes).Holds)
    ∧ (∀ (n : PortNo) (enable lanes : Nat), (Claims.loopbackIgnored n enable lanes).Holds)
    ∧ (∀ (n : PortNo) (lane : Fin 3), (Claims.prbsLocked n lane).Holds)
    ∧ (∀ (din : BitVec 512), (Claims.isbScanSteady din).Holds)
    ∧ (∀ (k : PortNo) (din : BitVec 512), (Claims.isbScanPresent k din).Holds)
    ∧ (∀ (din : BitVec 512), (Claims.isbScanFault din).Holds)

/-- Acknowledgement, replay and the arrival of beads take effect: for each named claim, on every state whose device is at rest
and meets what the claim asks, the command answers a next state with the claimed effect. -/
def Obligations.LinkLayerBeads : Prop :=
  (∀ (n : PortNo) (ack : Nat), (Claims.linkAckTaken n ack).Holds)
    ∧ (∀ (n : PortNo) (ack hold : Nat), (Claims.linkAckSample n ack hold).Holds)
    ∧ (∀ (n : PortNo) (ack hold : Nat), (Claims.linkAckWrong n ack hold).Holds)
    ∧ (∀ (n : PortNo), (Claims.ackTimerEnds n).Holds)
    ∧ (∀ (n : PortNo), (Claims.replayed n).Holds)
    ∧ (∀ (n : PortNo), (Claims.replayComplete n).Holds)
    ∧ (∀ (n : PortNo), (Claims.rttPeriod n).Holds)
    ∧ (∀ (n : PortNo), (Claims.transmitted n).Holds)
    ∧ (∀ (n : PortNo), (Claims.transmitWaits n).Holds)
    ∧ (∀ (n : PortNo) (b : Bead), (Claims.headDuplicate n b).Holds)
    ∧ (∀ (n : PortNo) (b : Bead), (Claims.headOutOfSequence n b).Holds)
    ∧ (∀ (n p : PortNo) (b : Bead), (Claims.headRouted n p b).Holds)
    ∧ (∀ (n : PortNo) (b : Bead), (Claims.beadKept n b).Holds)
    ∧ (∀ (n : PortNo) (b : Bead), (Claims.beadEnds n b).Holds)
    ∧ (∀ (n : PortNo) (b : Bead), (Claims.beadBad n b).Holds)

/-- Scheduler choices, injection, the age limit and depth samples take effect: for each named claim, on every state whose
device is at rest and meets what the claim asks, the command answers a next state with the claimed effect. -/
def Obligations.SchedulingAndInjection : Prop :=
  (∀ (n : PortNo), (Claims.chosenFour n).Holds)
    ∧ (∀ (n : PortNo), (Claims.chosenZero n).Holds)
    ∧ (∀ (h : HostNo), (Claims.injectionChosen h).Holds)
    ∧ (∀ (n : PortNo) (q : Fin 8) (k : Nat), (Claims.aged n q k).Holds)
    ∧ Claims.depthSampled.Holds
    ∧ (∀ (h : HostNo) (p : PortNo), (Claims.injected h p).Holds)
    ∧ (∀ (h : HostNo), (Claims.injectionWaits h).Holds)

/-- The timers of Braids, peers, contents and stream records take effect: for each named claim, on every state whose device is
at rest and meets what the claim asks, the command answers a next state with the claimed effect. -/
def Obligations.BraidTimers : Prop :=
  (∀ (da : Da) (vn : Bool), (Claims.increaseTimer da vn).Holds)
    ∧ (∀ (da : Da) (vn : Bool), (Claims.idleReset da vn).Holds)
    ∧ (∀ (da : Da) (vn : Bool), (Claims.rateFloor da vn).Holds)
    ∧ (∀ (da : Nat) (vn : Bool), (Claims.slotReleases da vn).Holds)
    ∧ (∀ (da : Da) (vn : Bool) (bsn : BitVec 32), (Claims.retransmitted da vn bsn).Holds)
    ∧ (∀ (da : Da), (Claims.unreachableEnds da).Holds)
    ∧ (∀ (da : Da) (vn : Bool), (Claims.ackDelayEnds da vn).Holds)
    ∧ (∀ (id : Nat), (Claims.backoffEnds id).Holds)
    ∧ (∀ (id : Nat), (Claims.trimResent id).Holds)
    ∧ (∀ (k : StreamKey), (Claims.sendRecordFreed k).Holds)
    ∧ (∀ (k : StreamKey), (Claims.recvRecordFreed k).Holds)

/-- Acknowledgements, refusals and late parked strands take effect: for each named claim, on every state whose device is at
rest and meets what the claim asks, the command answers a next state with the claimed effect. -/
def Obligations.AcknowledgementsAndRefusals : Prop :=
  (∀ (st : Strand), (Claims.parkedTrimmed st).Holds)
    ∧ (∀ (st : Strand), (Claims.contextLate st).Holds)
    ∧ (∀ (st : Strand) (u : Unacked) (i : Nat) (o : Op), (Claims.ackCompletes st u i o).Holds)
    ∧ (∀ (st : Strand) (u : Unacked) (c : Content), (Claims.nackNotReady st u c).Holds)
    ∧ (∀ (st : Strand) (u : Unacked) (c : Content) (i : Nat) (o : Op), (Claims.nackRefused st u c i o).Holds)
    ∧ (∀ (st : Strand) (u : Unacked) (c : Content), (Claims.trimNoticed st u c).Holds)
    ∧ (∀ (st : Strand) (i : Nat) (o : Op), (Claims.goneEnds st i o).Holds)
    ∧ (∀ (st : Strand) (g : Nat), (Claims.resyncRestarts st g).Holds)

/-- Strands of writes, sends and tagged messages take effect at their target: for each named claim, on every state whose
device is at rest and meets what the claim asks, the command answers a next state with the claimed effect. -/
def Obligations.DataStrands : Prop :=
  (∀ (st : Strand), (Claims.writePlaced st).Holds)
    ∧ (∀ (st : Strand), (Claims.writeImmDone st).Holds)
    ∧ (∀ (st : Strand), (Claims.putCountDone st).Holds)
    ∧ (∀ (st : Strand) (r : Recv) (rest : List Recv), (Claims.sendDelivered st r rest).Holds)
    ∧ (∀ (st : Strand) (q : Posted), (Claims.taggedDelivered st q).Holds)
    ∧ (∀ (st : Strand), (Claims.rndvHeld st).Holds)
    ∧ (∀ (st : Strand) (i : Nat) (o : Op), (Claims.rndvEnds st i o).Holds)

/-- Strands of reads, pulls and atomics take effect at both ends: for each named claim, on every state whose device is at rest
and meets what the claim asks, the command answers a next state with the claimed effect. -/
def Obligations.ReadAndAtomicStrands : Prop :=
  (∀ (st : Strand), (Claims.readAsked st).Holds)
    ∧ (∀ (st : Strand), (Claims.pullAsked st).Holds)
    ∧ (∀ (st : Strand) (i : Nat) (o : Op) (q : Part), (Claims.readPartPlaced st i o q).Holds)
    ∧ (∀ (st : Strand) (i : Nat) (o : Op) (q : Part), (Claims.pullPartPlaced st i o q).Holds)
    ∧ (∀ (st : Strand) (i : Nat) (o : Op) (q : Part), (Claims.readEnds st i o q).Holds)
    ∧ (∀ (st : Strand) (i : Nat) (o : Op) (q : Part), (Claims.readAgain st i o q).Holds)
    ∧ (∀ (st : Strand), (Claims.atomicBegins st).Holds)
    ∧ (∀ (st : Strand) (i : Nat) (o : Op), (Claims.atomicEnds st i o).Holds)

/-- Strands of Clasp locks take effect at the home and at the holder: for each named claim, on every state whose device is at
rest and meets what the claim asks, the command answers a next state with the claimed effect. -/
def Obligations.LockStrands : Prop :=
  (∀ (st : Strand), (Claims.lockFirst st).Holds)
    ∧ (∀ (st : Strand) (i : Nat) (r : LockRec), (Claims.lockQueued st i r).Holds)
    ∧ (∀ (st : Strand) (i : Nat) (r : LockRec), (Claims.lockTried st i r).Holds)
    ∧ (∀ (st : Strand) (i : Nat) (r : LockRec), (Claims.lockGivenUp st i r).Holds)
    ∧ (∀ (st : Strand) (i : Nat) (o : Op), (Claims.lockGranted st i o).Holds)
    ∧ (∀ (st : Strand) (i : Nat) (o : Op), (Claims.lockBusyEnds st i o).Holds)
    ∧ (∀ (st : Strand) (i : Nat) (o : Op), (Claims.lockRemovedEnds st i o).Holds)
    ∧ (∀ (st : Strand) (i : Nat) (o : Op), (Claims.lockReleasedEnds st i o).Holds)
    ∧ (∀ (st : Strand), (Claims.lockInherited st).Holds)

/-- Strands of collectives and completed reads of host memory take effect: for each named claim, on every state whose device
is at rest and meets what the claim asks, the command answers a next state with the claimed effect. -/
def Obligations.CollectiveStrandsAndHostReads : Prop :=
  (∀ (st : Strand) (i : Nat) (x : Inst) (s : CStep) (k : Nat), (Claims.stepPlacedAt st i x s k).Holds)
    ∧ (∀ (st : Strand), (Claims.armFired st).Holds)
    ∧ (∀ (req : Nat) (data : List Byte) (rx : Rx), (Claims.readServed req data rx).Holds)
    ∧ (∀ (req : Nat) (rx : Rx), (Claims.readTimesOut req rx).Holds)
    ∧ (∀ (req : Nat) (data : List Byte) (e : Nat) (recv : Bool) (no pos n : Nat), (Claims.entryNotOwned req data e recv no pos n).Holds)
    ∧ (∀ (req : Nat) (data : List Byte) (e : Nat), (Claims.contextCame req data e).Holds)
    ∧ (∀ (req : Nat) (data : List Byte) (rx : Rx) (f : Func) (a : Nat), (Claims.atomicDone req data rx f a).Holds)
    ∧ (∀ (req : Nat) (rx : Rx) (m : RxMsg), (Claims.flushed req rx m).Holds)
    ∧ (∀ (req : Nat) (data : List Byte) (k id : Nat) (w : Walk), (Claims.walkDescends req data k id w).Holds)
    ∧ (∀ (req : Nat) (data : List Byte) (c : Nat) (e : Cqe), (Claims.headRead req data c e).Holds)

/-- Operations of the send ring begin, and send what they are to send: for each named claim, on every state whose device is at
rest and meets what the claim asks, the command answers a next state with the claimed effect. -/
def Obligations.SendDescriptors : Prop :=
  (∀ (e i : Nat) (o : Op), (Claims.writeBegins e i o).Holds)
    ∧ (∀ (e i : Nat) (o : Op), (Claims.writeImmBegins e i o).Holds)
    ∧ (∀ (e i : Nat) (o : Op), (Claims.putCountBegins e i o).Holds)
    ∧ (∀ (e i : Nat) (o : Op), (Claims.sendBegins e i o).Holds)
    ∧ (∀ (e i : Nat) (o : Op), (Claims.taggedBegins e i o).Holds)
    ∧ (∀ (e i : Nat) (o : Op), (Claims.triggeredBegins e i o).Holds)
    ∧ (∀ (e i : Nat) (o : Op), (Claims.writeReads e i o).Holds)
    ∧ (∀ (e i : Nat) (o : Op), (Claims.readBegins e i o).Holds)
    ∧ (∀ (e i : Nat) (o : Op), (Claims.atomicSends e i o).Holds)
    ∧ (∀ (e i : Nat) (o : Op), (Claims.acquireSends e i o).Holds)
    ∧ (∀ (e i : Nat) (o : Op), (Claims.trySends e i o).Holds)
    ∧ (∀ (e i : Nat) (o : Op), (Claims.releaseSends e i o).Holds)
    ∧ (∀ (e i : Nat) (o : Op), (Claims.nopCompletes e i o).Holds)

/-- Receives are posted, rings are polled, and collective instances run, end and are released: for each named claim, on every
state whose device is at rest and meets what the claim asks, the command answers a next state with the claimed effect. -/
def Obligations.ReceivesAndInstances : Prop :=
  (∀ (e i : Nat) (o : Op), (Claims.collMade e i o).Holds)
    ∧ (∀ (e : Nat) (r : Recv) (rest : List Recv), (Claims.recvPosted e r rest).Holds)
    ∧ (∀ (e : Nat) (r : Recv) (rest : List Recv), (Claims.taggedPosted e r rest).Holds)
    ∧ (∀ (e : Nat), (Claims.spillReturned e).Holds)
    ∧ (∀ (e : Nat), (Claims.ringPolled e).Holds)
    ∧ (∀ (k : Nat) (x : Inst) (o : Op), (Claims.instEnds k x o).Holds)
    ∧ (∀ (k : Nat) (x : Inst) (o : Op) (g : Group), (Claims.instTimesOut k x o g).Holds)
    ∧ (∀ (hp : HostNo) (k : Nat) (x : Inst) (o : Op) (p : Pace), (Claims.releaseDelivered hp k x o p).Holds)
    ∧ (∀ (j : Fin 4) (p : Pace), (Claims.prewarnRises j p).Holds)
    ∧ (∀ (j : Fin 4), (Claims.prewarnFalls j).Holds)
    ∧ (∀ (c : AdminCtx) (slot iova : Nat), (Claims.probeAnswered c slot iova).Holds)
end

