-- ==== Sys2Proof/Laws/Mem.lean ====
section
/-! SUPPORT. The addressed stores keep their one form, and a read gives what was written. -/

namespace Sys2Proof.Machine

/-- The one form said of every cell and every pair of neighbours. -/
theorem cellsWf_iff : ∀ m : List Host.Cell,
    cellsWf m = true ↔ (∀ c ∈ m, c.2 ≠ 0) ∧ m.Pairwise (fun a b => a.1 < b.1)
  | [] => by simp [cellsWf]
  | [c] => by simp [cellsWf]
  | c :: e :: rest => by
    have ih := cellsWf_iff (e :: rest)
    simp only [cellsWf, Bool.and_eq_true, bne_iff_ne, ne_eq, decide_eq_true_eq, ih]
    constructor
    · rintro ⟨⟨h1, h2⟩, h3, h4⟩
      refine ⟨?_, ?_⟩
      · intro x hx
        rcases List.mem_cons.1 hx with rfl | hx
        · exact h1
        · exact h3 x hx
      · refine List.pairwise_cons.2 ⟨?_, h4⟩
        intro x hx
        rcases List.mem_cons.1 hx with rfl | hx
        · exact h2
        · exact Nat.lt_trans h2 ((List.pairwise_cons.1 h4).1 x hx)
    · rintro ⟨h1, h2⟩
      have h := List.pairwise_cons.1 h2
      exact ⟨⟨h1 c (by simp), h.1 e (by simp)⟩, fun x hx => h1 x (List.mem_cons_of_mem _ hx), h.2⟩

/-- The cells of bytes lie in their range and are not zero, in rising order. -/
theorem cellsOfBytes_range : ∀ (bs : Bytes) (a : Nat),
    (∀ c ∈ cellsOfBytes a bs, c.2 ≠ 0 ∧ a ≤ c.1 ∧ c.1 < a + bs.length) ∧ (cellsOfBytes a bs).Pairwise (fun x y => x.1 < y.1)
  | [], a => by simp [cellsOfBytes]
  | b :: bs, a => by
    have ih := cellsOfBytes_range bs (a + 1)
    unfold cellsOfBytes
    split
    · refine ⟨fun c hc => ?_, ih.2⟩
      have := ih.1 c hc
      simp only [List.length_cons]
      exact ⟨this.1, by omega, by omega⟩
    · refine ⟨?_, List.pairwise_cons.2 ⟨?_, ih.2⟩⟩
      · intro c hc
        simp only [List.length_cons]
        rcases List.mem_cons.1 hc with rfl | hc
        · exact ⟨by assumption, by simp, by simp⟩
        · have := ih.1 c hc
          exact ⟨this.1, by omega, by omega⟩
      · intro c hc
        have := ih.1 c hc
        simp only
        omega

/-- Writing keeps the one form. -/
theorem cellsWrite_wf (m : List Host.Cell) (a : Nat) (bs : Bytes) (h : cellsWf m = true) :
    cellsWf (cellsWrite m a bs) = true := by
  rw [cellsWf_iff] at h ⊢
  obtain ⟨hz, hp⟩ := h
  have hb := cellsOfBytes_range bs a
  constructor
  · intro c hc
    simp only [cellsWrite, List.mem_append, List.mem_filter] at hc
    rcases hc with (⟨hc, -⟩ | hc) | ⟨hc, -⟩
    · exact hz c hc
    · exact (hb.1 c hc).1
    · exact hz c hc
  · unfold cellsWrite
    rw [List.pairwise_append, List.pairwise_append]
    refine ⟨⟨hp.filter _, hb.2, ?_⟩, hp.filter _, ?_⟩
    · intro x hx y hy
      simp only [List.mem_filter, decide_eq_true_eq] at hx
      have := hb.1 y hy
      omega
    · intro x hx y hy
      simp only [List.mem_append, List.mem_filter, decide_eq_true_eq] at hx hy
      rcases hx with ⟨-, hx⟩ | hx
      · omega
      · have := hb.1 x hx
        omega

/-- A list of cells that is in its one form stays as it is. -/
@[simp] theorem cellsTidy_eq (m : List Host.Cell) (h : cellsWf m = true) : cellsTidy m = m := by
  simp [cellsTidy, h]

/-- Writing cell by cell reaches the one form. -/
theorem cellsFold_wf (l : List Host.Cell) : ∀ m : List Host.Cell, cellsWf m = true →
    cellsWf (l.foldl (fun l c => cellsWrite l c.1 [c.2]) m) = true := by
  induction l with
  | nil => intro m h; exact h
  | cons c cs ih => intro m h; exact ih _ (cellsWrite_wf m c.1 [c.2] h)

/-- What is tidied is in its one form. -/
@[simp] theorem cellsTidy_wf (m : List Host.Cell) : cellsWf (cellsTidy m) = true := by
  unfold cellsTidy
  split
  · assumption
  · exact cellsFold_wf m [] rfl

end Sys2Proof.Machine
end

