-- ==== Sys2Proof/Laws/State.lean ====
section
/-! SUPPORT. What each change of the device leaves: one lemma per change and field, so that no proof unfolds one. -/

namespace Sys2Proof.Machine

@[simp] theorem emit_clk (o : Output) (d : Dev) : (emit o d).clk = d.clk := rfl
@[simp] theorem emit_free (o : Output) (d : Dev) : (emit o d).free = d.free := rfl
@[simp] theorem emit_out (o : Output) (d : Dev) : (emit o d).out = d.out ++ [o] := rfl
@[simp] theorem emit_work (o : Output) (d : Dev) : (emit o d).work = d.work := rfl
@[simp] theorem emit_regs (o : Output) (d : Dev) : (emit o d).regs = d.regs := rfl
@[simp] theorem emit_wraps (o : Output) (d : Dev) : (emit o d).wraps = d.wraps := rfl
@[simp] theorem emit_chains (o : Output) (d : Dev) : (emit o d).chains = d.chains := rfl
@[simp] theorem emit_np (o : Output) (d : Dev) : (emit o d).np = d.np := rfl
@[simp] theorem emit_nextReq (o : Output) (d : Dev) : (emit o d).nextReq = d.nextReq := rfl
@[simp] theorem emit_reads (o : Output) (d : Dev) : (emit o d).reads = d.reads := rfl
@[simp] theorem emit_nextRead (o : Output) (d : Dev) : (emit o d).nextRead = d.nextRead := rfl
@[simp] theorem emit_hosts (o : Output) (d : Dev) : (emit o d).hosts = d.hosts := rfl
@[simp] theorem emit_fns (o : Output) (d : Dev) : (emit o d).fns = d.fns := rfl
@[simp] theorem emit_flt (o : Output) (d : Dev) : (emit o d).flt = d.flt := rfl
@[simp] theorem emit_xl (o : Output) (d : Dev) : (emit o d).xl = d.xl := rfl
@[simp] theorem emit_ept (o : Output) (d : Dev) : (emit o d).ept = d.ept := rfl
@[simp] theorem emit_xp (o : Output) (d : Dev) : (emit o d).xp = d.xp := rfl
@[simp] theorem emit_clasp (o : Output) (d : Dev) : (emit o d).clasp = d.clasp := rfl
@[simp] theorem emit_mt (o : Output) (d : Dev) : (emit o d).mt = d.mt := rfl
@[simp] theorem emit_coll (o : Output) (d : Dev) : (emit o d).coll = d.coll := rfl
@[simp] theorem emit_rtr (o : Output) (d : Dev) : (emit o d).rtr = d.rtr := rfl
@[simp] theorem emit_ports (o : Output) (d : Dev) : (emit o d).ports = d.ports := rfl
@[simp] theorem emit_time (o : Output) (d : Dev) : (emit o d).time = d.time := rfl
@[simp] theorem emit_isb (o : Output) (d : Dev) : (emit o d).isb = d.isb := rfl
@[simp] theorem emit_nv (o : Output) (d : Dev) : (emit o d).nv = d.nv := rfl
@[simp] theorem emit_dma (o : Output) (d : Dev) : (emit o d).dma = d.dma := rfl
@[simp] theorem emit_adm (o : Output) (d : Dev) : (emit o d).adm = d.adm := rfl
@[simp] theorem emit_mnt (o : Output) (d : Dev) : (emit o d).mnt = d.mnt := rfl
@[simp] theorem emit_mgf (o : Output) (d : Dev) : (emit o d).mgf = d.mgf := rfl
@[simp] theorem emit_ember (o : Output) (d : Dev) : (emit o d).ember = d.ember := rfl
@[simp] theorem emit_pwr (o : Output) (d : Dev) : (emit o d).pwr = d.pwr := rfl
@[simp] theorem emit_boot (o : Output) (d : Dev) : (emit o d).boot = d.boot := rfl
@[simp] theorem emit_tally (o : Output) (d : Dev) : (emit o d).tally = d.tally := rfl

@[simp] theorem push_clk (w : Work) (d : Dev) : (push w d).clk = d.clk := rfl
@[simp] theorem push_free (w : Work) (d : Dev) : (push w d).free = d.free := rfl
@[simp] theorem push_out (w : Work) (d : Dev) : (push w d).out = d.out := rfl
@[simp] theorem push_work (w : Work) (d : Dev) : (push w d).work = d.work ++ [w] := rfl
@[simp] theorem push_regs (w : Work) (d : Dev) : (push w d).regs = d.regs := rfl
@[simp] theorem push_wraps (w : Work) (d : Dev) : (push w d).wraps = d.wraps := rfl
@[simp] theorem push_chains (w : Work) (d : Dev) : (push w d).chains = d.chains := rfl
@[simp] theorem push_np (w : Work) (d : Dev) : (push w d).np = d.np := rfl
@[simp] theorem push_nextReq (w : Work) (d : Dev) : (push w d).nextReq = d.nextReq := rfl
@[simp] theorem push_reads (w : Work) (d : Dev) : (push w d).reads = d.reads := rfl
@[simp] theorem push_nextRead (w : Work) (d : Dev) : (push w d).nextRead = d.nextRead := rfl
@[simp] theorem push_hosts (w : Work) (d : Dev) : (push w d).hosts = d.hosts := rfl
@[simp] theorem push_fns (w : Work) (d : Dev) : (push w d).fns = d.fns := rfl
@[simp] theorem push_flt (w : Work) (d : Dev) : (push w d).flt = d.flt := rfl
@[simp] theorem push_xl (w : Work) (d : Dev) : (push w d).xl = d.xl := rfl
@[simp] theorem push_ept (w : Work) (d : Dev) : (push w d).ept = d.ept := rfl
@[simp] theorem push_xp (w : Work) (d : Dev) : (push w d).xp = d.xp := rfl
@[simp] theorem push_clasp (w : Work) (d : Dev) : (push w d).clasp = d.clasp := rfl
@[simp] theorem push_mt (w : Work) (d : Dev) : (push w d).mt = d.mt := rfl
@[simp] theorem push_coll (w : Work) (d : Dev) : (push w d).coll = d.coll := rfl
@[simp] theorem push_rtr (w : Work) (d : Dev) : (push w d).rtr = d.rtr := rfl
@[simp] theorem push_ports (w : Work) (d : Dev) : (push w d).ports = d.ports := rfl
@[simp] theorem push_time (w : Work) (d : Dev) : (push w d).time = d.time := rfl
@[simp] theorem push_isb (w : Work) (d : Dev) : (push w d).isb = d.isb := rfl
@[simp] theorem push_nv (w : Work) (d : Dev) : (push w d).nv = d.nv := rfl
@[simp] theorem push_dma (w : Work) (d : Dev) : (push w d).dma = d.dma := rfl
@[simp] theorem push_adm (w : Work) (d : Dev) : (push w d).adm = d.adm := rfl
@[simp] theorem push_mnt (w : Work) (d : Dev) : (push w d).mnt = d.mnt := rfl
@[simp] theorem push_mgf (w : Work) (d : Dev) : (push w d).mgf = d.mgf := rfl
@[simp] theorem push_ember (w : Work) (d : Dev) : (push w d).ember = d.ember := rfl
@[simp] theorem push_pwr (w : Work) (d : Dev) : (push w d).pwr = d.pwr := rfl
@[simp] theorem push_boot (w : Work) (d : Dev) : (push w d).boot = d.boot := rfl
@[simp] theorem push_tally (w : Work) (d : Dev) : (push w d).tally = d.tally := rfl

@[simp] theorem setReg_clk (a : Nat) (v : BitVec 64) (d : Dev) : (setReg a v d).clk = d.clk := rfl
@[simp] theorem setReg_free (a : Nat) (v : BitVec 64) (d : Dev) : (setReg a v d).free = d.free := rfl
@[simp] theorem setReg_out (a : Nat) (v : BitVec 64) (d : Dev) : (setReg a v d).out = d.out := rfl
@[simp] theorem setReg_work (a : Nat) (v : BitVec 64) (d : Dev) : (setReg a v d).work = d.work := rfl
@[simp] theorem setReg_regs (a : Nat) (v : BitVec 64) (d : Dev) : (setReg a v d).regs = mset d.regs a v := rfl
@[simp] theorem setReg_wraps (a : Nat) (v : BitVec 64) (d : Dev) : (setReg a v d).wraps = d.wraps := rfl
@[simp] theorem setReg_chains (a : Nat) (v : BitVec 64) (d : Dev) : (setReg a v d).chains = d.chains := rfl
@[simp] theorem setReg_np (a : Nat) (v : BitVec 64) (d : Dev) : (setReg a v d).np = d.np := rfl
@[simp] theorem setReg_nextReq (a : Nat) (v : BitVec 64) (d : Dev) : (setReg a v d).nextReq = d.nextReq := rfl
@[simp] theorem setReg_reads (a : Nat) (v : BitVec 64) (d : Dev) : (setReg a v d).reads = d.reads := rfl
@[simp] theorem setReg_nextRead (a : Nat) (v : BitVec 64) (d : Dev) : (setReg a v d).nextRead = d.nextRead := rfl
@[simp] theorem setReg_hosts (a : Nat) (v : BitVec 64) (d : Dev) : (setReg a v d).hosts = d.hosts := rfl
@[simp] theorem setReg_fns (a : Nat) (v : BitVec 64) (d : Dev) : (setReg a v d).fns = d.fns := rfl
@[simp] theorem setReg_flt (a : Nat) (v : BitVec 64) (d : Dev) : (setReg a v d).flt = d.flt := rfl
@[simp] theorem setReg_xl (a : Nat) (v : BitVec 64) (d : Dev) : (setReg a v d).xl = d.xl := rfl
@[simp] theorem setReg_ept (a : Nat) (v : BitVec 64) (d : Dev) : (setReg a v d).ept = d.ept := rfl
@[simp] theorem setReg_xp (a : Nat) (v : BitVec 64) (d : Dev) : (setReg a v d).xp = d.xp := rfl
@[simp] theorem setReg_clasp (a : Nat) (v : BitVec 64) (d : Dev) : (setReg a v d).clasp = d.clasp := rfl
@[simp] theorem setReg_mt (a : Nat) (v : BitVec 64) (d : Dev) : (setReg a v d).mt = d.mt := rfl
@[simp] theorem setReg_coll (a : Nat) (v : BitVec 64) (d : Dev) : (setReg a v d).coll = d.coll := rfl
@[simp] theorem setReg_rtr (a : Nat) (v : BitVec 64) (d : Dev) : (setReg a v d).rtr = d.rtr := rfl
@[simp] theorem setReg_ports (a : Nat) (v : BitVec 64) (d : Dev) : (setReg a v d).ports = d.ports := rfl
@[simp] theorem setReg_time (a : Nat) (v : BitVec 64) (d : Dev) : (setReg a v d).time = d.time := rfl
@[simp] theorem setReg_isb (a : Nat) (v : BitVec 64) (d : Dev) : (setReg a v d).isb = d.isb := rfl
@[simp] theorem setReg_nv (a : Nat) (v : BitVec 64) (d : Dev) : (setReg a v d).nv = d.nv := rfl
@[simp] theorem setReg_dma (a : Nat) (v : BitVec 64) (d : Dev) : (setReg a v d).dma = d.dma := rfl
@[simp] theorem setReg_adm (a : Nat) (v : BitVec 64) (d : Dev) : (setReg a v d).adm = d.adm := rfl
@[simp] theorem setReg_mnt (a : Nat) (v : BitVec 64) (d : Dev) : (setReg a v d).mnt = d.mnt := rfl
@[simp] theorem setReg_mgf (a : Nat) (v : BitVec 64) (d : Dev) : (setReg a v d).mgf = d.mgf := rfl
@[simp] theorem setReg_ember (a : Nat) (v : BitVec 64) (d : Dev) : (setReg a v d).ember = d.ember := rfl
@[simp] theorem setReg_pwr (a : Nat) (v : BitVec 64) (d : Dev) : (setReg a v d).pwr = d.pwr := rfl
@[simp] theorem setReg_boot (a : Nat) (v : BitVec 64) (d : Dev) : (setReg a v d).boot = d.boot := rfl
@[simp] theorem setReg_tally (a : Nat) (v : BitVec 64) (d : Dev) : (setReg a v d).tally = d.tally := rfl

@[simp] theorem setFld_clk (a lo w v : Nat) (d : Dev) : (setFld a lo w v d).clk = d.clk := rfl
@[simp] theorem setFld_free (a lo w v : Nat) (d : Dev) : (setFld a lo w v d).free = d.free := rfl
@[simp] theorem setFld_out (a lo w v : Nat) (d : Dev) : (setFld a lo w v d).out = d.out := rfl
@[simp] theorem setFld_work (a lo w v : Nat) (d : Dev) : (setFld a lo w v d).work = d.work := rfl
@[simp] theorem setFld_wraps (a lo w v : Nat) (d : Dev) : (setFld a lo w v d).wraps = d.wraps := rfl
@[simp] theorem setFld_chains (a lo w v : Nat) (d : Dev) : (setFld a lo w v d).chains = d.chains := rfl
@[simp] theorem setFld_np (a lo w v : Nat) (d : Dev) : (setFld a lo w v d).np = d.np := rfl
@[simp] theorem setFld_nextReq (a lo w v : Nat) (d : Dev) : (setFld a lo w v d).nextReq = d.nextReq := rfl
@[simp] theorem setFld_reads (a lo w v : Nat) (d : Dev) : (setFld a lo w v d).reads = d.reads := rfl
@[simp] theorem setFld_nextRead (a lo w v : Nat) (d : Dev) : (setFld a lo w v d).nextRead = d.nextRead := rfl
@[simp] theorem setFld_hosts (a lo w v : Nat) (d : Dev) : (setFld a lo w v d).hosts = d.hosts := rfl
@[simp] theorem setFld_fns (a lo w v : Nat) (d : Dev) : (setFld a lo w v d).fns = d.fns := rfl
@[simp] theorem setFld_flt (a lo w v : Nat) (d : Dev) : (setFld a lo w v d).flt = d.flt := rfl
@[simp] theorem setFld_xl (a lo w v : Nat) (d : Dev) : (setFld a lo w v d).xl = d.xl := rfl
@[simp] theorem setFld_ept (a lo w v : Nat) (d : Dev) : (setFld a lo w v d).ept = d.ept := rfl
@[simp] theorem setFld_xp (a lo w v : Nat) (d : Dev) : (setFld a lo w v d).xp = d.xp := rfl
@[simp] theorem setFld_clasp (a lo w v : Nat) (d : Dev) : (setFld a lo w v d).clasp = d.clasp := rfl
@[simp] theorem setFld_mt (a lo w v : Nat) (d : Dev) : (setFld a lo w v d).mt = d.mt := rfl
@[simp] theorem setFld_coll (a lo w v : Nat) (d : Dev) : (setFld a lo w v d).coll = d.coll := rfl
@[simp] theorem setFld_rtr (a lo w v : Nat) (d : Dev) : (setFld a lo w v d).rtr = d.rtr := rfl
@[simp] theorem setFld_ports (a lo w v : Nat) (d : Dev) : (setFld a lo w v d).ports = d.ports := rfl
@[simp] theorem setFld_time (a lo w v : Nat) (d : Dev) : (setFld a lo w v d).time = d.time := rfl
@[simp] theorem setFld_isb (a lo w v : Nat) (d : Dev) : (setFld a lo w v d).isb = d.isb := rfl
@[simp] theorem setFld_nv (a lo w v : Nat) (d : Dev) : (setFld a lo w v d).nv = d.nv := rfl
@[simp] theorem setFld_dma (a lo w v : Nat) (d : Dev) : (setFld a lo w v d).dma = d.dma := rfl
@[simp] theorem setFld_adm (a lo w v : Nat) (d : Dev) : (setFld a lo w v d).adm = d.adm := rfl
@[simp] theorem setFld_mnt (a lo w v : Nat) (d : Dev) : (setFld a lo w v d).mnt = d.mnt := rfl
@[simp] theorem setFld_mgf (a lo w v : Nat) (d : Dev) : (setFld a lo w v d).mgf = d.mgf := rfl
@[simp] theorem setFld_ember (a lo w v : Nat) (d : Dev) : (setFld a lo w v d).ember = d.ember := rfl
@[simp] theorem setFld_pwr (a lo w v : Nat) (d : Dev) : (setFld a lo w v d).pwr = d.pwr := rfl
@[simp] theorem setFld_boot (a lo w v : Nat) (d : Dev) : (setFld a lo w v d).boot = d.boot := rfl
@[simp] theorem setFld_tally (a lo w v : Nat) (d : Dev) : (setFld a lo w v d).tally = d.tally := rfl

@[simp] theorem setEn_clk (a : Nat) (on : Bool) (d : Dev) : (setEn a on d).clk = d.clk := rfl
@[simp] theorem setEn_free (a : Nat) (on : Bool) (d : Dev) : (setEn a on d).free = d.free := rfl
@[simp] theorem setEn_out (a : Nat) (on : Bool) (d : Dev) : (setEn a on d).out = d.out := rfl
@[simp] theorem setEn_work (a : Nat) (on : Bool) (d : Dev) : (setEn a on d).work = d.work := rfl
@[simp] theorem setEn_wraps (a : Nat) (on : Bool) (d : Dev) : (setEn a on d).wraps = d.wraps := rfl
@[simp] theorem setEn_chains (a : Nat) (on : Bool) (d : Dev) : (setEn a on d).chains = d.chains := rfl
@[simp] theorem setEn_np (a : Nat) (on : Bool) (d : Dev) : (setEn a on d).np = d.np := rfl
@[simp] theorem setEn_nextReq (a : Nat) (on : Bool) (d : Dev) : (setEn a on d).nextReq = d.nextReq := rfl
@[simp] theorem setEn_reads (a : Nat) (on : Bool) (d : Dev) : (setEn a on d).reads = d.reads := rfl
@[simp] theorem setEn_nextRead (a : Nat) (on : Bool) (d : Dev) : (setEn a on d).nextRead = d.nextRead := rfl
@[simp] theorem setEn_hosts (a : Nat) (on : Bool) (d : Dev) : (setEn a on d).hosts = d.hosts := rfl
@[simp] theorem setEn_fns (a : Nat) (on : Bool) (d : Dev) : (setEn a on d).fns = d.fns := rfl
@[simp] theorem setEn_flt (a : Nat) (on : Bool) (d : Dev) : (setEn a on d).flt = d.flt := rfl
@[simp] theorem setEn_xl (a : Nat) (on : Bool) (d : Dev) : (setEn a on d).xl = d.xl := rfl
@[simp] theorem setEn_ept (a : Nat) (on : Bool) (d : Dev) : (setEn a on d).ept = d.ept := rfl
@[simp] theorem setEn_xp (a : Nat) (on : Bool) (d : Dev) : (setEn a on d).xp = d.xp := rfl
@[simp] theorem setEn_clasp (a : Nat) (on : Bool) (d : Dev) : (setEn a on d).clasp = d.clasp := rfl
@[simp] theorem setEn_mt (a : Nat) (on : Bool) (d : Dev) : (setEn a on d).mt = d.mt := rfl
@[simp] theorem setEn_coll (a : Nat) (on : Bool) (d : Dev) : (setEn a on d).coll = d.coll := rfl
@[simp] theorem setEn_rtr (a : Nat) (on : Bool) (d : Dev) : (setEn a on d).rtr = d.rtr := rfl
@[simp] theorem setEn_ports (a : Nat) (on : Bool) (d : Dev) : (setEn a on d).ports = d.ports := rfl
@[simp] theorem setEn_time (a : Nat) (on : Bool) (d : Dev) : (setEn a on d).time = d.time := rfl
@[simp] theorem setEn_isb (a : Nat) (on : Bool) (d : Dev) : (setEn a on d).isb = d.isb := rfl
@[simp] theorem setEn_nv (a : Nat) (on : Bool) (d : Dev) : (setEn a on d).nv = d.nv := rfl
@[simp] theorem setEn_dma (a : Nat) (on : Bool) (d : Dev) : (setEn a on d).dma = d.dma := rfl
@[simp] theorem setEn_adm (a : Nat) (on : Bool) (d : Dev) : (setEn a on d).adm = d.adm := rfl
@[simp] theorem setEn_mnt (a : Nat) (on : Bool) (d : Dev) : (setEn a on d).mnt = d.mnt := rfl
@[simp] theorem setEn_mgf (a : Nat) (on : Bool) (d : Dev) : (setEn a on d).mgf = d.mgf := rfl
@[simp] theorem setEn_ember (a : Nat) (on : Bool) (d : Dev) : (setEn a on d).ember = d.ember := rfl
@[simp] theorem setEn_pwr (a : Nat) (on : Bool) (d : Dev) : (setEn a on d).pwr = d.pwr := rfl
@[simp] theorem setEn_boot (a : Nat) (on : Bool) (d : Dev) : (setEn a on d).boot = d.boot := rfl
@[simp] theorem setEn_tally (a : Nat) (on : Bool) (d : Dev) : (setEn a on d).tally = d.tally := rfl

@[simp] theorem updHost_clk (h : Nat) (g : HostPort → HostPort) (d : Dev) : (updHost h g d).clk = d.clk := rfl
@[simp] theorem updHost_free (h : Nat) (g : HostPort → HostPort) (d : Dev) : (updHost h g d).free = d.free := rfl
@[simp] theorem updHost_out (h : Nat) (g : HostPort → HostPort) (d : Dev) : (updHost h g d).out = d.out := rfl
@[simp] theorem updHost_work (h : Nat) (g : HostPort → HostPort) (d : Dev) : (updHost h g d).work = d.work := rfl
@[simp] theorem updHost_regs (h : Nat) (g : HostPort → HostPort) (d : Dev) : (updHost h g d).regs = d.regs := rfl
@[simp] theorem updHost_wraps (h : Nat) (g : HostPort → HostPort) (d : Dev) : (updHost h g d).wraps = d.wraps := rfl
@[simp] theorem updHost_chains (h : Nat) (g : HostPort → HostPort) (d : Dev) : (updHost h g d).chains = d.chains := rfl
@[simp] theorem updHost_np (h : Nat) (g : HostPort → HostPort) (d : Dev) : (updHost h g d).np = d.np := rfl
@[simp] theorem updHost_nextReq (h : Nat) (g : HostPort → HostPort) (d : Dev) : (updHost h g d).nextReq = d.nextReq := rfl
@[simp] theorem updHost_reads (h : Nat) (g : HostPort → HostPort) (d : Dev) : (updHost h g d).reads = d.reads := rfl
@[simp] theorem updHost_nextRead (h : Nat) (g : HostPort → HostPort) (d : Dev) : (updHost h g d).nextRead = d.nextRead := rfl
@[simp] theorem updHost_hosts (h : Nat) (g : HostPort → HostPort) (d : Dev) : (updHost h g d).hosts = mset d.hosts h (g (host d h)) := rfl
@[simp] theorem updHost_fns (h : Nat) (g : HostPort → HostPort) (d : Dev) : (updHost h g d).fns = d.fns := rfl
@[simp] theorem updHost_flt (h : Nat) (g : HostPort → HostPort) (d : Dev) : (updHost h g d).flt = d.flt := rfl
@[simp] theorem updHost_xl (h : Nat) (g : HostPort → HostPort) (d : Dev) : (updHost h g d).xl = d.xl := rfl
@[simp] theorem updHost_ept (h : Nat) (g : HostPort → HostPort) (d : Dev) : (updHost h g d).ept = d.ept := rfl
@[simp] theorem updHost_xp (h : Nat) (g : HostPort → HostPort) (d : Dev) : (updHost h g d).xp = d.xp := rfl
@[simp] theorem updHost_clasp (h : Nat) (g : HostPort → HostPort) (d : Dev) : (updHost h g d).clasp = d.clasp := rfl
@[simp] theorem updHost_mt (h : Nat) (g : HostPort → HostPort) (d : Dev) : (updHost h g d).mt = d.mt := rfl
@[simp] theorem updHost_coll (h : Nat) (g : HostPort → HostPort) (d : Dev) : (updHost h g d).coll = d.coll := rfl
@[simp] theorem updHost_rtr (h : Nat) (g : HostPort → HostPort) (d : Dev) : (updHost h g d).rtr = d.rtr := rfl
@[simp] theorem updHost_ports (h : Nat) (g : HostPort → HostPort) (d : Dev) : (updHost h g d).ports = d.ports := rfl
@[simp] theorem updHost_time (h : Nat) (g : HostPort → HostPort) (d : Dev) : (updHost h g d).time = d.time := rfl
@[simp] theorem updHost_isb (h : Nat) (g : HostPort → HostPort) (d : Dev) : (updHost h g d).isb = d.isb := rfl
@[simp] theorem updHost_nv (h : Nat) (g : HostPort → HostPort) (d : Dev) : (updHost h g d).nv = d.nv := rfl
@[simp] theorem updHost_dma (h : Nat) (g : HostPort → HostPort) (d : Dev) : (updHost h g d).dma = d.dma := rfl
@[simp] theorem updHost_adm (h : Nat) (g : HostPort → HostPort) (d : Dev) : (updHost h g d).adm = d.adm := rfl
@[simp] theorem updHost_mnt (h : Nat) (g : HostPort → HostPort) (d : Dev) : (updHost h g d).mnt = d.mnt := rfl
@[simp] theorem updHost_mgf (h : Nat) (g : HostPort → HostPort) (d : Dev) : (updHost h g d).mgf = d.mgf := rfl
@[simp] theorem updHost_ember (h : Nat) (g : HostPort → HostPort) (d : Dev) : (updHost h g d).ember = d.ember := rfl
@[simp] theorem updHost_pwr (h : Nat) (g : HostPort → HostPort) (d : Dev) : (updHost h g d).pwr = d.pwr := rfl
@[simp] theorem updHost_boot (h : Nat) (g : HostPort → HostPort) (d : Dev) : (updHost h g d).boot = d.boot := rfl
@[simp] theorem updHost_tally (h : Nat) (g : HostPort → HostPort) (d : Dev) : (updHost h g d).tally = d.tally := rfl

@[simp] theorem updFn_clk (f : Func) (g : Fn → Fn) (d : Dev) : (updFn f g d).clk = d.clk := rfl
@[simp] theorem updFn_free (f : Func) (g : Fn → Fn) (d : Dev) : (updFn f g d).free = d.free := rfl
@[simp] theorem updFn_out (f : Func) (g : Fn → Fn) (d : Dev) : (updFn f g d).out = d.out := rfl
@[simp] theorem updFn_work (f : Func) (g : Fn → Fn) (d : Dev) : (updFn f g d).work = d.work := rfl
@[simp] theorem updFn_regs (f : Func) (g : Fn → Fn) (d : Dev) : (updFn f g d).regs = d.regs := rfl
@[simp] theorem updFn_wraps (f : Func) (g : Fn → Fn) (d : Dev) : (updFn f g d).wraps = d.wraps := rfl
@[simp] theorem updFn_chains (f : Func) (g : Fn → Fn) (d : Dev) : (updFn f g d).chains = d.chains := rfl
@[simp] theorem updFn_np (f : Func) (g : Fn → Fn) (d : Dev) : (updFn f g d).np = d.np := rfl
@[simp] theorem updFn_nextReq (f : Func) (g : Fn → Fn) (d : Dev) : (updFn f g d).nextReq = d.nextReq := rfl
@[simp] theorem updFn_reads (f : Func) (g : Fn → Fn) (d : Dev) : (updFn f g d).reads = d.reads := rfl
@[simp] theorem updFn_nextRead (f : Func) (g : Fn → Fn) (d : Dev) : (updFn f g d).nextRead = d.nextRead := rfl
@[simp] theorem updFn_hosts (f : Func) (g : Fn → Fn) (d : Dev) : (updFn f g d).hosts = d.hosts := rfl
@[simp] theorem updFn_fns (f : Func) (g : Fn → Fn) (d : Dev) : (updFn f g d).fns = mset d.fns (fkey f) (g (fn d f)) := rfl
@[simp] theorem updFn_flt (f : Func) (g : Fn → Fn) (d : Dev) : (updFn f g d).flt = d.flt := rfl
@[simp] theorem updFn_xl (f : Func) (g : Fn → Fn) (d : Dev) : (updFn f g d).xl = d.xl := rfl
@[simp] theorem updFn_ept (f : Func) (g : Fn → Fn) (d : Dev) : (updFn f g d).ept = d.ept := rfl
@[simp] theorem updFn_xp (f : Func) (g : Fn → Fn) (d : Dev) : (updFn f g d).xp = d.xp := rfl
@[simp] theorem updFn_clasp (f : Func) (g : Fn → Fn) (d : Dev) : (updFn f g d).clasp = d.clasp := rfl
@[simp] theorem updFn_mt (f : Func) (g : Fn → Fn) (d : Dev) : (updFn f g d).mt = d.mt := rfl
@[simp] theorem updFn_coll (f : Func) (g : Fn → Fn) (d : Dev) : (updFn f g d).coll = d.coll := rfl
@[simp] theorem updFn_rtr (f : Func) (g : Fn → Fn) (d : Dev) : (updFn f g d).rtr = d.rtr := rfl
@[simp] theorem updFn_ports (f : Func) (g : Fn → Fn) (d : Dev) : (updFn f g d).ports = d.ports := rfl
@[simp] theorem updFn_time (f : Func) (g : Fn → Fn) (d : Dev) : (updFn f g d).time = d.time := rfl
@[simp] theorem updFn_isb (f : Func) (g : Fn → Fn) (d : Dev) : (updFn f g d).isb = d.isb := rfl
@[simp] theorem updFn_nv (f : Func) (g : Fn → Fn) (d : Dev) : (updFn f g d).nv = d.nv := rfl
@[simp] theorem updFn_dma (f : Func) (g : Fn → Fn) (d : Dev) : (updFn f g d).dma = d.dma := rfl
@[simp] theorem updFn_adm (f : Func) (g : Fn → Fn) (d : Dev) : (updFn f g d).adm = d.adm := rfl
@[simp] theorem updFn_mnt (f : Func) (g : Fn → Fn) (d : Dev) : (updFn f g d).mnt = d.mnt := rfl
@[simp] theorem updFn_mgf (f : Func) (g : Fn → Fn) (d : Dev) : (updFn f g d).mgf = d.mgf := rfl
@[simp] theorem updFn_ember (f : Func) (g : Fn → Fn) (d : Dev) : (updFn f g d).ember = d.ember := rfl
@[simp] theorem updFn_pwr (f : Func) (g : Fn → Fn) (d : Dev) : (updFn f g d).pwr = d.pwr := rfl
@[simp] theorem updFn_boot (f : Func) (g : Fn → Fn) (d : Dev) : (updFn f g d).boot = d.boot := rfl
@[simp] theorem updFn_tally (f : Func) (g : Fn → Fn) (d : Dev) : (updFn f g d).tally = d.tally := rfl

@[simp] theorem updPort_clk (n : Nat) (g : Port → Port) (d : Dev) : (updPort n g d).clk = d.clk := rfl
@[simp] theorem updPort_free (n : Nat) (g : Port → Port) (d : Dev) : (updPort n g d).free = d.free := rfl
@[simp] theorem updPort_out (n : Nat) (g : Port → Port) (d : Dev) : (updPort n g d).out = d.out := rfl
@[simp] theorem updPort_work (n : Nat) (g : Port → Port) (d : Dev) : (updPort n g d).work = d.work := rfl
@[simp] theorem updPort_regs (n : Nat) (g : Port → Port) (d : Dev) : (updPort n g d).regs = d.regs := rfl
@[simp] theorem updPort_wraps (n : Nat) (g : Port → Port) (d : Dev) : (updPort n g d).wraps = d.wraps := rfl
@[simp] theorem updPort_chains (n : Nat) (g : Port → Port) (d : Dev) : (updPort n g d).chains = d.chains := rfl
@[simp] theorem updPort_np (n : Nat) (g : Port → Port) (d : Dev) : (updPort n g d).np = d.np := rfl
@[simp] theorem updPort_nextReq (n : Nat) (g : Port → Port) (d : Dev) : (updPort n g d).nextReq = d.nextReq := rfl
@[simp] theorem updPort_reads (n : Nat) (g : Port → Port) (d : Dev) : (updPort n g d).reads = d.reads := rfl
@[simp] theorem updPort_nextRead (n : Nat) (g : Port → Port) (d : Dev) : (updPort n g d).nextRead = d.nextRead := rfl
@[simp] theorem updPort_hosts (n : Nat) (g : Port → Port) (d : Dev) : (updPort n g d).hosts = d.hosts := rfl
@[simp] theorem updPort_fns (n : Nat) (g : Port → Port) (d : Dev) : (updPort n g d).fns = d.fns := rfl
@[simp] theorem updPort_flt (n : Nat) (g : Port → Port) (d : Dev) : (updPort n g d).flt = d.flt := rfl
@[simp] theorem updPort_xl (n : Nat) (g : Port → Port) (d : Dev) : (updPort n g d).xl = d.xl := rfl
@[simp] theorem updPort_ept (n : Nat) (g : Port → Port) (d : Dev) : (updPort n g d).ept = d.ept := rfl
@[simp] theorem updPort_xp (n : Nat) (g : Port → Port) (d : Dev) : (updPort n g d).xp = d.xp := rfl
@[simp] theorem updPort_clasp (n : Nat) (g : Port → Port) (d : Dev) : (updPort n g d).clasp = d.clasp := rfl
@[simp] theorem updPort_mt (n : Nat) (g : Port → Port) (d : Dev) : (updPort n g d).mt = d.mt := rfl
@[simp] theorem updPort_coll (n : Nat) (g : Port → Port) (d : Dev) : (updPort n g d).coll = d.coll := rfl
@[simp] theorem updPort_rtr (n : Nat) (g : Port → Port) (d : Dev) : (updPort n g d).rtr = d.rtr := rfl
@[simp] theorem updPort_ports (n : Nat) (g : Port → Port) (d : Dev) : (updPort n g d).ports = mset d.ports n (g (port d n)) := rfl
@[simp] theorem updPort_time (n : Nat) (g : Port → Port) (d : Dev) : (updPort n g d).time = d.time := rfl
@[simp] theorem updPort_isb (n : Nat) (g : Port → Port) (d : Dev) : (updPort n g d).isb = d.isb := rfl
@[simp] theorem updPort_nv (n : Nat) (g : Port → Port) (d : Dev) : (updPort n g d).nv = d.nv := rfl
@[simp] theorem updPort_dma (n : Nat) (g : Port → Port) (d : Dev) : (updPort n g d).dma = d.dma := rfl
@[simp] theorem updPort_adm (n : Nat) (g : Port → Port) (d : Dev) : (updPort n g d).adm = d.adm := rfl
@[simp] theorem updPort_mnt (n : Nat) (g : Port → Port) (d : Dev) : (updPort n g d).mnt = d.mnt := rfl
@[simp] theorem updPort_mgf (n : Nat) (g : Port → Port) (d : Dev) : (updPort n g d).mgf = d.mgf := rfl
@[simp] theorem updPort_ember (n : Nat) (g : Port → Port) (d : Dev) : (updPort n g d).ember = d.ember := rfl
@[simp] theorem updPort_pwr (n : Nat) (g : Port → Port) (d : Dev) : (updPort n g d).pwr = d.pwr := rfl
@[simp] theorem updPort_boot (n : Nat) (g : Port → Port) (d : Dev) : (updPort n g d).boot = d.boot := rfl
@[simp] theorem updPort_tally (n : Nat) (g : Port → Port) (d : Dev) : (updPort n g d).tally = d.tally := rfl

@[simp] theorem updLane_clk (n : Nat) (g : Lane → Lane) (d : Dev) : (updLane n g d).clk = d.clk := rfl
@[simp] theorem updLane_free (n : Nat) (g : Lane → Lane) (d : Dev) : (updLane n g d).free = d.free := rfl
@[simp] theorem updLane_out (n : Nat) (g : Lane → Lane) (d : Dev) : (updLane n g d).out = d.out := rfl
@[simp] theorem updLane_work (n : Nat) (g : Lane → Lane) (d : Dev) : (updLane n g d).work = d.work := rfl
@[simp] theorem updLane_regs (n : Nat) (g : Lane → Lane) (d : Dev) : (updLane n g d).regs = d.regs := rfl
@[simp] theorem updLane_wraps (n : Nat) (g : Lane → Lane) (d : Dev) : (updLane n g d).wraps = d.wraps := rfl
@[simp] theorem updLane_chains (n : Nat) (g : Lane → Lane) (d : Dev) : (updLane n g d).chains = d.chains := rfl
@[simp] theorem updLane_np (n : Nat) (g : Lane → Lane) (d : Dev) : (updLane n g d).np = d.np := rfl
@[simp] theorem updLane_nextReq (n : Nat) (g : Lane → Lane) (d : Dev) : (updLane n g d).nextReq = d.nextReq := rfl
@[simp] theorem updLane_reads (n : Nat) (g : Lane → Lane) (d : Dev) : (updLane n g d).reads = d.reads := rfl
@[simp] theorem updLane_nextRead (n : Nat) (g : Lane → Lane) (d : Dev) : (updLane n g d).nextRead = d.nextRead := rfl
@[simp] theorem updLane_hosts (n : Nat) (g : Lane → Lane) (d : Dev) : (updLane n g d).hosts = d.hosts := rfl
@[simp] theorem updLane_fns (n : Nat) (g : Lane → Lane) (d : Dev) : (updLane n g d).fns = d.fns := rfl
@[simp] theorem updLane_flt (n : Nat) (g : Lane → Lane) (d : Dev) : (updLane n g d).flt = d.flt := rfl
@[simp] theorem updLane_xl (n : Nat) (g : Lane → Lane) (d : Dev) : (updLane n g d).xl = d.xl := rfl
@[simp] theorem updLane_ept (n : Nat) (g : Lane → Lane) (d : Dev) : (updLane n g d).ept = d.ept := rfl
@[simp] theorem updLane_xp (n : Nat) (g : Lane → Lane) (d : Dev) : (updLane n g d).xp = d.xp := rfl
@[simp] theorem updLane_clasp (n : Nat) (g : Lane → Lane) (d : Dev) : (updLane n g d).clasp = d.clasp := rfl
@[simp] theorem updLane_mt (n : Nat) (g : Lane → Lane) (d : Dev) : (updLane n g d).mt = d.mt := rfl
@[simp] theorem updLane_coll (n : Nat) (g : Lane → Lane) (d : Dev) : (updLane n g d).coll = d.coll := rfl
@[simp] theorem updLane_rtr (n : Nat) (g : Lane → Lane) (d : Dev) : (updLane n g d).rtr = d.rtr := rfl
@[simp] theorem updLane_time (n : Nat) (g : Lane → Lane) (d : Dev) : (updLane n g d).time = d.time := rfl
@[simp] theorem updLane_isb (n : Nat) (g : Lane → Lane) (d : Dev) : (updLane n g d).isb = d.isb := rfl
@[simp] theorem updLane_nv (n : Nat) (g : Lane → Lane) (d : Dev) : (updLane n g d).nv = d.nv := rfl
@[simp] theorem updLane_dma (n : Nat) (g : Lane → Lane) (d : Dev) : (updLane n g d).dma = d.dma := rfl
@[simp] theorem updLane_adm (n : Nat) (g : Lane → Lane) (d : Dev) : (updLane n g d).adm = d.adm := rfl
@[simp] theorem updLane_mnt (n : Nat) (g : Lane → Lane) (d : Dev) : (updLane n g d).mnt = d.mnt := rfl
@[simp] theorem updLane_mgf (n : Nat) (g : Lane → Lane) (d : Dev) : (updLane n g d).mgf = d.mgf := rfl
@[simp] theorem updLane_ember (n : Nat) (g : Lane → Lane) (d : Dev) : (updLane n g d).ember = d.ember := rfl
@[simp] theorem updLane_pwr (n : Nat) (g : Lane → Lane) (d : Dev) : (updLane n g d).pwr = d.pwr := rfl
@[simp] theorem updLane_boot (n : Nat) (g : Lane → Lane) (d : Dev) : (updLane n g d).boot = d.boot := rfl
@[simp] theorem updLane_tally (n : Nat) (g : Lane → Lane) (d : Dev) : (updLane n g d).tally = d.tally := rfl

@[simp] theorem updLink_clk (n : Nat) (g : Link → Link) (d : Dev) : (updLink n g d).clk = d.clk := rfl
@[simp] theorem updLink_free (n : Nat) (g : Link → Link) (d : Dev) : (updLink n g d).free = d.free := rfl
@[simp] theorem updLink_out (n : Nat) (g : Link → Link) (d : Dev) : (updLink n g d).out = d.out := rfl
@[simp] theorem updLink_work (n : Nat) (g : Link → Link) (d : Dev) : (updLink n g d).work = d.work := rfl
@[simp] theorem updLink_regs (n : Nat) (g : Link → Link) (d : Dev) : (updLink n g d).regs = d.regs := rfl
@[simp] theorem updLink_wraps (n : Nat) (g : Link → Link) (d : Dev) : (updLink n g d).wraps = d.wraps := rfl
@[simp] theorem updLink_chains (n : Nat) (g : Link → Link) (d : Dev) : (updLink n g d).chains = d.chains := rfl
@[simp] theorem updLink_np (n : Nat) (g : Link → Link) (d : Dev) : (updLink n g d).np = d.np := rfl
@[simp] theorem updLink_nextReq (n : Nat) (g : Link → Link) (d : Dev) : (updLink n g d).nextReq = d.nextReq := rfl
@[simp] theorem updLink_reads (n : Nat) (g : Link → Link) (d : Dev) : (updLink n g d).reads = d.reads := rfl
@[simp] theorem updLink_nextRead (n : Nat) (g : Link → Link) (d : Dev) : (updLink n g d).nextRead = d.nextRead := rfl
@[simp] theorem updLink_hosts (n : Nat) (g : Link → Link) (d : Dev) : (updLink n g d).hosts = d.hosts := rfl
@[simp] theorem updLink_fns (n : Nat) (g : Link → Link) (d : Dev) : (updLink n g d).fns = d.fns := rfl
@[simp] theorem updLink_flt (n : Nat) (g : Link → Link) (d : Dev) : (updLink n g d).flt = d.flt := rfl
@[simp] theorem updLink_xl (n : Nat) (g : Link → Link) (d : Dev) : (updLink n g d).xl = d.xl := rfl
@[simp] theorem updLink_ept (n : Nat) (g : Link → Link) (d : Dev) : (updLink n g d).ept = d.ept := rfl
@[simp] theorem updLink_xp (n : Nat) (g : Link → Link) (d : Dev) : (updLink n g d).xp = d.xp := rfl
@[simp] theorem updLink_clasp (n : Nat) (g : Link → Link) (d : Dev) : (updLink n g d).clasp = d.clasp := rfl
@[simp] theorem updLink_mt (n : Nat) (g : Link → Link) (d : Dev) : (updLink n g d).mt = d.mt := rfl
@[simp] theorem updLink_coll (n : Nat) (g : Link → Link) (d : Dev) : (updLink n g d).coll = d.coll := rfl
@[simp] theorem updLink_rtr (n : Nat) (g : Link → Link) (d : Dev) : (updLink n g d).rtr = d.rtr := rfl
@[simp] theorem updLink_time (n : Nat) (g : Link → Link) (d : Dev) : (updLink n g d).time = d.time := rfl
@[simp] theorem updLink_isb (n : Nat) (g : Link → Link) (d : Dev) : (updLink n g d).isb = d.isb := rfl
@[simp] theorem updLink_nv (n : Nat) (g : Link → Link) (d : Dev) : (updLink n g d).nv = d.nv := rfl
@[simp] theorem updLink_dma (n : Nat) (g : Link → Link) (d : Dev) : (updLink n g d).dma = d.dma := rfl
@[simp] theorem updLink_adm (n : Nat) (g : Link → Link) (d : Dev) : (updLink n g d).adm = d.adm := rfl
@[simp] theorem updLink_mnt (n : Nat) (g : Link → Link) (d : Dev) : (updLink n g d).mnt = d.mnt := rfl
@[simp] theorem updLink_mgf (n : Nat) (g : Link → Link) (d : Dev) : (updLink n g d).mgf = d.mgf := rfl
@[simp] theorem updLink_ember (n : Nat) (g : Link → Link) (d : Dev) : (updLink n g d).ember = d.ember := rfl
@[simp] theorem updLink_pwr (n : Nat) (g : Link → Link) (d : Dev) : (updLink n g d).pwr = d.pwr := rfl
@[simp] theorem updLink_boot (n : Nat) (g : Link → Link) (d : Dev) : (updLink n g d).boot = d.boot := rfl
@[simp] theorem updLink_tally (n : Nat) (g : Link → Link) (d : Dev) : (updLink n g d).tally = d.tally := rfl

@[simp] theorem updPTime_clk (n : Nat) (g : PTime → PTime) (d : Dev) : (updPTime n g d).clk = d.clk := rfl
@[simp] theorem updPTime_free (n : Nat) (g : PTime → PTime) (d : Dev) : (updPTime n g d).free = d.free := rfl
@[simp] theorem updPTime_out (n : Nat) (g : PTime → PTime) (d : Dev) : (updPTime n g d).out = d.out := rfl
@[simp] theorem updPTime_work (n : Nat) (g : PTime → PTime) (d : Dev) : (updPTime n g d).work = d.work := rfl
@[simp] theorem updPTime_regs (n : Nat) (g : PTime → PTime) (d : Dev) : (updPTime n g d).regs = d.regs := rfl
@[simp] theorem updPTime_wraps (n : Nat) (g : PTime → PTime) (d : Dev) : (updPTime n g d).wraps = d.wraps := rfl
@[simp] theorem updPTime_chains (n : Nat) (g : PTime → PTime) (d : Dev) : (updPTime n g d).chains = d.chains := rfl
@[simp] theorem updPTime_np (n : Nat) (g : PTime → PTime) (d : Dev) : (updPTime n g d).np = d.np := rfl
@[simp] theorem updPTime_nextReq (n : Nat) (g : PTime → PTime) (d : Dev) : (updPTime n g d).nextReq = d.nextReq := rfl
@[simp] theorem updPTime_reads (n : Nat) (g : PTime → PTime) (d : Dev) : (updPTime n g d).reads = d.reads := rfl
@[simp] theorem updPTime_nextRead (n : Nat) (g : PTime → PTime) (d : Dev) : (updPTime n g d).nextRead = d.nextRead := rfl
@[simp] theorem updPTime_hosts (n : Nat) (g : PTime → PTime) (d : Dev) : (updPTime n g d).hosts = d.hosts := rfl
@[simp] theorem updPTime_fns (n : Nat) (g : PTime → PTime) (d : Dev) : (updPTime n g d).fns = d.fns := rfl
@[simp] theorem updPTime_flt (n : Nat) (g : PTime → PTime) (d : Dev) : (updPTime n g d).flt = d.flt := rfl
@[simp] theorem updPTime_xl (n : Nat) (g : PTime → PTime) (d : Dev) : (updPTime n g d).xl = d.xl := rfl
@[simp] theorem updPTime_ept (n : Nat) (g : PTime → PTime) (d : Dev) : (updPTime n g d).ept = d.ept := rfl
@[simp] theorem updPTime_xp (n : Nat) (g : PTime → PTime) (d : Dev) : (updPTime n g d).xp = d.xp := rfl
@[simp] theorem updPTime_clasp (n : Nat) (g : PTime → PTime) (d : Dev) : (updPTime n g d).clasp = d.clasp := rfl
@[simp] theorem updPTime_mt (n : Nat) (g : PTime → PTime) (d : Dev) : (updPTime n g d).mt = d.mt := rfl
@[simp] theorem updPTime_coll (n : Nat) (g : PTime → PTime) (d : Dev) : (updPTime n g d).coll = d.coll := rfl
@[simp] theorem updPTime_rtr (n : Nat) (g : PTime → PTime) (d : Dev) : (updPTime n g d).rtr = d.rtr := rfl
@[simp] theorem updPTime_time (n : Nat) (g : PTime → PTime) (d : Dev) : (updPTime n g d).time = d.time := rfl
@[simp] theorem updPTime_isb (n : Nat) (g : PTime → PTime) (d : Dev) : (updPTime n g d).isb = d.isb := rfl
@[simp] theorem updPTime_nv (n : Nat) (g : PTime → PTime) (d : Dev) : (updPTime n g d).nv = d.nv := rfl
@[simp] theorem updPTime_dma (n : Nat) (g : PTime → PTime) (d : Dev) : (updPTime n g d).dma = d.dma := rfl
@[simp] theorem updPTime_adm (n : Nat) (g : PTime → PTime) (d : Dev) : (updPTime n g d).adm = d.adm := rfl
@[simp] theorem updPTime_mnt (n : Nat) (g : PTime → PTime) (d : Dev) : (updPTime n g d).mnt = d.mnt := rfl
@[simp] theorem updPTime_mgf (n : Nat) (g : PTime → PTime) (d : Dev) : (updPTime n g d).mgf = d.mgf := rfl
@[simp] theorem updPTime_ember (n : Nat) (g : PTime → PTime) (d : Dev) : (updPTime n g d).ember = d.ember := rfl
@[simp] theorem updPTime_pwr (n : Nat) (g : PTime → PTime) (d : Dev) : (updPTime n g d).pwr = d.pwr := rfl
@[simp] theorem updPTime_boot (n : Nat) (g : PTime → PTime) (d : Dev) : (updPTime n g d).boot = d.boot := rfl
@[simp] theorem updPTime_tally (n : Nat) (g : PTime → PTime) (d : Dev) : (updPTime n g d).tally = d.tally := rfl

@[simp] theorem updEp_clk (e : Nat) (g : Ep → Ep) (d : Dev) : (updEp e g d).clk = d.clk := rfl
@[simp] theorem updEp_free (e : Nat) (g : Ep → Ep) (d : Dev) : (updEp e g d).free = d.free := rfl
@[simp] theorem updEp_out (e : Nat) (g : Ep → Ep) (d : Dev) : (updEp e g d).out = d.out := rfl
@[simp] theorem updEp_work (e : Nat) (g : Ep → Ep) (d : Dev) : (updEp e g d).work = d.work := rfl
@[simp] theorem updEp_regs (e : Nat) (g : Ep → Ep) (d : Dev) : (updEp e g d).regs = d.regs := rfl
@[simp] theorem updEp_wraps (e : Nat) (g : Ep → Ep) (d : Dev) : (updEp e g d).wraps = d.wraps := rfl
@[simp] theorem updEp_chains (e : Nat) (g : Ep → Ep) (d : Dev) : (updEp e g d).chains = d.chains := rfl
@[simp] theorem updEp_np (e : Nat) (g : Ep → Ep) (d : Dev) : (updEp e g d).np = d.np := rfl
@[simp] theorem updEp_nextReq (e : Nat) (g : Ep → Ep) (d : Dev) : (updEp e g d).nextReq = d.nextReq := rfl
@[simp] theorem updEp_reads (e : Nat) (g : Ep → Ep) (d : Dev) : (updEp e g d).reads = d.reads := rfl
@[simp] theorem updEp_nextRead (e : Nat) (g : Ep → Ep) (d : Dev) : (updEp e g d).nextRead = d.nextRead := rfl
@[simp] theorem updEp_hosts (e : Nat) (g : Ep → Ep) (d : Dev) : (updEp e g d).hosts = d.hosts := rfl
@[simp] theorem updEp_fns (e : Nat) (g : Ep → Ep) (d : Dev) : (updEp e g d).fns = d.fns := rfl
@[simp] theorem updEp_flt (e : Nat) (g : Ep → Ep) (d : Dev) : (updEp e g d).flt = d.flt := rfl
@[simp] theorem updEp_xl (e : Nat) (g : Ep → Ep) (d : Dev) : (updEp e g d).xl = d.xl := rfl
@[simp] theorem updEp_xp (e : Nat) (g : Ep → Ep) (d : Dev) : (updEp e g d).xp = d.xp := rfl
@[simp] theorem updEp_clasp (e : Nat) (g : Ep → Ep) (d : Dev) : (updEp e g d).clasp = d.clasp := rfl
@[simp] theorem updEp_mt (e : Nat) (g : Ep → Ep) (d : Dev) : (updEp e g d).mt = d.mt := rfl
@[simp] theorem updEp_coll (e : Nat) (g : Ep → Ep) (d : Dev) : (updEp e g d).coll = d.coll := rfl
@[simp] theorem updEp_rtr (e : Nat) (g : Ep → Ep) (d : Dev) : (updEp e g d).rtr = d.rtr := rfl
@[simp] theorem updEp_ports (e : Nat) (g : Ep → Ep) (d : Dev) : (updEp e g d).ports = d.ports := rfl
@[simp] theorem updEp_time (e : Nat) (g : Ep → Ep) (d : Dev) : (updEp e g d).time = d.time := rfl
@[simp] theorem updEp_isb (e : Nat) (g : Ep → Ep) (d : Dev) : (updEp e g d).isb = d.isb := rfl
@[simp] theorem updEp_nv (e : Nat) (g : Ep → Ep) (d : Dev) : (updEp e g d).nv = d.nv := rfl
@[simp] theorem updEp_dma (e : Nat) (g : Ep → Ep) (d : Dev) : (updEp e g d).dma = d.dma := rfl
@[simp] theorem updEp_adm (e : Nat) (g : Ep → Ep) (d : Dev) : (updEp e g d).adm = d.adm := rfl
@[simp] theorem updEp_mnt (e : Nat) (g : Ep → Ep) (d : Dev) : (updEp e g d).mnt = d.mnt := rfl
@[simp] theorem updEp_mgf (e : Nat) (g : Ep → Ep) (d : Dev) : (updEp e g d).mgf = d.mgf := rfl
@[simp] theorem updEp_ember (e : Nat) (g : Ep → Ep) (d : Dev) : (updEp e g d).ember = d.ember := rfl
@[simp] theorem updEp_pwr (e : Nat) (g : Ep → Ep) (d : Dev) : (updEp e g d).pwr = d.pwr := rfl
@[simp] theorem updEp_boot (e : Nat) (g : Ep → Ep) (d : Dev) : (updEp e g d).boot = d.boot := rfl
@[simp] theorem updEp_tally (e : Nat) (g : Ep → Ep) (d : Dev) : (updEp e g d).tally = d.tally := rfl

@[simp] theorem updCq_clk (c : Nat) (g : Cq → Cq) (d : Dev) : (updCq c g d).clk = d.clk := rfl
@[simp] theorem updCq_free (c : Nat) (g : Cq → Cq) (d : Dev) : (updCq c g d).free = d.free := rfl
@[simp] theorem updCq_out (c : Nat) (g : Cq → Cq) (d : Dev) : (updCq c g d).out = d.out := rfl
@[simp] theorem updCq_work (c : Nat) (g : Cq → Cq) (d : Dev) : (updCq c g d).work = d.work := rfl
@[simp] theorem updCq_regs (c : Nat) (g : Cq → Cq) (d : Dev) : (updCq c g d).regs = d.regs := rfl
@[simp] theorem updCq_wraps (c : Nat) (g : Cq → Cq) (d : Dev) : (updCq c g d).wraps = d.wraps := rfl
@[simp] theorem updCq_chains (c : Nat) (g : Cq → Cq) (d : Dev) : (updCq c g d).chains = d.chains := rfl
@[simp] theorem updCq_np (c : Nat) (g : Cq → Cq) (d : Dev) : (updCq c g d).np = d.np := rfl
@[simp] theorem updCq_nextReq (c : Nat) (g : Cq → Cq) (d : Dev) : (updCq c g d).nextReq = d.nextReq := rfl
@[simp] theorem updCq_reads (c : Nat) (g : Cq → Cq) (d : Dev) : (updCq c g d).reads = d.reads := rfl
@[simp] theorem updCq_nextRead (c : Nat) (g : Cq → Cq) (d : Dev) : (updCq c g d).nextRead = d.nextRead := rfl
@[simp] theorem updCq_hosts (c : Nat) (g : Cq → Cq) (d : Dev) : (updCq c g d).hosts = d.hosts := rfl
@[simp] theorem updCq_fns (c : Nat) (g : Cq → Cq) (d : Dev) : (updCq c g d).fns = d.fns := rfl
@[simp] theorem updCq_flt (c : Nat) (g : Cq → Cq) (d : Dev) : (updCq c g d).flt = d.flt := rfl
@[simp] theorem updCq_xl (c : Nat) (g : Cq → Cq) (d : Dev) : (updCq c g d).xl = d.xl := rfl
@[simp] theorem updCq_xp (c : Nat) (g : Cq → Cq) (d : Dev) : (updCq c g d).xp = d.xp := rfl
@[simp] theorem updCq_clasp (c : Nat) (g : Cq → Cq) (d : Dev) : (updCq c g d).clasp = d.clasp := rfl
@[simp] theorem updCq_mt (c : Nat) (g : Cq → Cq) (d : Dev) : (updCq c g d).mt = d.mt := rfl
@[simp] theorem updCq_coll (c : Nat) (g : Cq → Cq) (d : Dev) : (updCq c g d).coll = d.coll := rfl
@[simp] theorem updCq_rtr (c : Nat) (g : Cq → Cq) (d : Dev) : (updCq c g d).rtr = d.rtr := rfl
@[simp] theorem updCq_ports (c : Nat) (g : Cq → Cq) (d : Dev) : (updCq c g d).ports = d.ports := rfl
@[simp] theorem updCq_time (c : Nat) (g : Cq → Cq) (d : Dev) : (updCq c g d).time = d.time := rfl
@[simp] theorem updCq_isb (c : Nat) (g : Cq → Cq) (d : Dev) : (updCq c g d).isb = d.isb := rfl
@[simp] theorem updCq_nv (c : Nat) (g : Cq → Cq) (d : Dev) : (updCq c g d).nv = d.nv := rfl
@[simp] theorem updCq_dma (c : Nat) (g : Cq → Cq) (d : Dev) : (updCq c g d).dma = d.dma := rfl
@[simp] theorem updCq_adm (c : Nat) (g : Cq → Cq) (d : Dev) : (updCq c g d).adm = d.adm := rfl
@[simp] theorem updCq_mnt (c : Nat) (g : Cq → Cq) (d : Dev) : (updCq c g d).mnt = d.mnt := rfl
@[simp] theorem updCq_mgf (c : Nat) (g : Cq → Cq) (d : Dev) : (updCq c g d).mgf = d.mgf := rfl
@[simp] theorem updCq_ember (c : Nat) (g : Cq → Cq) (d : Dev) : (updCq c g d).ember = d.ember := rfl
@[simp] theorem updCq_pwr (c : Nat) (g : Cq → Cq) (d : Dev) : (updCq c g d).pwr = d.pwr := rfl
@[simp] theorem updCq_boot (c : Nat) (g : Cq → Cq) (d : Dev) : (updCq c g d).boot = d.boot := rfl
@[simp] theorem updCq_tally (c : Nat) (g : Cq → Cq) (d : Dev) : (updCq c g d).tally = d.tally := rfl

@[simp] theorem updEpt_clk (g : Ept → Ept) (d : Dev) : (updEpt g d).clk = d.clk := rfl
@[simp] theorem updEpt_free (g : Ept → Ept) (d : Dev) : (updEpt g d).free = d.free := rfl
@[simp] theorem updEpt_out (g : Ept → Ept) (d : Dev) : (updEpt g d).out = d.out := rfl
@[simp] theorem updEpt_work (g : Ept → Ept) (d : Dev) : (updEpt g d).work = d.work := rfl
@[simp] theorem updEpt_regs (g : Ept → Ept) (d : Dev) : (updEpt g d).regs = d.regs := rfl
@[simp] theorem updEpt_wraps (g : Ept → Ept) (d : Dev) : (updEpt g d).wraps = d.wraps := rfl
@[simp] theorem updEpt_chains (g : Ept → Ept) (d : Dev) : (updEpt g d).chains = d.chains := rfl
@[simp] theorem updEpt_np (g : Ept → Ept) (d : Dev) : (updEpt g d).np = d.np := rfl
@[simp] theorem updEpt_nextReq (g : Ept → Ept) (d : Dev) : (updEpt g d).nextReq = d.nextReq := rfl
@[simp] theorem updEpt_reads (g : Ept → Ept) (d : Dev) : (updEpt g d).reads = d.reads := rfl
@[simp] theorem updEpt_nextRead (g : Ept → Ept) (d : Dev) : (updEpt g d).nextRead = d.nextRead := rfl
@[simp] theorem updEpt_hosts (g : Ept → Ept) (d : Dev) : (updEpt g d).hosts = d.hosts := rfl
@[simp] theorem updEpt_fns (g : Ept → Ept) (d : Dev) : (updEpt g d).fns = d.fns := rfl
@[simp] theorem updEpt_flt (g : Ept → Ept) (d : Dev) : (updEpt g d).flt = d.flt := rfl
@[simp] theorem updEpt_xl (g : Ept → Ept) (d : Dev) : (updEpt g d).xl = d.xl := rfl
@[simp] theorem updEpt_ept (g : Ept → Ept) (d : Dev) : (updEpt g d).ept = g d.ept := rfl
@[simp] theorem updEpt_xp (g : Ept → Ept) (d : Dev) : (updEpt g d).xp = d.xp := rfl
@[simp] theorem updEpt_clasp (g : Ept → Ept) (d : Dev) : (updEpt g d).clasp = d.clasp := rfl
@[simp] theorem updEpt_mt (g : Ept → Ept) (d : Dev) : (updEpt g d).mt = d.mt := rfl
@[simp] theorem updEpt_coll (g : Ept → Ept) (d : Dev) : (updEpt g d).coll = d.coll := rfl
@[simp] theorem updEpt_rtr (g : Ept → Ept) (d : Dev) : (updEpt g d).rtr = d.rtr := rfl
@[simp] theorem updEpt_ports (g : Ept → Ept) (d : Dev) : (updEpt g d).ports = d.ports := rfl
@[simp] theorem updEpt_time (g : Ept → Ept) (d : Dev) : (updEpt g d).time = d.time := rfl
@[simp] theorem updEpt_isb (g : Ept → Ept) (d : Dev) : (updEpt g d).isb = d.isb := rfl
@[simp] theorem updEpt_nv (g : Ept → Ept) (d : Dev) : (updEpt g d).nv = d.nv := rfl
@[simp] theorem updEpt_dma (g : Ept → Ept) (d : Dev) : (updEpt g d).dma = d.dma := rfl
@[simp] theorem updEpt_adm (g : Ept → Ept) (d : Dev) : (updEpt g d).adm = d.adm := rfl
@[simp] theorem updEpt_mnt (g : Ept → Ept) (d : Dev) : (updEpt g d).mnt = d.mnt := rfl
@[simp] theorem updEpt_mgf (g : Ept → Ept) (d : Dev) : (updEpt g d).mgf = d.mgf := rfl
@[simp] theorem updEpt_ember (g : Ept → Ept) (d : Dev) : (updEpt g d).ember = d.ember := rfl
@[simp] theorem updEpt_pwr (g : Ept → Ept) (d : Dev) : (updEpt g d).pwr = d.pwr := rfl
@[simp] theorem updEpt_boot (g : Ept → Ept) (d : Dev) : (updEpt g d).boot = d.boot := rfl
@[simp] theorem updEpt_tally (g : Ept → Ept) (d : Dev) : (updEpt g d).tally = d.tally := rfl

@[simp] theorem updEq_clk (f : Func) (q : Nat) (g : Eq → Eq) (d : Dev) : (updEq f q g d).clk = d.clk := rfl
@[simp] theorem updEq_free (f : Func) (q : Nat) (g : Eq → Eq) (d : Dev) : (updEq f q g d).free = d.free := rfl
@[simp] theorem updEq_out (f : Func) (q : Nat) (g : Eq → Eq) (d : Dev) : (updEq f q g d).out = d.out := rfl
@[simp] theorem updEq_work (f : Func) (q : Nat) (g : Eq → Eq) (d : Dev) : (updEq f q g d).work = d.work := rfl
@[simp] theorem updEq_regs (f : Func) (q : Nat) (g : Eq → Eq) (d : Dev) : (updEq f q g d).regs = d.regs := rfl
@[simp] theorem updEq_wraps (f : Func) (q : Nat) (g : Eq → Eq) (d : Dev) : (updEq f q g d).wraps = d.wraps := rfl
@[simp] theorem updEq_chains (f : Func) (q : Nat) (g : Eq → Eq) (d : Dev) : (updEq f q g d).chains = d.chains := rfl
@[simp] theorem updEq_np (f : Func) (q : Nat) (g : Eq → Eq) (d : Dev) : (updEq f q g d).np = d.np := rfl
@[simp] theorem updEq_nextReq (f : Func) (q : Nat) (g : Eq → Eq) (d : Dev) : (updEq f q g d).nextReq = d.nextReq := rfl
@[simp] theorem updEq_reads (f : Func) (q : Nat) (g : Eq → Eq) (d : Dev) : (updEq f q g d).reads = d.reads := rfl
@[simp] theorem updEq_nextRead (f : Func) (q : Nat) (g : Eq → Eq) (d : Dev) : (updEq f q g d).nextRead = d.nextRead := rfl
@[simp] theorem updEq_hosts (f : Func) (q : Nat) (g : Eq → Eq) (d : Dev) : (updEq f q g d).hosts = d.hosts := rfl
@[simp] theorem updEq_flt (f : Func) (q : Nat) (g : Eq → Eq) (d : Dev) : (updEq f q g d).flt = d.flt := rfl
@[simp] theorem updEq_xl (f : Func) (q : Nat) (g : Eq → Eq) (d : Dev) : (updEq f q g d).xl = d.xl := rfl
@[simp] theorem updEq_ept (f : Func) (q : Nat) (g : Eq → Eq) (d : Dev) : (updEq f q g d).ept = d.ept := rfl
@[simp] theorem updEq_xp (f : Func) (q : Nat) (g : Eq → Eq) (d : Dev) : (updEq f q g d).xp = d.xp := rfl
@[simp] theorem updEq_clasp (f : Func) (q : Nat) (g : Eq → Eq) (d : Dev) : (updEq f q g d).clasp = d.clasp := rfl
@[simp] theorem updEq_mt (f : Func) (q : Nat) (g : Eq → Eq) (d : Dev) : (updEq f q g d).mt = d.mt := rfl
@[simp] theorem updEq_coll (f : Func) (q : Nat) (g : Eq → Eq) (d : Dev) : (updEq f q g d).coll = d.coll := rfl
@[simp] theorem updEq_rtr (f : Func) (q : Nat) (g : Eq → Eq) (d : Dev) : (updEq f q g d).rtr = d.rtr := rfl
@[simp] theorem updEq_ports (f : Func) (q : Nat) (g : Eq → Eq) (d : Dev) : (updEq f q g d).ports = d.ports := rfl
@[simp] theorem updEq_time (f : Func) (q : Nat) (g : Eq → Eq) (d : Dev) : (updEq f q g d).time = d.time := rfl
@[simp] theorem updEq_isb (f : Func) (q : Nat) (g : Eq → Eq) (d : Dev) : (updEq f q g d).isb = d.isb := rfl
@[simp] theorem updEq_nv (f : Func) (q : Nat) (g : Eq → Eq) (d : Dev) : (updEq f q g d).nv = d.nv := rfl
@[simp] theorem updEq_dma (f : Func) (q : Nat) (g : Eq → Eq) (d : Dev) : (updEq f q g d).dma = d.dma := rfl
@[simp] theorem updEq_adm (f : Func) (q : Nat) (g : Eq → Eq) (d : Dev) : (updEq f q g d).adm = d.adm := rfl
@[simp] theorem updEq_mnt (f : Func) (q : Nat) (g : Eq → Eq) (d : Dev) : (updEq f q g d).mnt = d.mnt := rfl
@[simp] theorem updEq_mgf (f : Func) (q : Nat) (g : Eq → Eq) (d : Dev) : (updEq f q g d).mgf = d.mgf := rfl
@[simp] theorem updEq_ember (f : Func) (q : Nat) (g : Eq → Eq) (d : Dev) : (updEq f q g d).ember = d.ember := rfl
@[simp] theorem updEq_pwr (f : Func) (q : Nat) (g : Eq → Eq) (d : Dev) : (updEq f q g d).pwr = d.pwr := rfl
@[simp] theorem updEq_boot (f : Func) (q : Nat) (g : Eq → Eq) (d : Dev) : (updEq f q g d).boot = d.boot := rfl
@[simp] theorem updEq_tally (f : Func) (q : Nat) (g : Eq → Eq) (d : Dev) : (updEq f q g d).tally = d.tally := rfl

@[simp] theorem updXp_clk (g : Xport → Xport) (d : Dev) : (updXp g d).clk = d.clk := rfl
@[simp] theorem updXp_free (g : Xport → Xport) (d : Dev) : (updXp g d).free = d.free := rfl
@[simp] theorem updXp_out (g : Xport → Xport) (d : Dev) : (updXp g d).out = d.out := rfl
@[simp] theorem updXp_work (g : Xport → Xport) (d : Dev) : (updXp g d).work = d.work := rfl
@[simp] theorem updXp_regs (g : Xport → Xport) (d : Dev) : (updXp g d).regs = d.regs := rfl
@[simp] theorem updXp_wraps (g : Xport → Xport) (d : Dev) : (updXp g d).wraps = d.wraps := rfl
@[simp] theorem updXp_chains (g : Xport → Xport) (d : Dev) : (updXp g d).chains = d.chains := rfl
@[simp] theorem updXp_np (g : Xport → Xport) (d : Dev) : (updXp g d).np = d.np := rfl
@[simp] theorem updXp_nextReq (g : Xport → Xport) (d : Dev) : (updXp g d).nextReq = d.nextReq := rfl
@[simp] theorem updXp_reads (g : Xport → Xport) (d : Dev) : (updXp g d).reads = d.reads := rfl
@[simp] theorem updXp_nextRead (g : Xport → Xport) (d : Dev) : (updXp g d).nextRead = d.nextRead := rfl
@[simp] theorem updXp_hosts (g : Xport → Xport) (d : Dev) : (updXp g d).hosts = d.hosts := rfl
@[simp] theorem updXp_fns (g : Xport → Xport) (d : Dev) : (updXp g d).fns = d.fns := rfl
@[simp] theorem updXp_flt (g : Xport → Xport) (d : Dev) : (updXp g d).flt = d.flt := rfl
@[simp] theorem updXp_xl (g : Xport → Xport) (d : Dev) : (updXp g d).xl = d.xl := rfl
@[simp] theorem updXp_ept (g : Xport → Xport) (d : Dev) : (updXp g d).ept = d.ept := rfl
@[simp] theorem updXp_xp (g : Xport → Xport) (d : Dev) : (updXp g d).xp = g d.xp := rfl
@[simp] theorem updXp_clasp (g : Xport → Xport) (d : Dev) : (updXp g d).clasp = d.clasp := rfl
@[simp] theorem updXp_mt (g : Xport → Xport) (d : Dev) : (updXp g d).mt = d.mt := rfl
@[simp] theorem updXp_coll (g : Xport → Xport) (d : Dev) : (updXp g d).coll = d.coll := rfl
@[simp] theorem updXp_rtr (g : Xport → Xport) (d : Dev) : (updXp g d).rtr = d.rtr := rfl
@[simp] theorem updXp_ports (g : Xport → Xport) (d : Dev) : (updXp g d).ports = d.ports := rfl
@[simp] theorem updXp_time (g : Xport → Xport) (d : Dev) : (updXp g d).time = d.time := rfl
@[simp] theorem updXp_isb (g : Xport → Xport) (d : Dev) : (updXp g d).isb = d.isb := rfl
@[simp] theorem updXp_nv (g : Xport → Xport) (d : Dev) : (updXp g d).nv = d.nv := rfl
@[simp] theorem updXp_dma (g : Xport → Xport) (d : Dev) : (updXp g d).dma = d.dma := rfl
@[simp] theorem updXp_adm (g : Xport → Xport) (d : Dev) : (updXp g d).adm = d.adm := rfl
@[simp] theorem updXp_mnt (g : Xport → Xport) (d : Dev) : (updXp g d).mnt = d.mnt := rfl
@[simp] theorem updXp_mgf (g : Xport → Xport) (d : Dev) : (updXp g d).mgf = d.mgf := rfl
@[simp] theorem updXp_ember (g : Xport → Xport) (d : Dev) : (updXp g d).ember = d.ember := rfl
@[simp] theorem updXp_pwr (g : Xport → Xport) (d : Dev) : (updXp g d).pwr = d.pwr := rfl
@[simp] theorem updXp_boot (g : Xport → Xport) (d : Dev) : (updXp g d).boot = d.boot := rfl
@[simp] theorem updXp_tally (g : Xport → Xport) (d : Dev) : (updXp g d).tally = d.tally := rfl

@[simp] theorem updXl_clk (g : XlatAll → XlatAll) (d : Dev) : (updXl g d).clk = d.clk := rfl
@[simp] theorem updXl_free (g : XlatAll → XlatAll) (d : Dev) : (updXl g d).free = d.free := rfl
@[simp] theorem updXl_out (g : XlatAll → XlatAll) (d : Dev) : (updXl g d).out = d.out := rfl
@[simp] theorem updXl_work (g : XlatAll → XlatAll) (d : Dev) : (updXl g d).work = d.work := rfl
@[simp] theorem updXl_regs (g : XlatAll → XlatAll) (d : Dev) : (updXl g d).regs = d.regs := rfl
@[simp] theorem updXl_wraps (g : XlatAll → XlatAll) (d : Dev) : (updXl g d).wraps = d.wraps := rfl
@[simp] theorem updXl_chains (g : XlatAll → XlatAll) (d : Dev) : (updXl g d).chains = d.chains := rfl
@[simp] theorem updXl_np (g : XlatAll → XlatAll) (d : Dev) : (updXl g d).np = d.np := rfl
@[simp] theorem updXl_nextReq (g : XlatAll → XlatAll) (d : Dev) : (updXl g d).nextReq = d.nextReq := rfl
@[simp] theorem updXl_reads (g : XlatAll → XlatAll) (d : Dev) : (updXl g d).reads = d.reads := rfl
@[simp] theorem updXl_nextRead (g : XlatAll → XlatAll) (d : Dev) : (updXl g d).nextRead = d.nextRead := rfl
@[simp] theorem updXl_hosts (g : XlatAll → XlatAll) (d : Dev) : (updXl g d).hosts = d.hosts := rfl
@[simp] theorem updXl_fns (g : XlatAll → XlatAll) (d : Dev) : (updXl g d).fns = d.fns := rfl
@[simp] theorem updXl_flt (g : XlatAll → XlatAll) (d : Dev) : (updXl g d).flt = d.flt := rfl
@[simp] theorem updXl_xl (g : XlatAll → XlatAll) (d : Dev) : (updXl g d).xl = g d.xl := rfl
@[simp] theorem updXl_ept (g : XlatAll → XlatAll) (d : Dev) : (updXl g d).ept = d.ept := rfl
@[simp] theorem updXl_xp (g : XlatAll → XlatAll) (d : Dev) : (updXl g d).xp = d.xp := rfl
@[simp] theorem updXl_clasp (g : XlatAll → XlatAll) (d : Dev) : (updXl g d).clasp = d.clasp := rfl
@[simp] theorem updXl_mt (g : XlatAll → XlatAll) (d : Dev) : (updXl g d).mt = d.mt := rfl
@[simp] theorem updXl_coll (g : XlatAll → XlatAll) (d : Dev) : (updXl g d).coll = d.coll := rfl
@[simp] theorem updXl_rtr (g : XlatAll → XlatAll) (d : Dev) : (updXl g d).rtr = d.rtr := rfl
@[simp] theorem updXl_ports (g : XlatAll → XlatAll) (d : Dev) : (updXl g d).ports = d.ports := rfl
@[simp] theorem updXl_time (g : XlatAll → XlatAll) (d : Dev) : (updXl g d).time = d.time := rfl
@[simp] theorem updXl_isb (g : XlatAll → XlatAll) (d : Dev) : (updXl g d).isb = d.isb := rfl
@[simp] theorem updXl_nv (g : XlatAll → XlatAll) (d : Dev) : (updXl g d).nv = d.nv := rfl
@[simp] theorem updXl_dma (g : XlatAll → XlatAll) (d : Dev) : (updXl g d).dma = d.dma := rfl
@[simp] theorem updXl_adm (g : XlatAll → XlatAll) (d : Dev) : (updXl g d).adm = d.adm := rfl
@[simp] theorem updXl_mnt (g : XlatAll → XlatAll) (d : Dev) : (updXl g d).mnt = d.mnt := rfl
@[simp] theorem updXl_mgf (g : XlatAll → XlatAll) (d : Dev) : (updXl g d).mgf = d.mgf := rfl
@[simp] theorem updXl_ember (g : XlatAll → XlatAll) (d : Dev) : (updXl g d).ember = d.ember := rfl
@[simp] theorem updXl_pwr (g : XlatAll → XlatAll) (d : Dev) : (updXl g d).pwr = d.pwr := rfl
@[simp] theorem updXl_boot (g : XlatAll → XlatAll) (d : Dev) : (updXl g d).boot = d.boot := rfl
@[simp] theorem updXl_tally (g : XlatAll → XlatAll) (d : Dev) : (updXl g d).tally = d.tally := rfl

@[simp] theorem updOp_clk (i : Nat) (g : Op → Op) (d : Dev) : (updOp i g d).clk = d.clk := rfl
@[simp] theorem updOp_free (i : Nat) (g : Op → Op) (d : Dev) : (updOp i g d).free = d.free := rfl
@[simp] theorem updOp_out (i : Nat) (g : Op → Op) (d : Dev) : (updOp i g d).out = d.out := rfl
@[simp] theorem updOp_work (i : Nat) (g : Op → Op) (d : Dev) : (updOp i g d).work = d.work := rfl
@[simp] theorem updOp_regs (i : Nat) (g : Op → Op) (d : Dev) : (updOp i g d).regs = d.regs := rfl
@[simp] theorem updOp_wraps (i : Nat) (g : Op → Op) (d : Dev) : (updOp i g d).wraps = d.wraps := rfl
@[simp] theorem updOp_chains (i : Nat) (g : Op → Op) (d : Dev) : (updOp i g d).chains = d.chains := rfl
@[simp] theorem updOp_np (i : Nat) (g : Op → Op) (d : Dev) : (updOp i g d).np = d.np := rfl
@[simp] theorem updOp_nextReq (i : Nat) (g : Op → Op) (d : Dev) : (updOp i g d).nextReq = d.nextReq := rfl
@[simp] theorem updOp_reads (i : Nat) (g : Op → Op) (d : Dev) : (updOp i g d).reads = d.reads := rfl
@[simp] theorem updOp_nextRead (i : Nat) (g : Op → Op) (d : Dev) : (updOp i g d).nextRead = d.nextRead := rfl
@[simp] theorem updOp_hosts (i : Nat) (g : Op → Op) (d : Dev) : (updOp i g d).hosts = d.hosts := rfl
@[simp] theorem updOp_fns (i : Nat) (g : Op → Op) (d : Dev) : (updOp i g d).fns = d.fns := rfl
@[simp] theorem updOp_flt (i : Nat) (g : Op → Op) (d : Dev) : (updOp i g d).flt = d.flt := rfl
@[simp] theorem updOp_xl (i : Nat) (g : Op → Op) (d : Dev) : (updOp i g d).xl = d.xl := rfl
@[simp] theorem updOp_ept (i : Nat) (g : Op → Op) (d : Dev) : (updOp i g d).ept = d.ept := rfl
@[simp] theorem updOp_clasp (i : Nat) (g : Op → Op) (d : Dev) : (updOp i g d).clasp = d.clasp := rfl
@[simp] theorem updOp_mt (i : Nat) (g : Op → Op) (d : Dev) : (updOp i g d).mt = d.mt := rfl
@[simp] theorem updOp_coll (i : Nat) (g : Op → Op) (d : Dev) : (updOp i g d).coll = d.coll := rfl
@[simp] theorem updOp_rtr (i : Nat) (g : Op → Op) (d : Dev) : (updOp i g d).rtr = d.rtr := rfl
@[simp] theorem updOp_ports (i : Nat) (g : Op → Op) (d : Dev) : (updOp i g d).ports = d.ports := rfl
@[simp] theorem updOp_time (i : Nat) (g : Op → Op) (d : Dev) : (updOp i g d).time = d.time := rfl
@[simp] theorem updOp_isb (i : Nat) (g : Op → Op) (d : Dev) : (updOp i g d).isb = d.isb := rfl
@[simp] theorem updOp_nv (i : Nat) (g : Op → Op) (d : Dev) : (updOp i g d).nv = d.nv := rfl
@[simp] theorem updOp_dma (i : Nat) (g : Op → Op) (d : Dev) : (updOp i g d).dma = d.dma := rfl
@[simp] theorem updOp_adm (i : Nat) (g : Op → Op) (d : Dev) : (updOp i g d).adm = d.adm := rfl
@[simp] theorem updOp_mnt (i : Nat) (g : Op → Op) (d : Dev) : (updOp i g d).mnt = d.mnt := rfl
@[simp] theorem updOp_mgf (i : Nat) (g : Op → Op) (d : Dev) : (updOp i g d).mgf = d.mgf := rfl
@[simp] theorem updOp_ember (i : Nat) (g : Op → Op) (d : Dev) : (updOp i g d).ember = d.ember := rfl
@[simp] theorem updOp_pwr (i : Nat) (g : Op → Op) (d : Dev) : (updOp i g d).pwr = d.pwr := rfl
@[simp] theorem updOp_boot (i : Nat) (g : Op → Op) (d : Dev) : (updOp i g d).boot = d.boot := rfl
@[simp] theorem updOp_tally (i : Nat) (g : Op → Op) (d : Dev) : (updOp i g d).tally = d.tally := rfl

@[simp] theorem updContent_clk (i : Nat) (g : Content → Content) (d : Dev) : (updContent i g d).clk = d.clk := rfl
@[simp] theorem updContent_free (i : Nat) (g : Content → Content) (d : Dev) : (updContent i g d).free = d.free := rfl
@[simp] theorem updContent_out (i : Nat) (g : Content → Content) (d : Dev) : (updContent i g d).out = d.out := rfl
@[simp] theorem updContent_work (i : Nat) (g : Content → Content) (d : Dev) : (updContent i g d).work = d.work := rfl
@[simp] theorem updContent_regs (i : Nat) (g : Content → Content) (d : Dev) : (updContent i g d).regs = d.regs := rfl
@[simp] theorem updContent_wraps (i : Nat) (g : Content → Content) (d : Dev) : (updContent i g d).wraps = d.wraps := rfl
@[simp] theorem updContent_chains (i : Nat) (g : Content → Content) (d : Dev) : (updContent i g d).chains = d.chains := rfl
@[simp] theorem updContent_np (i : Nat) (g : Content → Content) (d : Dev) : (updContent i g d).np = d.np := rfl
@[simp] theorem updContent_nextReq (i : Nat) (g : Content → Content) (d : Dev) : (updContent i g d).nextReq = d.nextReq := rfl
@[simp] theorem updContent_reads (i : Nat) (g : Content → Content) (d : Dev) : (updContent i g d).reads = d.reads := rfl
@[simp] theorem updContent_nextRead (i : Nat) (g : Content → Content) (d : Dev) : (updContent i g d).nextRead = d.nextRead := rfl
@[simp] theorem updContent_hosts (i : Nat) (g : Content → Content) (d : Dev) : (updContent i g d).hosts = d.hosts := rfl
@[simp] theorem updContent_fns (i : Nat) (g : Content → Content) (d : Dev) : (updContent i g d).fns = d.fns := rfl
@[simp] theorem updContent_flt (i : Nat) (g : Content → Content) (d : Dev) : (updContent i g d).flt = d.flt := rfl
@[simp] theorem updContent_xl (i : Nat) (g : Content → Content) (d : Dev) : (updContent i g d).xl = d.xl := rfl
@[simp] theorem updContent_ept (i : Nat) (g : Content → Content) (d : Dev) : (updContent i g d).ept = d.ept := rfl
@[simp] theorem updContent_clasp (i : Nat) (g : Content → Content) (d : Dev) : (updContent i g d).clasp = d.clasp := rfl
@[simp] theorem updContent_mt (i : Nat) (g : Content → Content) (d : Dev) : (updContent i g d).mt = d.mt := rfl
@[simp] theorem updContent_coll (i : Nat) (g : Content → Content) (d : Dev) : (updContent i g d).coll = d.coll := rfl
@[simp] theorem updContent_rtr (i : Nat) (g : Content → Content) (d : Dev) : (updContent i g d).rtr = d.rtr := rfl
@[simp] theorem updContent_ports (i : Nat) (g : Content → Content) (d : Dev) : (updContent i g d).ports = d.ports := rfl
@[simp] theorem updContent_time (i : Nat) (g : Content → Content) (d : Dev) : (updContent i g d).time = d.time := rfl
@[simp] theorem updContent_isb (i : Nat) (g : Content → Content) (d : Dev) : (updContent i g d).isb = d.isb := rfl
@[simp] theorem updContent_nv (i : Nat) (g : Content → Content) (d : Dev) : (updContent i g d).nv = d.nv := rfl
@[simp] theorem updContent_dma (i : Nat) (g : Content → Content) (d : Dev) : (updContent i g d).dma = d.dma := rfl
@[simp] theorem updContent_adm (i : Nat) (g : Content → Content) (d : Dev) : (updContent i g d).adm = d.adm := rfl
@[simp] theorem updContent_mnt (i : Nat) (g : Content → Content) (d : Dev) : (updContent i g d).mnt = d.mnt := rfl
@[simp] theorem updContent_mgf (i : Nat) (g : Content → Content) (d : Dev) : (updContent i g d).mgf = d.mgf := rfl
@[simp] theorem updContent_ember (i : Nat) (g : Content → Content) (d : Dev) : (updContent i g d).ember = d.ember := rfl
@[simp] theorem updContent_pwr (i : Nat) (g : Content → Content) (d : Dev) : (updContent i g d).pwr = d.pwr := rfl
@[simp] theorem updContent_boot (i : Nat) (g : Content → Content) (d : Dev) : (updContent i g d).boot = d.boot := rfl
@[simp] theorem updContent_tally (i : Nat) (g : Content → Content) (d : Dev) : (updContent i g d).tally = d.tally := rfl

@[simp] theorem updPeer_clk (da : Nat) (g : Peer → Peer) (d : Dev) : (updPeer da g d).clk = d.clk := rfl
@[simp] theorem updPeer_free (da : Nat) (g : Peer → Peer) (d : Dev) : (updPeer da g d).free = d.free := rfl
@[simp] theorem updPeer_out (da : Nat) (g : Peer → Peer) (d : Dev) : (updPeer da g d).out = d.out := rfl
@[simp] theorem updPeer_work (da : Nat) (g : Peer → Peer) (d : Dev) : (updPeer da g d).work = d.work := rfl
@[simp] theorem updPeer_regs (da : Nat) (g : Peer → Peer) (d : Dev) : (updPeer da g d).regs = d.regs := rfl
@[simp] theorem updPeer_wraps (da : Nat) (g : Peer → Peer) (d : Dev) : (updPeer da g d).wraps = d.wraps := rfl
@[simp] theorem updPeer_chains (da : Nat) (g : Peer → Peer) (d : Dev) : (updPeer da g d).chains = d.chains := rfl
@[simp] theorem updPeer_np (da : Nat) (g : Peer → Peer) (d : Dev) : (updPeer da g d).np = d.np := rfl
@[simp] theorem updPeer_nextReq (da : Nat) (g : Peer → Peer) (d : Dev) : (updPeer da g d).nextReq = d.nextReq := rfl
@[simp] theorem updPeer_reads (da : Nat) (g : Peer → Peer) (d : Dev) : (updPeer da g d).reads = d.reads := rfl
@[simp] theorem updPeer_nextRead (da : Nat) (g : Peer → Peer) (d : Dev) : (updPeer da g d).nextRead = d.nextRead := rfl
@[simp] theorem updPeer_hosts (da : Nat) (g : Peer → Peer) (d : Dev) : (updPeer da g d).hosts = d.hosts := rfl
@[simp] theorem updPeer_fns (da : Nat) (g : Peer → Peer) (d : Dev) : (updPeer da g d).fns = d.fns := rfl
@[simp] theorem updPeer_flt (da : Nat) (g : Peer → Peer) (d : Dev) : (updPeer da g d).flt = d.flt := rfl
@[simp] theorem updPeer_xl (da : Nat) (g : Peer → Peer) (d : Dev) : (updPeer da g d).xl = d.xl := rfl
@[simp] theorem updPeer_ept (da : Nat) (g : Peer → Peer) (d : Dev) : (updPeer da g d).ept = d.ept := rfl
@[simp] theorem updPeer_clasp (da : Nat) (g : Peer → Peer) (d : Dev) : (updPeer da g d).clasp = d.clasp := rfl
@[simp] theorem updPeer_mt (da : Nat) (g : Peer → Peer) (d : Dev) : (updPeer da g d).mt = d.mt := rfl
@[simp] theorem updPeer_coll (da : Nat) (g : Peer → Peer) (d : Dev) : (updPeer da g d).coll = d.coll := rfl
@[simp] theorem updPeer_rtr (da : Nat) (g : Peer → Peer) (d : Dev) : (updPeer da g d).rtr = d.rtr := rfl
@[simp] theorem updPeer_ports (da : Nat) (g : Peer → Peer) (d : Dev) : (updPeer da g d).ports = d.ports := rfl
@[simp] theorem updPeer_time (da : Nat) (g : Peer → Peer) (d : Dev) : (updPeer da g d).time = d.time := rfl
@[simp] theorem updPeer_isb (da : Nat) (g : Peer → Peer) (d : Dev) : (updPeer da g d).isb = d.isb := rfl
@[simp] theorem updPeer_nv (da : Nat) (g : Peer → Peer) (d : Dev) : (updPeer da g d).nv = d.nv := rfl
@[simp] theorem updPeer_dma (da : Nat) (g : Peer → Peer) (d : Dev) : (updPeer da g d).dma = d.dma := rfl
@[simp] theorem updPeer_adm (da : Nat) (g : Peer → Peer) (d : Dev) : (updPeer da g d).adm = d.adm := rfl
@[simp] theorem updPeer_mnt (da : Nat) (g : Peer → Peer) (d : Dev) : (updPeer da g d).mnt = d.mnt := rfl
@[simp] theorem updPeer_mgf (da : Nat) (g : Peer → Peer) (d : Dev) : (updPeer da g d).mgf = d.mgf := rfl
@[simp] theorem updPeer_ember (da : Nat) (g : Peer → Peer) (d : Dev) : (updPeer da g d).ember = d.ember := rfl
@[simp] theorem updPeer_pwr (da : Nat) (g : Peer → Peer) (d : Dev) : (updPeer da g d).pwr = d.pwr := rfl
@[simp] theorem updPeer_boot (da : Nat) (g : Peer → Peer) (d : Dev) : (updPeer da g d).boot = d.boot := rfl
@[simp] theorem updPeer_tally (da : Nat) (g : Peer → Peer) (d : Dev) : (updPeer da g d).tally = d.tally := rfl

@[simp] theorem updSend_clk (da : Nat) (vn : Bool) (g : SendHalf → SendHalf) (d : Dev) : (updSend da vn g d).clk = d.clk := rfl
@[simp] theorem updSend_free (da : Nat) (vn : Bool) (g : SendHalf → SendHalf) (d : Dev) : (updSend da vn g d).free = d.free := rfl
@[simp] theorem updSend_out (da : Nat) (vn : Bool) (g : SendHalf → SendHalf) (d : Dev) : (updSend da vn g d).out = d.out := rfl
@[simp] theorem updSend_work (da : Nat) (vn : Bool) (g : SendHalf → SendHalf) (d : Dev) : (updSend da vn g d).work = d.work := rfl
@[simp] theorem updSend_regs (da : Nat) (vn : Bool) (g : SendHalf → SendHalf) (d : Dev) : (updSend da vn g d).regs = d.regs := rfl
@[simp] theorem updSend_wraps (da : Nat) (vn : Bool) (g : SendHalf → SendHalf) (d : Dev) : (updSend da vn g d).wraps = d.wraps := rfl
@[simp] theorem updSend_chains (da : Nat) (vn : Bool) (g : SendHalf → SendHalf) (d : Dev) : (updSend da vn g d).chains = d.chains := rfl
@[simp] theorem updSend_np (da : Nat) (vn : Bool) (g : SendHalf → SendHalf) (d : Dev) : (updSend da vn g d).np = d.np := rfl
@[simp] theorem updSend_nextReq (da : Nat) (vn : Bool) (g : SendHalf → SendHalf) (d : Dev) : (updSend da vn g d).nextReq = d.nextReq := rfl
@[simp] theorem updSend_reads (da : Nat) (vn : Bool) (g : SendHalf → SendHalf) (d : Dev) : (updSend da vn g d).reads = d.reads := rfl
@[simp] theorem updSend_nextRead (da : Nat) (vn : Bool) (g : SendHalf → SendHalf) (d : Dev) : (updSend da vn g d).nextRead = d.nextRead := rfl
@[simp] theorem updSend_hosts (da : Nat) (vn : Bool) (g : SendHalf → SendHalf) (d : Dev) : (updSend da vn g d).hosts = d.hosts := rfl
@[simp] theorem updSend_fns (da : Nat) (vn : Bool) (g : SendHalf → SendHalf) (d : Dev) : (updSend da vn g d).fns = d.fns := rfl
@[simp] theorem updSend_flt (da : Nat) (vn : Bool) (g : SendHalf → SendHalf) (d : Dev) : (updSend da vn g d).flt = d.flt := rfl
@[simp] theorem updSend_xl (da : Nat) (vn : Bool) (g : SendHalf → SendHalf) (d : Dev) : (updSend da vn g d).xl = d.xl := rfl
@[simp] theorem updSend_ept (da : Nat) (vn : Bool) (g : SendHalf → SendHalf) (d : Dev) : (updSend da vn g d).ept = d.ept := rfl
@[simp] theorem updSend_clasp (da : Nat) (vn : Bool) (g : SendHalf → SendHalf) (d : Dev) : (updSend da vn g d).clasp = d.clasp := rfl
@[simp] theorem updSend_mt (da : Nat) (vn : Bool) (g : SendHalf → SendHalf) (d : Dev) : (updSend da vn g d).mt = d.mt := rfl
@[simp] theorem updSend_coll (da : Nat) (vn : Bool) (g : SendHalf → SendHalf) (d : Dev) : (updSend da vn g d).coll = d.coll := rfl
@[simp] theorem updSend_rtr (da : Nat) (vn : Bool) (g : SendHalf → SendHalf) (d : Dev) : (updSend da vn g d).rtr = d.rtr := rfl
@[simp] theorem updSend_ports (da : Nat) (vn : Bool) (g : SendHalf → SendHalf) (d : Dev) : (updSend da vn g d).ports = d.ports := rfl
@[simp] theorem updSend_time (da : Nat) (vn : Bool) (g : SendHalf → SendHalf) (d : Dev) : (updSend da vn g d).time = d.time := rfl
@[simp] theorem updSend_isb (da : Nat) (vn : Bool) (g : SendHalf → SendHalf) (d : Dev) : (updSend da vn g d).isb = d.isb := rfl
@[simp] theorem updSend_nv (da : Nat) (vn : Bool) (g : SendHalf → SendHalf) (d : Dev) : (updSend da vn g d).nv = d.nv := rfl
@[simp] theorem updSend_dma (da : Nat) (vn : Bool) (g : SendHalf → SendHalf) (d : Dev) : (updSend da vn g d).dma = d.dma := rfl
@[simp] theorem updSend_adm (da : Nat) (vn : Bool) (g : SendHalf → SendHalf) (d : Dev) : (updSend da vn g d).adm = d.adm := rfl
@[simp] theorem updSend_mnt (da : Nat) (vn : Bool) (g : SendHalf → SendHalf) (d : Dev) : (updSend da vn g d).mnt = d.mnt := rfl
@[simp] theorem updSend_mgf (da : Nat) (vn : Bool) (g : SendHalf → SendHalf) (d : Dev) : (updSend da vn g d).mgf = d.mgf := rfl
@[simp] theorem updSend_ember (da : Nat) (vn : Bool) (g : SendHalf → SendHalf) (d : Dev) : (updSend da vn g d).ember = d.ember := rfl
@[simp] theorem updSend_pwr (da : Nat) (vn : Bool) (g : SendHalf → SendHalf) (d : Dev) : (updSend da vn g d).pwr = d.pwr := rfl
@[simp] theorem updSend_boot (da : Nat) (vn : Bool) (g : SendHalf → SendHalf) (d : Dev) : (updSend da vn g d).boot = d.boot := rfl
@[simp] theorem updSend_tally (da : Nat) (vn : Bool) (g : SendHalf → SendHalf) (d : Dev) : (updSend da vn g d).tally = d.tally := rfl

@[simp] theorem updRecv_clk (da : Nat) (vn : Bool) (g : RecvHalf → RecvHalf) (d : Dev) : (updRecv da vn g d).clk = d.clk := rfl
@[simp] theorem updRecv_free (da : Nat) (vn : Bool) (g : RecvHalf → RecvHalf) (d : Dev) : (updRecv da vn g d).free = d.free := rfl
@[simp] theorem updRecv_out (da : Nat) (vn : Bool) (g : RecvHalf → RecvHalf) (d : Dev) : (updRecv da vn g d).out = d.out := rfl
@[simp] theorem updRecv_work (da : Nat) (vn : Bool) (g : RecvHalf → RecvHalf) (d : Dev) : (updRecv da vn g d).work = d.work := rfl
@[simp] theorem updRecv_regs (da : Nat) (vn : Bool) (g : RecvHalf → RecvHalf) (d : Dev) : (updRecv da vn g d).regs = d.regs := rfl
@[simp] theorem updRecv_wraps (da : Nat) (vn : Bool) (g : RecvHalf → RecvHalf) (d : Dev) : (updRecv da vn g d).wraps = d.wraps := rfl
@[simp] theorem updRecv_chains (da : Nat) (vn : Bool) (g : RecvHalf → RecvHalf) (d : Dev) : (updRecv da vn g d).chains = d.chains := rfl
@[simp] theorem updRecv_np (da : Nat) (vn : Bool) (g : RecvHalf → RecvHalf) (d : Dev) : (updRecv da vn g d).np = d.np := rfl
@[simp] theorem updRecv_nextReq (da : Nat) (vn : Bool) (g : RecvHalf → RecvHalf) (d : Dev) : (updRecv da vn g d).nextReq = d.nextReq := rfl
@[simp] theorem updRecv_reads (da : Nat) (vn : Bool) (g : RecvHalf → RecvHalf) (d : Dev) : (updRecv da vn g d).reads = d.reads := rfl
@[simp] theorem updRecv_nextRead (da : Nat) (vn : Bool) (g : RecvHalf → RecvHalf) (d : Dev) : (updRecv da vn g d).nextRead = d.nextRead := rfl
@[simp] theorem updRecv_hosts (da : Nat) (vn : Bool) (g : RecvHalf → RecvHalf) (d : Dev) : (updRecv da vn g d).hosts = d.hosts := rfl
@[simp] theorem updRecv_fns (da : Nat) (vn : Bool) (g : RecvHalf → RecvHalf) (d : Dev) : (updRecv da vn g d).fns = d.fns := rfl
@[simp] theorem updRecv_flt (da : Nat) (vn : Bool) (g : RecvHalf → RecvHalf) (d : Dev) : (updRecv da vn g d).flt = d.flt := rfl
@[simp] theorem updRecv_xl (da : Nat) (vn : Bool) (g : RecvHalf → RecvHalf) (d : Dev) : (updRecv da vn g d).xl = d.xl := rfl
@[simp] theorem updRecv_ept (da : Nat) (vn : Bool) (g : RecvHalf → RecvHalf) (d : Dev) : (updRecv da vn g d).ept = d.ept := rfl
@[simp] theorem updRecv_clasp (da : Nat) (vn : Bool) (g : RecvHalf → RecvHalf) (d : Dev) : (updRecv da vn g d).clasp = d.clasp := rfl
@[simp] theorem updRecv_mt (da : Nat) (vn : Bool) (g : RecvHalf → RecvHalf) (d : Dev) : (updRecv da vn g d).mt = d.mt := rfl
@[simp] theorem updRecv_coll (da : Nat) (vn : Bool) (g : RecvHalf → RecvHalf) (d : Dev) : (updRecv da vn g d).coll = d.coll := rfl
@[simp] theorem updRecv_rtr (da : Nat) (vn : Bool) (g : RecvHalf → RecvHalf) (d : Dev) : (updRecv da vn g d).rtr = d.rtr := rfl
@[simp] theorem updRecv_ports (da : Nat) (vn : Bool) (g : RecvHalf → RecvHalf) (d : Dev) : (updRecv da vn g d).ports = d.ports := rfl
@[simp] theorem updRecv_time (da : Nat) (vn : Bool) (g : RecvHalf → RecvHalf) (d : Dev) : (updRecv da vn g d).time = d.time := rfl
@[simp] theorem updRecv_isb (da : Nat) (vn : Bool) (g : RecvHalf → RecvHalf) (d : Dev) : (updRecv da vn g d).isb = d.isb := rfl
@[simp] theorem updRecv_nv (da : Nat) (vn : Bool) (g : RecvHalf → RecvHalf) (d : Dev) : (updRecv da vn g d).nv = d.nv := rfl
@[simp] theorem updRecv_dma (da : Nat) (vn : Bool) (g : RecvHalf → RecvHalf) (d : Dev) : (updRecv da vn g d).dma = d.dma := rfl
@[simp] theorem updRecv_adm (da : Nat) (vn : Bool) (g : RecvHalf → RecvHalf) (d : Dev) : (updRecv da vn g d).adm = d.adm := rfl
@[simp] theorem updRecv_mnt (da : Nat) (vn : Bool) (g : RecvHalf → RecvHalf) (d : Dev) : (updRecv da vn g d).mnt = d.mnt := rfl
@[simp] theorem updRecv_mgf (da : Nat) (vn : Bool) (g : RecvHalf → RecvHalf) (d : Dev) : (updRecv da vn g d).mgf = d.mgf := rfl
@[simp] theorem updRecv_ember (da : Nat) (vn : Bool) (g : RecvHalf → RecvHalf) (d : Dev) : (updRecv da vn g d).ember = d.ember := rfl
@[simp] theorem updRecv_pwr (da : Nat) (vn : Bool) (g : RecvHalf → RecvHalf) (d : Dev) : (updRecv da vn g d).pwr = d.pwr := rfl
@[simp] theorem updRecv_boot (da : Nat) (vn : Bool) (g : RecvHalf → RecvHalf) (d : Dev) : (updRecv da vn g d).boot = d.boot := rfl
@[simp] theorem updRecv_tally (da : Nat) (vn : Bool) (g : RecvHalf → RecvHalf) (d : Dev) : (updRecv da vn g d).tally = d.tally := rfl

@[simp] theorem updClasp_clk (g : Clasp → Clasp) (d : Dev) : (updClasp g d).clk = d.clk := rfl
@[simp] theorem updClasp_free (g : Clasp → Clasp) (d : Dev) : (updClasp g d).free = d.free := rfl
@[simp] theorem updClasp_out (g : Clasp → Clasp) (d : Dev) : (updClasp g d).out = d.out := rfl
@[simp] theorem updClasp_work (g : Clasp → Clasp) (d : Dev) : (updClasp g d).work = d.work := rfl
@[simp] theorem updClasp_regs (g : Clasp → Clasp) (d : Dev) : (updClasp g d).regs = d.regs := rfl
@[simp] theorem updClasp_wraps (g : Clasp → Clasp) (d : Dev) : (updClasp g d).wraps = d.wraps := rfl
@[simp] theorem updClasp_chains (g : Clasp → Clasp) (d : Dev) : (updClasp g d).chains = d.chains := rfl
@[simp] theorem updClasp_np (g : Clasp → Clasp) (d : Dev) : (updClasp g d).np = d.np := rfl
@[simp] theorem updClasp_nextReq (g : Clasp → Clasp) (d : Dev) : (updClasp g d).nextReq = d.nextReq := rfl
@[simp] theorem updClasp_reads (g : Clasp → Clasp) (d : Dev) : (updClasp g d).reads = d.reads := rfl
@[simp] theorem updClasp_nextRead (g : Clasp → Clasp) (d : Dev) : (updClasp g d).nextRead = d.nextRead := rfl
@[simp] theorem updClasp_hosts (g : Clasp → Clasp) (d : Dev) : (updClasp g d).hosts = d.hosts := rfl
@[simp] theorem updClasp_fns (g : Clasp → Clasp) (d : Dev) : (updClasp g d).fns = d.fns := rfl
@[simp] theorem updClasp_flt (g : Clasp → Clasp) (d : Dev) : (updClasp g d).flt = d.flt := rfl
@[simp] theorem updClasp_xl (g : Clasp → Clasp) (d : Dev) : (updClasp g d).xl = d.xl := rfl
@[simp] theorem updClasp_ept (g : Clasp → Clasp) (d : Dev) : (updClasp g d).ept = d.ept := rfl
@[simp] theorem updClasp_xp (g : Clasp → Clasp) (d : Dev) : (updClasp g d).xp = d.xp := rfl
@[simp] theorem updClasp_clasp (g : Clasp → Clasp) (d : Dev) : (updClasp g d).clasp = g d.clasp := rfl
@[simp] theorem updClasp_mt (g : Clasp → Clasp) (d : Dev) : (updClasp g d).mt = d.mt := rfl
@[simp] theorem updClasp_coll (g : Clasp → Clasp) (d : Dev) : (updClasp g d).coll = d.coll := rfl
@[simp] theorem updClasp_rtr (g : Clasp → Clasp) (d : Dev) : (updClasp g d).rtr = d.rtr := rfl
@[simp] theorem updClasp_ports (g : Clasp → Clasp) (d : Dev) : (updClasp g d).ports = d.ports := rfl
@[simp] theorem updClasp_time (g : Clasp → Clasp) (d : Dev) : (updClasp g d).time = d.time := rfl
@[simp] theorem updClasp_isb (g : Clasp → Clasp) (d : Dev) : (updClasp g d).isb = d.isb := rfl
@[simp] theorem updClasp_nv (g : Clasp → Clasp) (d : Dev) : (updClasp g d).nv = d.nv := rfl
@[simp] theorem updClasp_dma (g : Clasp → Clasp) (d : Dev) : (updClasp g d).dma = d.dma := rfl
@[simp] theorem updClasp_adm (g : Clasp → Clasp) (d : Dev) : (updClasp g d).adm = d.adm := rfl
@[simp] theorem updClasp_mnt (g : Clasp → Clasp) (d : Dev) : (updClasp g d).mnt = d.mnt := rfl
@[simp] theorem updClasp_mgf (g : Clasp → Clasp) (d : Dev) : (updClasp g d).mgf = d.mgf := rfl
@[simp] theorem updClasp_ember (g : Clasp → Clasp) (d : Dev) : (updClasp g d).ember = d.ember := rfl
@[simp] theorem updClasp_pwr (g : Clasp → Clasp) (d : Dev) : (updClasp g d).pwr = d.pwr := rfl
@[simp] theorem updClasp_boot (g : Clasp → Clasp) (d : Dev) : (updClasp g d).boot = d.boot := rfl
@[simp] theorem updClasp_tally (g : Clasp → Clasp) (d : Dev) : (updClasp g d).tally = d.tally := rfl

@[simp] theorem updMctx_clk (e : Nat) (g : MCtx → MCtx) (d : Dev) : (updMctx e g d).clk = d.clk := rfl
@[simp] theorem updMctx_free (e : Nat) (g : MCtx → MCtx) (d : Dev) : (updMctx e g d).free = d.free := rfl
@[simp] theorem updMctx_out (e : Nat) (g : MCtx → MCtx) (d : Dev) : (updMctx e g d).out = d.out := rfl
@[simp] theorem updMctx_work (e : Nat) (g : MCtx → MCtx) (d : Dev) : (updMctx e g d).work = d.work := rfl
@[simp] theorem updMctx_regs (e : Nat) (g : MCtx → MCtx) (d : Dev) : (updMctx e g d).regs = d.regs := rfl
@[simp] theorem updMctx_wraps (e : Nat) (g : MCtx → MCtx) (d : Dev) : (updMctx e g d).wraps = d.wraps := rfl
@[simp] theorem updMctx_chains (e : Nat) (g : MCtx → MCtx) (d : Dev) : (updMctx e g d).chains = d.chains := rfl
@[simp] theorem updMctx_np (e : Nat) (g : MCtx → MCtx) (d : Dev) : (updMctx e g d).np = d.np := rfl
@[simp] theorem updMctx_nextReq (e : Nat) (g : MCtx → MCtx) (d : Dev) : (updMctx e g d).nextReq = d.nextReq := rfl
@[simp] theorem updMctx_reads (e : Nat) (g : MCtx → MCtx) (d : Dev) : (updMctx e g d).reads = d.reads := rfl
@[simp] theorem updMctx_nextRead (e : Nat) (g : MCtx → MCtx) (d : Dev) : (updMctx e g d).nextRead = d.nextRead := rfl
@[simp] theorem updMctx_hosts (e : Nat) (g : MCtx → MCtx) (d : Dev) : (updMctx e g d).hosts = d.hosts := rfl
@[simp] theorem updMctx_fns (e : Nat) (g : MCtx → MCtx) (d : Dev) : (updMctx e g d).fns = d.fns := rfl
@[simp] theorem updMctx_flt (e : Nat) (g : MCtx → MCtx) (d : Dev) : (updMctx e g d).flt = d.flt := rfl
@[simp] theorem updMctx_xl (e : Nat) (g : MCtx → MCtx) (d : Dev) : (updMctx e g d).xl = d.xl := rfl
@[simp] theorem updMctx_ept (e : Nat) (g : MCtx → MCtx) (d : Dev) : (updMctx e g d).ept = d.ept := rfl
@[simp] theorem updMctx_xp (e : Nat) (g : MCtx → MCtx) (d : Dev) : (updMctx e g d).xp = d.xp := rfl
@[simp] theorem updMctx_clasp (e : Nat) (g : MCtx → MCtx) (d : Dev) : (updMctx e g d).clasp = d.clasp := rfl
@[simp] theorem updMctx_coll (e : Nat) (g : MCtx → MCtx) (d : Dev) : (updMctx e g d).coll = d.coll := rfl
@[simp] theorem updMctx_rtr (e : Nat) (g : MCtx → MCtx) (d : Dev) : (updMctx e g d).rtr = d.rtr := rfl
@[simp] theorem updMctx_ports (e : Nat) (g : MCtx → MCtx) (d : Dev) : (updMctx e g d).ports = d.ports := rfl
@[simp] theorem updMctx_time (e : Nat) (g : MCtx → MCtx) (d : Dev) : (updMctx e g d).time = d.time := rfl
@[simp] theorem updMctx_isb (e : Nat) (g : MCtx → MCtx) (d : Dev) : (updMctx e g d).isb = d.isb := rfl
@[simp] theorem updMctx_nv (e : Nat) (g : MCtx → MCtx) (d : Dev) : (updMctx e g d).nv = d.nv := rfl
@[simp] theorem updMctx_dma (e : Nat) (g : MCtx → MCtx) (d : Dev) : (updMctx e g d).dma = d.dma := rfl
@[simp] theorem updMctx_adm (e : Nat) (g : MCtx → MCtx) (d : Dev) : (updMctx e g d).adm = d.adm := rfl
@[simp] theorem updMctx_mnt (e : Nat) (g : MCtx → MCtx) (d : Dev) : (updMctx e g d).mnt = d.mnt := rfl
@[simp] theorem updMctx_mgf (e : Nat) (g : MCtx → MCtx) (d : Dev) : (updMctx e g d).mgf = d.mgf := rfl
@[simp] theorem updMctx_ember (e : Nat) (g : MCtx → MCtx) (d : Dev) : (updMctx e g d).ember = d.ember := rfl
@[simp] theorem updMctx_pwr (e : Nat) (g : MCtx → MCtx) (d : Dev) : (updMctx e g d).pwr = d.pwr := rfl
@[simp] theorem updMctx_boot (e : Nat) (g : MCtx → MCtx) (d : Dev) : (updMctx e g d).boot = d.boot := rfl
@[simp] theorem updMctx_tally (e : Nat) (g : MCtx → MCtx) (d : Dev) : (updMctx e g d).tally = d.tally := rfl

@[simp] theorem updTag_clk (e : Nat) (g : TagMsg → TagMsg) (d : Dev) : (updTag e g d).clk = d.clk := rfl
@[simp] theorem updTag_free (e : Nat) (g : TagMsg → TagMsg) (d : Dev) : (updTag e g d).free = d.free := rfl
@[simp] theorem updTag_out (e : Nat) (g : TagMsg → TagMsg) (d : Dev) : (updTag e g d).out = d.out := rfl
@[simp] theorem updTag_work (e : Nat) (g : TagMsg → TagMsg) (d : Dev) : (updTag e g d).work = d.work := rfl
@[simp] theorem updTag_regs (e : Nat) (g : TagMsg → TagMsg) (d : Dev) : (updTag e g d).regs = d.regs := rfl
@[simp] theorem updTag_wraps (e : Nat) (g : TagMsg → TagMsg) (d : Dev) : (updTag e g d).wraps = d.wraps := rfl
@[simp] theorem updTag_chains (e : Nat) (g : TagMsg → TagMsg) (d : Dev) : (updTag e g d).chains = d.chains := rfl
@[simp] theorem updTag_np (e : Nat) (g : TagMsg → TagMsg) (d : Dev) : (updTag e g d).np = d.np := rfl
@[simp] theorem updTag_nextReq (e : Nat) (g : TagMsg → TagMsg) (d : Dev) : (updTag e g d).nextReq = d.nextReq := rfl
@[simp] theorem updTag_reads (e : Nat) (g : TagMsg → TagMsg) (d : Dev) : (updTag e g d).reads = d.reads := rfl
@[simp] theorem updTag_nextRead (e : Nat) (g : TagMsg → TagMsg) (d : Dev) : (updTag e g d).nextRead = d.nextRead := rfl
@[simp] theorem updTag_hosts (e : Nat) (g : TagMsg → TagMsg) (d : Dev) : (updTag e g d).hosts = d.hosts := rfl
@[simp] theorem updTag_fns (e : Nat) (g : TagMsg → TagMsg) (d : Dev) : (updTag e g d).fns = d.fns := rfl
@[simp] theorem updTag_flt (e : Nat) (g : TagMsg → TagMsg) (d : Dev) : (updTag e g d).flt = d.flt := rfl
@[simp] theorem updTag_xl (e : Nat) (g : TagMsg → TagMsg) (d : Dev) : (updTag e g d).xl = d.xl := rfl
@[simp] theorem updTag_ept (e : Nat) (g : TagMsg → TagMsg) (d : Dev) : (updTag e g d).ept = d.ept := rfl
@[simp] theorem updTag_xp (e : Nat) (g : TagMsg → TagMsg) (d : Dev) : (updTag e g d).xp = d.xp := rfl
@[simp] theorem updTag_clasp (e : Nat) (g : TagMsg → TagMsg) (d : Dev) : (updTag e g d).clasp = d.clasp := rfl
@[simp] theorem updTag_coll (e : Nat) (g : TagMsg → TagMsg) (d : Dev) : (updTag e g d).coll = d.coll := rfl
@[simp] theorem updTag_rtr (e : Nat) (g : TagMsg → TagMsg) (d : Dev) : (updTag e g d).rtr = d.rtr := rfl
@[simp] theorem updTag_ports (e : Nat) (g : TagMsg → TagMsg) (d : Dev) : (updTag e g d).ports = d.ports := rfl
@[simp] theorem updTag_time (e : Nat) (g : TagMsg → TagMsg) (d : Dev) : (updTag e g d).time = d.time := rfl
@[simp] theorem updTag_isb (e : Nat) (g : TagMsg → TagMsg) (d : Dev) : (updTag e g d).isb = d.isb := rfl
@[simp] theorem updTag_nv (e : Nat) (g : TagMsg → TagMsg) (d : Dev) : (updTag e g d).nv = d.nv := rfl
@[simp] theorem updTag_dma (e : Nat) (g : TagMsg → TagMsg) (d : Dev) : (updTag e g d).dma = d.dma := rfl
@[simp] theorem updTag_adm (e : Nat) (g : TagMsg → TagMsg) (d : Dev) : (updTag e g d).adm = d.adm := rfl
@[simp] theorem updTag_mnt (e : Nat) (g : TagMsg → TagMsg) (d : Dev) : (updTag e g d).mnt = d.mnt := rfl
@[simp] theorem updTag_mgf (e : Nat) (g : TagMsg → TagMsg) (d : Dev) : (updTag e g d).mgf = d.mgf := rfl
@[simp] theorem updTag_ember (e : Nat) (g : TagMsg → TagMsg) (d : Dev) : (updTag e g d).ember = d.ember := rfl
@[simp] theorem updTag_pwr (e : Nat) (g : TagMsg → TagMsg) (d : Dev) : (updTag e g d).pwr = d.pwr := rfl
@[simp] theorem updTag_boot (e : Nat) (g : TagMsg → TagMsg) (d : Dev) : (updTag e g d).boot = d.boot := rfl
@[simp] theorem updTag_tally (e : Nat) (g : TagMsg → TagMsg) (d : Dev) : (updTag e g d).tally = d.tally := rfl

@[simp] theorem updColl_clk (g : CollAll → CollAll) (d : Dev) : (updColl g d).clk = d.clk := rfl
@[simp] theorem updColl_free (g : CollAll → CollAll) (d : Dev) : (updColl g d).free = d.free := rfl
@[simp] theorem updColl_out (g : CollAll → CollAll) (d : Dev) : (updColl g d).out = d.out := rfl
@[simp] theorem updColl_work (g : CollAll → CollAll) (d : Dev) : (updColl g d).work = d.work := rfl
@[simp] theorem updColl_regs (g : CollAll → CollAll) (d : Dev) : (updColl g d).regs = d.regs := rfl
@[simp] theorem updColl_wraps (g : CollAll → CollAll) (d : Dev) : (updColl g d).wraps = d.wraps := rfl
@[simp] theorem updColl_chains (g : CollAll → CollAll) (d : Dev) : (updColl g d).chains = d.chains := rfl
@[simp] theorem updColl_np (g : CollAll → CollAll) (d : Dev) : (updColl g d).np = d.np := rfl
@[simp] theorem updColl_nextReq (g : CollAll → CollAll) (d : Dev) : (updColl g d).nextReq = d.nextReq := rfl
@[simp] theorem updColl_reads (g : CollAll → CollAll) (d : Dev) : (updColl g d).reads = d.reads := rfl
@[simp] theorem updColl_nextRead (g : CollAll → CollAll) (d : Dev) : (updColl g d).nextRead = d.nextRead := rfl
@[simp] theorem updColl_hosts (g : CollAll → CollAll) (d : Dev) : (updColl g d).hosts = d.hosts := rfl
@[simp] theorem updColl_fns (g : CollAll → CollAll) (d : Dev) : (updColl g d).fns = d.fns := rfl
@[simp] theorem updColl_flt (g : CollAll → CollAll) (d : Dev) : (updColl g d).flt = d.flt := rfl
@[simp] theorem updColl_xl (g : CollAll → CollAll) (d : Dev) : (updColl g d).xl = d.xl := rfl
@[simp] theorem updColl_ept (g : CollAll → CollAll) (d : Dev) : (updColl g d).ept = d.ept := rfl
@[simp] theorem updColl_xp (g : CollAll → CollAll) (d : Dev) : (updColl g d).xp = d.xp := rfl
@[simp] theorem updColl_clasp (g : CollAll → CollAll) (d : Dev) : (updColl g d).clasp = d.clasp := rfl
@[simp] theorem updColl_mt (g : CollAll → CollAll) (d : Dev) : (updColl g d).mt = d.mt := rfl
@[simp] theorem updColl_coll (g : CollAll → CollAll) (d : Dev) : (updColl g d).coll = g d.coll := rfl
@[simp] theorem updColl_rtr (g : CollAll → CollAll) (d : Dev) : (updColl g d).rtr = d.rtr := rfl
@[simp] theorem updColl_ports (g : CollAll → CollAll) (d : Dev) : (updColl g d).ports = d.ports := rfl
@[simp] theorem updColl_time (g : CollAll → CollAll) (d : Dev) : (updColl g d).time = d.time := rfl
@[simp] theorem updColl_isb (g : CollAll → CollAll) (d : Dev) : (updColl g d).isb = d.isb := rfl
@[simp] theorem updColl_nv (g : CollAll → CollAll) (d : Dev) : (updColl g d).nv = d.nv := rfl
@[simp] theorem updColl_dma (g : CollAll → CollAll) (d : Dev) : (updColl g d).dma = d.dma := rfl
@[simp] theorem updColl_adm (g : CollAll → CollAll) (d : Dev) : (updColl g d).adm = d.adm := rfl
@[simp] theorem updColl_mnt (g : CollAll → CollAll) (d : Dev) : (updColl g d).mnt = d.mnt := rfl
@[simp] theorem updColl_mgf (g : CollAll → CollAll) (d : Dev) : (updColl g d).mgf = d.mgf := rfl
@[simp] theorem updColl_ember (g : CollAll → CollAll) (d : Dev) : (updColl g d).ember = d.ember := rfl
@[simp] theorem updColl_pwr (g : CollAll → CollAll) (d : Dev) : (updColl g d).pwr = d.pwr := rfl
@[simp] theorem updColl_boot (g : CollAll → CollAll) (d : Dev) : (updColl g d).boot = d.boot := rfl
@[simp] theorem updColl_tally (g : CollAll → CollAll) (d : Dev) : (updColl g d).tally = d.tally := rfl

@[simp] theorem updRtr_clk (g : Rtr → Rtr) (d : Dev) : (updRtr g d).clk = d.clk := rfl
@[simp] theorem updRtr_free (g : Rtr → Rtr) (d : Dev) : (updRtr g d).free = d.free := rfl
@[simp] theorem updRtr_out (g : Rtr → Rtr) (d : Dev) : (updRtr g d).out = d.out := rfl
@[simp] theorem updRtr_work (g : Rtr → Rtr) (d : Dev) : (updRtr g d).work = d.work := rfl
@[simp] theorem updRtr_regs (g : Rtr → Rtr) (d : Dev) : (updRtr g d).regs = d.regs := rfl
@[simp] theorem updRtr_wraps (g : Rtr → Rtr) (d : Dev) : (updRtr g d).wraps = d.wraps := rfl
@[simp] theorem updRtr_chains (g : Rtr → Rtr) (d : Dev) : (updRtr g d).chains = d.chains := rfl
@[simp] theorem updRtr_np (g : Rtr → Rtr) (d : Dev) : (updRtr g d).np = d.np := rfl
@[simp] theorem updRtr_nextReq (g : Rtr → Rtr) (d : Dev) : (updRtr g d).nextReq = d.nextReq := rfl
@[simp] theorem updRtr_reads (g : Rtr → Rtr) (d : Dev) : (updRtr g d).reads = d.reads := rfl
@[simp] theorem updRtr_nextRead (g : Rtr → Rtr) (d : Dev) : (updRtr g d).nextRead = d.nextRead := rfl
@[simp] theorem updRtr_hosts (g : Rtr → Rtr) (d : Dev) : (updRtr g d).hosts = d.hosts := rfl
@[simp] theorem updRtr_fns (g : Rtr → Rtr) (d : Dev) : (updRtr g d).fns = d.fns := rfl
@[simp] theorem updRtr_flt (g : Rtr → Rtr) (d : Dev) : (updRtr g d).flt = d.flt := rfl
@[simp] theorem updRtr_xl (g : Rtr → Rtr) (d : Dev) : (updRtr g d).xl = d.xl := rfl
@[simp] theorem updRtr_ept (g : Rtr → Rtr) (d : Dev) : (updRtr g d).ept = d.ept := rfl
@[simp] theorem updRtr_xp (g : Rtr → Rtr) (d : Dev) : (updRtr g d).xp = d.xp := rfl
@[simp] theorem updRtr_clasp (g : Rtr → Rtr) (d : Dev) : (updRtr g d).clasp = d.clasp := rfl
@[simp] theorem updRtr_mt (g : Rtr → Rtr) (d : Dev) : (updRtr g d).mt = d.mt := rfl
@[simp] theorem updRtr_coll (g : Rtr → Rtr) (d : Dev) : (updRtr g d).coll = d.coll := rfl
@[simp] theorem updRtr_rtr (g : Rtr → Rtr) (d : Dev) : (updRtr g d).rtr = g d.rtr := rfl
@[simp] theorem updRtr_ports (g : Rtr → Rtr) (d : Dev) : (updRtr g d).ports = d.ports := rfl
@[simp] theorem updRtr_time (g : Rtr → Rtr) (d : Dev) : (updRtr g d).time = d.time := rfl
@[simp] theorem updRtr_isb (g : Rtr → Rtr) (d : Dev) : (updRtr g d).isb = d.isb := rfl
@[simp] theorem updRtr_nv (g : Rtr → Rtr) (d : Dev) : (updRtr g d).nv = d.nv := rfl
@[simp] theorem updRtr_dma (g : Rtr → Rtr) (d : Dev) : (updRtr g d).dma = d.dma := rfl
@[simp] theorem updRtr_adm (g : Rtr → Rtr) (d : Dev) : (updRtr g d).adm = d.adm := rfl
@[simp] theorem updRtr_mnt (g : Rtr → Rtr) (d : Dev) : (updRtr g d).mnt = d.mnt := rfl
@[simp] theorem updRtr_mgf (g : Rtr → Rtr) (d : Dev) : (updRtr g d).mgf = d.mgf := rfl
@[simp] theorem updRtr_ember (g : Rtr → Rtr) (d : Dev) : (updRtr g d).ember = d.ember := rfl
@[simp] theorem updRtr_pwr (g : Rtr → Rtr) (d : Dev) : (updRtr g d).pwr = d.pwr := rfl
@[simp] theorem updRtr_boot (g : Rtr → Rtr) (d : Dev) : (updRtr g d).boot = d.boot := rfl
@[simp] theorem updRtr_tally (g : Rtr → Rtr) (d : Dev) : (updRtr g d).tally = d.tally := rfl

@[simp] theorem updTime_clk (g : TimeSt → TimeSt) (d : Dev) : (updTime g d).clk = d.clk := rfl
@[simp] theorem updTime_free (g : TimeSt → TimeSt) (d : Dev) : (updTime g d).free = d.free := rfl
@[simp] theorem updTime_out (g : TimeSt → TimeSt) (d : Dev) : (updTime g d).out = d.out := rfl
@[simp] theorem updTime_work (g : TimeSt → TimeSt) (d : Dev) : (updTime g d).work = d.work := rfl
@[simp] theorem updTime_regs (g : TimeSt → TimeSt) (d : Dev) : (updTime g d).regs = d.regs := rfl
@[simp] theorem updTime_wraps (g : TimeSt → TimeSt) (d : Dev) : (updTime g d).wraps = d.wraps := rfl
@[simp] theorem updTime_chains (g : TimeSt → TimeSt) (d : Dev) : (updTime g d).chains = d.chains := rfl
@[simp] theorem updTime_np (g : TimeSt → TimeSt) (d : Dev) : (updTime g d).np = d.np := rfl
@[simp] theorem updTime_nextReq (g : TimeSt → TimeSt) (d : Dev) : (updTime g d).nextReq = d.nextReq := rfl
@[simp] theorem updTime_reads (g : TimeSt → TimeSt) (d : Dev) : (updTime g d).reads = d.reads := rfl
@[simp] theorem updTime_nextRead (g : TimeSt → TimeSt) (d : Dev) : (updTime g d).nextRead = d.nextRead := rfl
@[simp] theorem updTime_hosts (g : TimeSt → TimeSt) (d : Dev) : (updTime g d).hosts = d.hosts := rfl
@[simp] theorem updTime_fns (g : TimeSt → TimeSt) (d : Dev) : (updTime g d).fns = d.fns := rfl
@[simp] theorem updTime_flt (g : TimeSt → TimeSt) (d : Dev) : (updTime g d).flt = d.flt := rfl
@[simp] theorem updTime_xl (g : TimeSt → TimeSt) (d : Dev) : (updTime g d).xl = d.xl := rfl
@[simp] theorem updTime_ept (g : TimeSt → TimeSt) (d : Dev) : (updTime g d).ept = d.ept := rfl
@[simp] theorem updTime_xp (g : TimeSt → TimeSt) (d : Dev) : (updTime g d).xp = d.xp := rfl
@[simp] theorem updTime_clasp (g : TimeSt → TimeSt) (d : Dev) : (updTime g d).clasp = d.clasp := rfl
@[simp] theorem updTime_mt (g : TimeSt → TimeSt) (d : Dev) : (updTime g d).mt = d.mt := rfl
@[simp] theorem updTime_coll (g : TimeSt → TimeSt) (d : Dev) : (updTime g d).coll = d.coll := rfl
@[simp] theorem updTime_rtr (g : TimeSt → TimeSt) (d : Dev) : (updTime g d).rtr = d.rtr := rfl
@[simp] theorem updTime_ports (g : TimeSt → TimeSt) (d : Dev) : (updTime g d).ports = d.ports := rfl
@[simp] theorem updTime_time (g : TimeSt → TimeSt) (d : Dev) : (updTime g d).time = g d.time := rfl
@[simp] theorem updTime_isb (g : TimeSt → TimeSt) (d : Dev) : (updTime g d).isb = d.isb := rfl
@[simp] theorem updTime_nv (g : TimeSt → TimeSt) (d : Dev) : (updTime g d).nv = d.nv := rfl
@[simp] theorem updTime_dma (g : TimeSt → TimeSt) (d : Dev) : (updTime g d).dma = d.dma := rfl
@[simp] theorem updTime_adm (g : TimeSt → TimeSt) (d : Dev) : (updTime g d).adm = d.adm := rfl
@[simp] theorem updTime_mnt (g : TimeSt → TimeSt) (d : Dev) : (updTime g d).mnt = d.mnt := rfl
@[simp] theorem updTime_mgf (g : TimeSt → TimeSt) (d : Dev) : (updTime g d).mgf = d.mgf := rfl
@[simp] theorem updTime_ember (g : TimeSt → TimeSt) (d : Dev) : (updTime g d).ember = d.ember := rfl
@[simp] theorem updTime_pwr (g : TimeSt → TimeSt) (d : Dev) : (updTime g d).pwr = d.pwr := rfl
@[simp] theorem updTime_boot (g : TimeSt → TimeSt) (d : Dev) : (updTime g d).boot = d.boot := rfl
@[simp] theorem updTime_tally (g : TimeSt → TimeSt) (d : Dev) : (updTime g d).tally = d.tally := rfl

@[simp] theorem updNv_clk (g : Nv → Nv) (d : Dev) : (updNv g d).clk = d.clk := rfl
@[simp] theorem updNv_free (g : Nv → Nv) (d : Dev) : (updNv g d).free = d.free := rfl
@[simp] theorem updNv_out (g : Nv → Nv) (d : Dev) : (updNv g d).out = d.out := rfl
@[simp] theorem updNv_work (g : Nv → Nv) (d : Dev) : (updNv g d).work = d.work := rfl
@[simp] theorem updNv_regs (g : Nv → Nv) (d : Dev) : (updNv g d).regs = d.regs := rfl
@[simp] theorem updNv_wraps (g : Nv → Nv) (d : Dev) : (updNv g d).wraps = d.wraps := rfl
@[simp] theorem updNv_chains (g : Nv → Nv) (d : Dev) : (updNv g d).chains = d.chains := rfl
@[simp] theorem updNv_np (g : Nv → Nv) (d : Dev) : (updNv g d).np = d.np := rfl
@[simp] theorem updNv_nextReq (g : Nv → Nv) (d : Dev) : (updNv g d).nextReq = d.nextReq := rfl
@[simp] theorem updNv_reads (g : Nv → Nv) (d : Dev) : (updNv g d).reads = d.reads := rfl
@[simp] theorem updNv_nextRead (g : Nv → Nv) (d : Dev) : (updNv g d).nextRead = d.nextRead := rfl
@[simp] theorem updNv_hosts (g : Nv → Nv) (d : Dev) : (updNv g d).hosts = d.hosts := rfl
@[simp] theorem updNv_fns (g : Nv → Nv) (d : Dev) : (updNv g d).fns = d.fns := rfl
@[simp] theorem updNv_flt (g : Nv → Nv) (d : Dev) : (updNv g d).flt = d.flt := rfl
@[simp] theorem updNv_xl (g : Nv → Nv) (d : Dev) : (updNv g d).xl = d.xl := rfl
@[simp] theorem updNv_ept (g : Nv → Nv) (d : Dev) : (updNv g d).ept = d.ept := rfl
@[simp] theorem updNv_xp (g : Nv → Nv) (d : Dev) : (updNv g d).xp = d.xp := rfl
@[simp] theorem updNv_clasp (g : Nv → Nv) (d : Dev) : (updNv g d).clasp = d.clasp := rfl
@[simp] theorem updNv_mt (g : Nv → Nv) (d : Dev) : (updNv g d).mt = d.mt := rfl
@[simp] theorem updNv_coll (g : Nv → Nv) (d : Dev) : (updNv g d).coll = d.coll := rfl
@[simp] theorem updNv_rtr (g : Nv → Nv) (d : Dev) : (updNv g d).rtr = d.rtr := rfl
@[simp] theorem updNv_ports (g : Nv → Nv) (d : Dev) : (updNv g d).ports = d.ports := rfl
@[simp] theorem updNv_time (g : Nv → Nv) (d : Dev) : (updNv g d).time = d.time := rfl
@[simp] theorem updNv_isb (g : Nv → Nv) (d : Dev) : (updNv g d).isb = d.isb := rfl
@[simp] theorem updNv_nv (g : Nv → Nv) (d : Dev) : (updNv g d).nv = g d.nv := rfl
@[simp] theorem updNv_dma (g : Nv → Nv) (d : Dev) : (updNv g d).dma = d.dma := rfl
@[simp] theorem updNv_adm (g : Nv → Nv) (d : Dev) : (updNv g d).adm = d.adm := rfl
@[simp] theorem updNv_mnt (g : Nv → Nv) (d : Dev) : (updNv g d).mnt = d.mnt := rfl
@[simp] theorem updNv_mgf (g : Nv → Nv) (d : Dev) : (updNv g d).mgf = d.mgf := rfl
@[simp] theorem updNv_ember (g : Nv → Nv) (d : Dev) : (updNv g d).ember = d.ember := rfl
@[simp] theorem updNv_pwr (g : Nv → Nv) (d : Dev) : (updNv g d).pwr = d.pwr := rfl
@[simp] theorem updNv_boot (g : Nv → Nv) (d : Dev) : (updNv g d).boot = d.boot := rfl
@[simp] theorem updNv_tally (g : Nv → Nv) (d : Dev) : (updNv g d).tally = d.tally := rfl

@[simp] theorem updBoot_clk (g : Boot → Boot) (d : Dev) : (updBoot g d).clk = d.clk := rfl
@[simp] theorem updBoot_free (g : Boot → Boot) (d : Dev) : (updBoot g d).free = d.free := rfl
@[simp] theorem updBoot_out (g : Boot → Boot) (d : Dev) : (updBoot g d).out = d.out := rfl
@[simp] theorem updBoot_work (g : Boot → Boot) (d : Dev) : (updBoot g d).work = d.work := rfl
@[simp] theorem updBoot_regs (g : Boot → Boot) (d : Dev) : (updBoot g d).regs = d.regs := rfl
@[simp] theorem updBoot_wraps (g : Boot → Boot) (d : Dev) : (updBoot g d).wraps = d.wraps := rfl
@[simp] theorem updBoot_chains (g : Boot → Boot) (d : Dev) : (updBoot g d).chains = d.chains := rfl
@[simp] theorem updBoot_np (g : Boot → Boot) (d : Dev) : (updBoot g d).np = d.np := rfl
@[simp] theorem updBoot_nextReq (g : Boot → Boot) (d : Dev) : (updBoot g d).nextReq = d.nextReq := rfl
@[simp] theorem updBoot_reads (g : Boot → Boot) (d : Dev) : (updBoot g d).reads = d.reads := rfl
@[simp] theorem updBoot_nextRead (g : Boot → Boot) (d : Dev) : (updBoot g d).nextRead = d.nextRead := rfl
@[simp] theorem updBoot_hosts (g : Boot → Boot) (d : Dev) : (updBoot g d).hosts = d.hosts := rfl
@[simp] theorem updBoot_fns (g : Boot → Boot) (d : Dev) : (updBoot g d).fns = d.fns := rfl
@[simp] theorem updBoot_flt (g : Boot → Boot) (d : Dev) : (updBoot g d).flt = d.flt := rfl
@[simp] theorem updBoot_xl (g : Boot → Boot) (d : Dev) : (updBoot g d).xl = d.xl := rfl
@[simp] theorem updBoot_ept (g : Boot → Boot) (d : Dev) : (updBoot g d).ept = d.ept := rfl
@[simp] theorem updBoot_xp (g : Boot → Boot) (d : Dev) : (updBoot g d).xp = d.xp := rfl
@[simp] theorem updBoot_clasp (g : Boot → Boot) (d : Dev) : (updBoot g d).clasp = d.clasp := rfl
@[simp] theorem updBoot_mt (g : Boot → Boot) (d : Dev) : (updBoot g d).mt = d.mt := rfl
@[simp] theorem updBoot_coll (g : Boot → Boot) (d : Dev) : (updBoot g d).coll = d.coll := rfl
@[simp] theorem updBoot_rtr (g : Boot → Boot) (d : Dev) : (updBoot g d).rtr = d.rtr := rfl
@[simp] theorem updBoot_ports (g : Boot → Boot) (d : Dev) : (updBoot g d).ports = d.ports := rfl
@[simp] theorem updBoot_time (g : Boot → Boot) (d : Dev) : (updBoot g d).time = d.time := rfl
@[simp] theorem updBoot_isb (g : Boot → Boot) (d : Dev) : (updBoot g d).isb = d.isb := rfl
@[simp] theorem updBoot_nv (g : Boot → Boot) (d : Dev) : (updBoot g d).nv = d.nv := rfl
@[simp] theorem updBoot_dma (g : Boot → Boot) (d : Dev) : (updBoot g d).dma = d.dma := rfl
@[simp] theorem updBoot_adm (g : Boot → Boot) (d : Dev) : (updBoot g d).adm = d.adm := rfl
@[simp] theorem updBoot_mnt (g : Boot → Boot) (d : Dev) : (updBoot g d).mnt = d.mnt := rfl
@[simp] theorem updBoot_mgf (g : Boot → Boot) (d : Dev) : (updBoot g d).mgf = d.mgf := rfl
@[simp] theorem updBoot_ember (g : Boot → Boot) (d : Dev) : (updBoot g d).ember = d.ember := rfl
@[simp] theorem updBoot_pwr (g : Boot → Boot) (d : Dev) : (updBoot g d).pwr = d.pwr := rfl
@[simp] theorem updBoot_boot (g : Boot → Boot) (d : Dev) : (updBoot g d).boot = g d.boot := rfl
@[simp] theorem updBoot_tally (g : Boot → Boot) (d : Dev) : (updBoot g d).tally = d.tally := rfl

@[simp] theorem updMnt_clk (g : Mnt → Mnt) (d : Dev) : (updMnt g d).clk = d.clk := rfl
@[simp] theorem updMnt_free (g : Mnt → Mnt) (d : Dev) : (updMnt g d).free = d.free := rfl
@[simp] theorem updMnt_out (g : Mnt → Mnt) (d : Dev) : (updMnt g d).out = d.out := rfl
@[simp] theorem updMnt_work (g : Mnt → Mnt) (d : Dev) : (updMnt g d).work = d.work := rfl
@[simp] theorem updMnt_regs (g : Mnt → Mnt) (d : Dev) : (updMnt g d).regs = d.regs := rfl
@[simp] theorem updMnt_wraps (g : Mnt → Mnt) (d : Dev) : (updMnt g d).wraps = d.wraps := rfl
@[simp] theorem updMnt_chains (g : Mnt → Mnt) (d : Dev) : (updMnt g d).chains = d.chains := rfl
@[simp] theorem updMnt_np (g : Mnt → Mnt) (d : Dev) : (updMnt g d).np = d.np := rfl
@[simp] theorem updMnt_nextReq (g : Mnt → Mnt) (d : Dev) : (updMnt g d).nextReq = d.nextReq := rfl
@[simp] theorem updMnt_reads (g : Mnt → Mnt) (d : Dev) : (updMnt g d).reads = d.reads := rfl
@[simp] theorem updMnt_nextRead (g : Mnt → Mnt) (d : Dev) : (updMnt g d).nextRead = d.nextRead := rfl
@[simp] theorem updMnt_hosts (g : Mnt → Mnt) (d : Dev) : (updMnt g d).hosts = d.hosts := rfl
@[simp] theorem updMnt_fns (g : Mnt → Mnt) (d : Dev) : (updMnt g d).fns = d.fns := rfl
@[simp] theorem updMnt_flt (g : Mnt → Mnt) (d : Dev) : (updMnt g d).flt = d.flt := rfl
@[simp] theorem updMnt_xl (g : Mnt → Mnt) (d : Dev) : (updMnt g d).xl = d.xl := rfl
@[simp] theorem updMnt_ept (g : Mnt → Mnt) (d : Dev) : (updMnt g d).ept = d.ept := rfl
@[simp] theorem updMnt_xp (g : Mnt → Mnt) (d : Dev) : (updMnt g d).xp = d.xp := rfl
@[simp] theorem updMnt_clasp (g : Mnt → Mnt) (d : Dev) : (updMnt g d).clasp = d.clasp := rfl
@[simp] theorem updMnt_mt (g : Mnt → Mnt) (d : Dev) : (updMnt g d).mt = d.mt := rfl
@[simp] theorem updMnt_coll (g : Mnt → Mnt) (d : Dev) : (updMnt g d).coll = d.coll := rfl
@[simp] theorem updMnt_rtr (g : Mnt → Mnt) (d : Dev) : (updMnt g d).rtr = d.rtr := rfl
@[simp] theorem updMnt_ports (g : Mnt → Mnt) (d : Dev) : (updMnt g d).ports = d.ports := rfl
@[simp] theorem updMnt_time (g : Mnt → Mnt) (d : Dev) : (updMnt g d).time = d.time := rfl
@[simp] theorem updMnt_isb (g : Mnt → Mnt) (d : Dev) : (updMnt g d).isb = d.isb := rfl
@[simp] theorem updMnt_nv (g : Mnt → Mnt) (d : Dev) : (updMnt g d).nv = d.nv := rfl
@[simp] theorem updMnt_dma (g : Mnt → Mnt) (d : Dev) : (updMnt g d).dma = d.dma := rfl
@[simp] theorem updMnt_adm (g : Mnt → Mnt) (d : Dev) : (updMnt g d).adm = d.adm := rfl
@[simp] theorem updMnt_mnt (g : Mnt → Mnt) (d : Dev) : (updMnt g d).mnt = g d.mnt := rfl
@[simp] theorem updMnt_mgf (g : Mnt → Mnt) (d : Dev) : (updMnt g d).mgf = d.mgf := rfl
@[simp] theorem updMnt_ember (g : Mnt → Mnt) (d : Dev) : (updMnt g d).ember = d.ember := rfl
@[simp] theorem updMnt_pwr (g : Mnt → Mnt) (d : Dev) : (updMnt g d).pwr = d.pwr := rfl
@[simp] theorem updMnt_boot (g : Mnt → Mnt) (d : Dev) : (updMnt g d).boot = d.boot := rfl
@[simp] theorem updMnt_tally (g : Mnt → Mnt) (d : Dev) : (updMnt g d).tally = d.tally := rfl

@[simp] theorem updMgf_clk (g : Mgf → Mgf) (d : Dev) : (updMgf g d).clk = d.clk := rfl
@[simp] theorem updMgf_free (g : Mgf → Mgf) (d : Dev) : (updMgf g d).free = d.free := rfl
@[simp] theorem updMgf_out (g : Mgf → Mgf) (d : Dev) : (updMgf g d).out = d.out := rfl
@[simp] theorem updMgf_work (g : Mgf → Mgf) (d : Dev) : (updMgf g d).work = d.work := rfl
@[simp] theorem updMgf_regs (g : Mgf → Mgf) (d : Dev) : (updMgf g d).regs = d.regs := rfl
@[simp] theorem updMgf_wraps (g : Mgf → Mgf) (d : Dev) : (updMgf g d).wraps = d.wraps := rfl
@[simp] theorem updMgf_chains (g : Mgf → Mgf) (d : Dev) : (updMgf g d).chains = d.chains := rfl
@[simp] theorem updMgf_np (g : Mgf → Mgf) (d : Dev) : (updMgf g d).np = d.np := rfl
@[simp] theorem updMgf_nextReq (g : Mgf → Mgf) (d : Dev) : (updMgf g d).nextReq = d.nextReq := rfl
@[simp] theorem updMgf_reads (g : Mgf → Mgf) (d : Dev) : (updMgf g d).reads = d.reads := rfl
@[simp] theorem updMgf_nextRead (g : Mgf → Mgf) (d : Dev) : (updMgf g d).nextRead = d.nextRead := rfl
@[simp] theorem updMgf_hosts (g : Mgf → Mgf) (d : Dev) : (updMgf g d).hosts = d.hosts := rfl
@[simp] theorem updMgf_fns (g : Mgf → Mgf) (d : Dev) : (updMgf g d).fns = d.fns := rfl
@[simp] theorem updMgf_flt (g : Mgf → Mgf) (d : Dev) : (updMgf g d).flt = d.flt := rfl
@[simp] theorem updMgf_xl (g : Mgf → Mgf) (d : Dev) : (updMgf g d).xl = d.xl := rfl
@[simp] theorem updMgf_ept (g : Mgf → Mgf) (d : Dev) : (updMgf g d).ept = d.ept := rfl
@[simp] theorem updMgf_xp (g : Mgf → Mgf) (d : Dev) : (updMgf g d).xp = d.xp := rfl
@[simp] theorem updMgf_clasp (g : Mgf → Mgf) (d : Dev) : (updMgf g d).clasp = d.clasp := rfl
@[simp] theorem updMgf_mt (g : Mgf → Mgf) (d : Dev) : (updMgf g d).mt = d.mt := rfl
@[simp] theorem updMgf_coll (g : Mgf → Mgf) (d : Dev) : (updMgf g d).coll = d.coll := rfl
@[simp] theorem updMgf_rtr (g : Mgf → Mgf) (d : Dev) : (updMgf g d).rtr = d.rtr := rfl
@[simp] theorem updMgf_ports (g : Mgf → Mgf) (d : Dev) : (updMgf g d).ports = d.ports := rfl
@[simp] theorem updMgf_time (g : Mgf → Mgf) (d : Dev) : (updMgf g d).time = d.time := rfl
@[simp] theorem updMgf_isb (g : Mgf → Mgf) (d : Dev) : (updMgf g d).isb = d.isb := rfl
@[simp] theorem updMgf_nv (g : Mgf → Mgf) (d : Dev) : (updMgf g d).nv = d.nv := rfl
@[simp] theorem updMgf_dma (g : Mgf → Mgf) (d : Dev) : (updMgf g d).dma = d.dma := rfl
@[simp] theorem updMgf_adm (g : Mgf → Mgf) (d : Dev) : (updMgf g d).adm = d.adm := rfl
@[simp] theorem updMgf_mnt (g : Mgf → Mgf) (d : Dev) : (updMgf g d).mnt = d.mnt := rfl
@[simp] theorem updMgf_mgf (g : Mgf → Mgf) (d : Dev) : (updMgf g d).mgf = g d.mgf := rfl
@[simp] theorem updMgf_ember (g : Mgf → Mgf) (d : Dev) : (updMgf g d).ember = d.ember := rfl
@[simp] theorem updMgf_pwr (g : Mgf → Mgf) (d : Dev) : (updMgf g d).pwr = d.pwr := rfl
@[simp] theorem updMgf_boot (g : Mgf → Mgf) (d : Dev) : (updMgf g d).boot = d.boot := rfl
@[simp] theorem updMgf_tally (g : Mgf → Mgf) (d : Dev) : (updMgf g d).tally = d.tally := rfl

@[simp] theorem updEmber_clk (g : Ember → Ember) (d : Dev) : (updEmber g d).clk = d.clk := rfl
@[simp] theorem updEmber_free (g : Ember → Ember) (d : Dev) : (updEmber g d).free = d.free := rfl
@[simp] theorem updEmber_out (g : Ember → Ember) (d : Dev) : (updEmber g d).out = d.out := rfl
@[simp] theorem updEmber_work (g : Ember → Ember) (d : Dev) : (updEmber g d).work = d.work := rfl
@[simp] theorem updEmber_regs (g : Ember → Ember) (d : Dev) : (updEmber g d).regs = d.regs := rfl
@[simp] theorem updEmber_wraps (g : Ember → Ember) (d : Dev) : (updEmber g d).wraps = d.wraps := rfl
@[simp] theorem updEmber_chains (g : Ember → Ember) (d : Dev) : (updEmber g d).chains = d.chains := rfl
@[simp] theorem updEmber_np (g : Ember → Ember) (d : Dev) : (updEmber g d).np = d.np := rfl
@[simp] theorem updEmber_nextReq (g : Ember → Ember) (d : Dev) : (updEmber g d).nextReq = d.nextReq := rfl
@[simp] theorem updEmber_reads (g : Ember → Ember) (d : Dev) : (updEmber g d).reads = d.reads := rfl
@[simp] theorem updEmber_nextRead (g : Ember → Ember) (d : Dev) : (updEmber g d).nextRead = d.nextRead := rfl
@[simp] theorem updEmber_hosts (g : Ember → Ember) (d : Dev) : (updEmber g d).hosts = d.hosts := rfl
@[simp] theorem updEmber_fns (g : Ember → Ember) (d : Dev) : (updEmber g d).fns = d.fns := rfl
@[simp] theorem updEmber_flt (g : Ember → Ember) (d : Dev) : (updEmber g d).flt = d.flt := rfl
@[simp] theorem updEmber_xl (g : Ember → Ember) (d : Dev) : (updEmber g d).xl = d.xl := rfl
@[simp] theorem updEmber_ept (g : Ember → Ember) (d : Dev) : (updEmber g d).ept = d.ept := rfl
@[simp] theorem updEmber_xp (g : Ember → Ember) (d : Dev) : (updEmber g d).xp = d.xp := rfl
@[simp] theorem updEmber_clasp (g : Ember → Ember) (d : Dev) : (updEmber g d).clasp = d.clasp := rfl
@[simp] theorem updEmber_mt (g : Ember → Ember) (d : Dev) : (updEmber g d).mt = d.mt := rfl
@[simp] theorem updEmber_coll (g : Ember → Ember) (d : Dev) : (updEmber g d).coll = d.coll := rfl
@[simp] theorem updEmber_rtr (g : Ember → Ember) (d : Dev) : (updEmber g d).rtr = d.rtr := rfl
@[simp] theorem updEmber_ports (g : Ember → Ember) (d : Dev) : (updEmber g d).ports = d.ports := rfl
@[simp] theorem updEmber_time (g : Ember → Ember) (d : Dev) : (updEmber g d).time = d.time := rfl
@[simp] theorem updEmber_isb (g : Ember → Ember) (d : Dev) : (updEmber g d).isb = d.isb := rfl
@[simp] theorem updEmber_nv (g : Ember → Ember) (d : Dev) : (updEmber g d).nv = d.nv := rfl
@[simp] theorem updEmber_dma (g : Ember → Ember) (d : Dev) : (updEmber g d).dma = d.dma := rfl
@[simp] theorem updEmber_adm (g : Ember → Ember) (d : Dev) : (updEmber g d).adm = d.adm := rfl
@[simp] theorem updEmber_mnt (g : Ember → Ember) (d : Dev) : (updEmber g d).mnt = d.mnt := rfl
@[simp] theorem updEmber_mgf (g : Ember → Ember) (d : Dev) : (updEmber g d).mgf = d.mgf := rfl
@[simp] theorem updEmber_ember (g : Ember → Ember) (d : Dev) : (updEmber g d).ember = g d.ember := rfl
@[simp] theorem updEmber_pwr (g : Ember → Ember) (d : Dev) : (updEmber g d).pwr = d.pwr := rfl
@[simp] theorem updEmber_boot (g : Ember → Ember) (d : Dev) : (updEmber g d).boot = d.boot := rfl
@[simp] theorem updEmber_tally (g : Ember → Ember) (d : Dev) : (updEmber g d).tally = d.tally := rfl

@[simp] theorem updPwr_clk (g : Pwr → Pwr) (d : Dev) : (updPwr g d).clk = d.clk := rfl
@[simp] theorem updPwr_free (g : Pwr → Pwr) (d : Dev) : (updPwr g d).free = d.free := rfl
@[simp] theorem updPwr_out (g : Pwr → Pwr) (d : Dev) : (updPwr g d).out = d.out := rfl
@[simp] theorem updPwr_work (g : Pwr → Pwr) (d : Dev) : (updPwr g d).work = d.work := rfl
@[simp] theorem updPwr_regs (g : Pwr → Pwr) (d : Dev) : (updPwr g d).regs = d.regs := rfl
@[simp] theorem updPwr_wraps (g : Pwr → Pwr) (d : Dev) : (updPwr g d).wraps = d.wraps := rfl
@[simp] theorem updPwr_chains (g : Pwr → Pwr) (d : Dev) : (updPwr g d).chains = d.chains := rfl
@[simp] theorem updPwr_np (g : Pwr → Pwr) (d : Dev) : (updPwr g d).np = d.np := rfl
@[simp] theorem updPwr_nextReq (g : Pwr → Pwr) (d : Dev) : (updPwr g d).nextReq = d.nextReq := rfl
@[simp] theorem updPwr_reads (g : Pwr → Pwr) (d : Dev) : (updPwr g d).reads = d.reads := rfl
@[simp] theorem updPwr_nextRead (g : Pwr → Pwr) (d : Dev) : (updPwr g d).nextRead = d.nextRead := rfl
@[simp] theorem updPwr_hosts (g : Pwr → Pwr) (d : Dev) : (updPwr g d).hosts = d.hosts := rfl
@[simp] theorem updPwr_fns (g : Pwr → Pwr) (d : Dev) : (updPwr g d).fns = d.fns := rfl
@[simp] theorem updPwr_flt (g : Pwr → Pwr) (d : Dev) : (updPwr g d).flt = d.flt := rfl
@[simp] theorem updPwr_xl (g : Pwr → Pwr) (d : Dev) : (updPwr g d).xl = d.xl := rfl
@[simp] theorem updPwr_ept (g : Pwr → Pwr) (d : Dev) : (updPwr g d).ept = d.ept := rfl
@[simp] theorem updPwr_xp (g : Pwr → Pwr) (d : Dev) : (updPwr g d).xp = d.xp := rfl
@[simp] theorem updPwr_clasp (g : Pwr → Pwr) (d : Dev) : (updPwr g d).clasp = d.clasp := rfl
@[simp] theorem updPwr_mt (g : Pwr → Pwr) (d : Dev) : (updPwr g d).mt = d.mt := rfl
@[simp] theorem updPwr_coll (g : Pwr → Pwr) (d : Dev) : (updPwr g d).coll = d.coll := rfl
@[simp] theorem updPwr_rtr (g : Pwr → Pwr) (d : Dev) : (updPwr g d).rtr = d.rtr := rfl
@[simp] theorem updPwr_ports (g : Pwr → Pwr) (d : Dev) : (updPwr g d).ports = d.ports := rfl
@[simp] theorem updPwr_time (g : Pwr → Pwr) (d : Dev) : (updPwr g d).time = d.time := rfl
@[simp] theorem updPwr_isb (g : Pwr → Pwr) (d : Dev) : (updPwr g d).isb = d.isb := rfl
@[simp] theorem updPwr_nv (g : Pwr → Pwr) (d : Dev) : (updPwr g d).nv = d.nv := rfl
@[simp] theorem updPwr_dma (g : Pwr → Pwr) (d : Dev) : (updPwr g d).dma = d.dma := rfl
@[simp] theorem updPwr_adm (g : Pwr → Pwr) (d : Dev) : (updPwr g d).adm = d.adm := rfl
@[simp] theorem updPwr_mnt (g : Pwr → Pwr) (d : Dev) : (updPwr g d).mnt = d.mnt := rfl
@[simp] theorem updPwr_mgf (g : Pwr → Pwr) (d : Dev) : (updPwr g d).mgf = d.mgf := rfl
@[simp] theorem updPwr_ember (g : Pwr → Pwr) (d : Dev) : (updPwr g d).ember = d.ember := rfl
@[simp] theorem updPwr_pwr (g : Pwr → Pwr) (d : Dev) : (updPwr g d).pwr = g d.pwr := rfl
@[simp] theorem updPwr_boot (g : Pwr → Pwr) (d : Dev) : (updPwr g d).boot = d.boot := rfl
@[simp] theorem updPwr_tally (g : Pwr → Pwr) (d : Dev) : (updPwr g d).tally = d.tally := rfl

@[simp] theorem updTally_clk (g : Tally → Tally) (d : Dev) : (updTally g d).clk = d.clk := rfl
@[simp] theorem updTally_free (g : Tally → Tally) (d : Dev) : (updTally g d).free = d.free := rfl
@[simp] theorem updTally_out (g : Tally → Tally) (d : Dev) : (updTally g d).out = d.out := rfl
@[simp] theorem updTally_work (g : Tally → Tally) (d : Dev) : (updTally g d).work = d.work := rfl
@[simp] theorem updTally_regs (g : Tally → Tally) (d : Dev) : (updTally g d).regs = d.regs := rfl
@[simp] theorem updTally_wraps (g : Tally → Tally) (d : Dev) : (updTally g d).wraps = d.wraps := rfl
@[simp] theorem updTally_chains (g : Tally → Tally) (d : Dev) : (updTally g d).chains = d.chains := rfl
@[simp] theorem updTally_np (g : Tally → Tally) (d : Dev) : (updTally g d).np = d.np := rfl
@[simp] theorem updTally_nextReq (g : Tally → Tally) (d : Dev) : (updTally g d).nextReq = d.nextReq := rfl
@[simp] theorem updTally_reads (g : Tally → Tally) (d : Dev) : (updTally g d).reads = d.reads := rfl
@[simp] theorem updTally_nextRead (g : Tally → Tally) (d : Dev) : (updTally g d).nextRead = d.nextRead := rfl
@[simp] theorem updTally_hosts (g : Tally → Tally) (d : Dev) : (updTally g d).hosts = d.hosts := rfl
@[simp] theorem updTally_fns (g : Tally → Tally) (d : Dev) : (updTally g d).fns = d.fns := rfl
@[simp] theorem updTally_flt (g : Tally → Tally) (d : Dev) : (updTally g d).flt = d.flt := rfl
@[simp] theorem updTally_xl (g : Tally → Tally) (d : Dev) : (updTally g d).xl = d.xl := rfl
@[simp] theorem updTally_ept (g : Tally → Tally) (d : Dev) : (updTally g d).ept = d.ept := rfl
@[simp] theorem updTally_xp (g : Tally → Tally) (d : Dev) : (updTally g d).xp = d.xp := rfl
@[simp] theorem updTally_clasp (g : Tally → Tally) (d : Dev) : (updTally g d).clasp = d.clasp := rfl
@[simp] theorem updTally_mt (g : Tally → Tally) (d : Dev) : (updTally g d).mt = d.mt := rfl
@[simp] theorem updTally_coll (g : Tally → Tally) (d : Dev) : (updTally g d).coll = d.coll := rfl
@[simp] theorem updTally_rtr (g : Tally → Tally) (d : Dev) : (updTally g d).rtr = d.rtr := rfl
@[simp] theorem updTally_ports (g : Tally → Tally) (d : Dev) : (updTally g d).ports = d.ports := rfl
@[simp] theorem updTally_time (g : Tally → Tally) (d : Dev) : (updTally g d).time = d.time := rfl
@[simp] theorem updTally_isb (g : Tally → Tally) (d : Dev) : (updTally g d).isb = d.isb := rfl
@[simp] theorem updTally_nv (g : Tally → Tally) (d : Dev) : (updTally g d).nv = d.nv := rfl
@[simp] theorem updTally_dma (g : Tally → Tally) (d : Dev) : (updTally g d).dma = d.dma := rfl
@[simp] theorem updTally_adm (g : Tally → Tally) (d : Dev) : (updTally g d).adm = d.adm := rfl
@[simp] theorem updTally_mnt (g : Tally → Tally) (d : Dev) : (updTally g d).mnt = d.mnt := rfl
@[simp] theorem updTally_mgf (g : Tally → Tally) (d : Dev) : (updTally g d).mgf = d.mgf := rfl
@[simp] theorem updTally_ember (g : Tally → Tally) (d : Dev) : (updTally g d).ember = d.ember := rfl
@[simp] theorem updTally_pwr (g : Tally → Tally) (d : Dev) : (updTally g d).pwr = d.pwr := rfl
@[simp] theorem updTally_boot (g : Tally → Tally) (d : Dev) : (updTally g d).boot = d.boot := rfl
@[simp] theorem updTally_tally (g : Tally → Tally) (d : Dev) : (updTally g d).tally = g d.tally := rfl

@[simp] theorem updCh_clk (c : Nat) (g : DmaCh → DmaCh) (d : Dev) : (updCh c g d).clk = d.clk := rfl
@[simp] theorem updCh_free (c : Nat) (g : DmaCh → DmaCh) (d : Dev) : (updCh c g d).free = d.free := rfl
@[simp] theorem updCh_out (c : Nat) (g : DmaCh → DmaCh) (d : Dev) : (updCh c g d).out = d.out := rfl
@[simp] theorem updCh_work (c : Nat) (g : DmaCh → DmaCh) (d : Dev) : (updCh c g d).work = d.work := rfl
@[simp] theorem updCh_regs (c : Nat) (g : DmaCh → DmaCh) (d : Dev) : (updCh c g d).regs = d.regs := rfl
@[simp] theorem updCh_wraps (c : Nat) (g : DmaCh → DmaCh) (d : Dev) : (updCh c g d).wraps = d.wraps := rfl
@[simp] theorem updCh_chains (c : Nat) (g : DmaCh → DmaCh) (d : Dev) : (updCh c g d).chains = d.chains := rfl
@[simp] theorem updCh_np (c : Nat) (g : DmaCh → DmaCh) (d : Dev) : (updCh c g d).np = d.np := rfl
@[simp] theorem updCh_nextReq (c : Nat) (g : DmaCh → DmaCh) (d : Dev) : (updCh c g d).nextReq = d.nextReq := rfl
@[simp] theorem updCh_reads (c : Nat) (g : DmaCh → DmaCh) (d : Dev) : (updCh c g d).reads = d.reads := rfl
@[simp] theorem updCh_nextRead (c : Nat) (g : DmaCh → DmaCh) (d : Dev) : (updCh c g d).nextRead = d.nextRead := rfl
@[simp] theorem updCh_hosts (c : Nat) (g : DmaCh → DmaCh) (d : Dev) : (updCh c g d).hosts = d.hosts := rfl
@[simp] theorem updCh_fns (c : Nat) (g : DmaCh → DmaCh) (d : Dev) : (updCh c g d).fns = d.fns := rfl
@[simp] theorem updCh_flt (c : Nat) (g : DmaCh → DmaCh) (d : Dev) : (updCh c g d).flt = d.flt := rfl
@[simp] theorem updCh_xl (c : Nat) (g : DmaCh → DmaCh) (d : Dev) : (updCh c g d).xl = d.xl := rfl
@[simp] theorem updCh_ept (c : Nat) (g : DmaCh → DmaCh) (d : Dev) : (updCh c g d).ept = d.ept := rfl
@[simp] theorem updCh_xp (c : Nat) (g : DmaCh → DmaCh) (d : Dev) : (updCh c g d).xp = d.xp := rfl
@[simp] theorem updCh_clasp (c : Nat) (g : DmaCh → DmaCh) (d : Dev) : (updCh c g d).clasp = d.clasp := rfl
@[simp] theorem updCh_mt (c : Nat) (g : DmaCh → DmaCh) (d : Dev) : (updCh c g d).mt = d.mt := rfl
@[simp] theorem updCh_coll (c : Nat) (g : DmaCh → DmaCh) (d : Dev) : (updCh c g d).coll = d.coll := rfl
@[simp] theorem updCh_rtr (c : Nat) (g : DmaCh → DmaCh) (d : Dev) : (updCh c g d).rtr = d.rtr := rfl
@[simp] theorem updCh_ports (c : Nat) (g : DmaCh → DmaCh) (d : Dev) : (updCh c g d).ports = d.ports := rfl
@[simp] theorem updCh_time (c : Nat) (g : DmaCh → DmaCh) (d : Dev) : (updCh c g d).time = d.time := rfl
@[simp] theorem updCh_isb (c : Nat) (g : DmaCh → DmaCh) (d : Dev) : (updCh c g d).isb = d.isb := rfl
@[simp] theorem updCh_nv (c : Nat) (g : DmaCh → DmaCh) (d : Dev) : (updCh c g d).nv = d.nv := rfl
@[simp] theorem updCh_adm (c : Nat) (g : DmaCh → DmaCh) (d : Dev) : (updCh c g d).adm = d.adm := rfl
@[simp] theorem updCh_mnt (c : Nat) (g : DmaCh → DmaCh) (d : Dev) : (updCh c g d).mnt = d.mnt := rfl
@[simp] theorem updCh_mgf (c : Nat) (g : DmaCh → DmaCh) (d : Dev) : (updCh c g d).mgf = d.mgf := rfl
@[simp] theorem updCh_ember (c : Nat) (g : DmaCh → DmaCh) (d : Dev) : (updCh c g d).ember = d.ember := rfl
@[simp] theorem updCh_pwr (c : Nat) (g : DmaCh → DmaCh) (d : Dev) : (updCh c g d).pwr = d.pwr := rfl
@[simp] theorem updCh_boot (c : Nat) (g : DmaCh → DmaCh) (d : Dev) : (updCh c g d).boot = d.boot := rfl
@[simp] theorem updCh_tally (c : Nat) (g : DmaCh → DmaCh) (d : Dev) : (updCh c g d).tally = d.tally := rfl

end Sys2Proof.Machine
end

