-- ==== Sys2Proof/Laws/Settle.lean ====
section
/-! SUPPORT. The end of a command: what a device at rest does there, and one piece of work. -/

namespace Sys2Proof.Machine

/-- Without work in hand there is nothing to drain. -/
theorem drain_nil (n : Nat) (d : Dev) (h : d.work = []) : drain n d = d := by
  cases n <;> simp [drain, h]

/-- One piece of work is done, then the rest. -/
theorem drain_cons (n : Nat) (d : Dev) (w : Work) (ws : List Work) (h : d.work = w :: ws) :
    drain (n + 1) d = drain n (workGo w { d with work := ws }) := by
  simp [drain, h]

/-- Folding what changes nothing. -/
theorem foldl_id {α β : Type} (l : List α) (f : β → α → β) (b : β) (h : ∀ a ∈ l, f b a = b) : l.foldl f b = b := by
  induction l with
  | nil => rfl
  | cons a l ih =>
    rw [List.foldl_cons, h a (by simp)]
    exact ih (fun x hx => h x (by simp [hx]))

/-- What a lookup finds is in the list. -/
theorem mget_mem {α : Type} {m : List (Nat × α)} {k : Nat} {a : α} (h : mget m k = some a) : (k, a) ∈ m := by
  induction m with
  | nil => simp [mget] at h
  | cons p m ih =>
    unfold mget at h
    split at h
    · obtain ⟨x, y⟩ := p
      simp_all
    · exact List.mem_cons_of_mem _ (ih h)

/-- At rest, said field by field. -/
structure AtRest (d : Dev) : Prop where
  work : d.work = []
  eps : ∀ p ∈ d.ept.eps, epLags d p.1 = false
  ops : ∀ p ∈ d.xp.ops, opLags p.2 = false
  jobs : d.adm.running = []
  chs : ∀ p ∈ d.dma.chs, dmaLags p.2 = false
  ports : ∀ p ∈ d.ports, portLags p.2 = false
  waiting : d.mnt.waiting = []
  peat : cellsWf d.nv.peat = true
  flash : cellsWf d.nv.flash = true
  data : cellsWf d.mnt.data = true

theorem atRest_iff (d : Dev) : atRest d = true ↔ AtRest d := by
  unfold atRest
  simp only [Bool.and_eq_true, List.all_eq_true, Bool.not_eq_true', List.isEmpty_iff]
  constructor
  · rintro ⟨⟨⟨⟨⟨⟨⟨⟨⟨h1, h2⟩, h3⟩, h4⟩, h5⟩, h6⟩, h7⟩, h8⟩, h9⟩, h10⟩
    exact ⟨h1, h2, h3, h4, h5, h6, h7, h8, h9, h10⟩
  · rintro ⟨h1, h2, h3, h4, h5, h6, h7, h8, h9, h10⟩
    exact ⟨⟨⟨⟨⟨⟨⟨⟨⟨h1, h2⟩, h3⟩, h4⟩, h5⟩, h6⟩, h7⟩, h8⟩, h9⟩, h10⟩

/-- An endpoint that does not lag stays as it is. -/
theorem epSync_rest (d : Dev) (e : Nat) (h : epLags d e = false) : epSync e d = d := by
  unfold epLags at h
  unfold epSync
  cases hx : ep? d e with
  | none => rfl
  | some x =>
    simp only [hx] at h ⊢
    cases hs : x.state <;> simp_all

/-- A channel that does not lag stays as it is. -/
theorem dmaGo_rest (c : Nat) (d : Dev) (h : ∀ p ∈ d.dma.chs, dmaLags p.2 = false) : dmaGo c d = d := by
  have key : ∀ x, dmaCh? d c = some x → dmaLags x = false := fun x hx => h (c, x) (mget_mem hx)
  have hm : dmaMalformedGo 4 c d = d := by
    unfold dmaMalformedGo
    cases hc : dmaCh? d c with
    | none => rfl
    | some x =>
      have hk := key x hc
      simp only [dmaLags, Bool.or_eq_false_iff, List.any_eq_false, Bool.not_eq_true] at hk
      simp only
      cases hf : x.jobs.find? (fun j => !j.begun) with
      | none => rfl
      | some j =>
        have h1 := hk.1 j (List.mem_of_find?_eq_some hf)
        have h2 := List.find?_some hf
        simp_all
  unfold dmaGo
  rw [hm]
  unfold dmaAdvance
  cases hc : dmaCh? d c with
  | none => rfl
  | some x =>
    have hk := key x hc
    simp only [dmaLags, Bool.or_eq_false_iff, List.any_eq_false, Bool.not_eq_true] at hk
    have he : ∀ j ∈ x.jobs, j.ended = false := fun j hj => (hk.1 j hj).1
    simp only
    rw [foldl_id _ _ _ (fun j hj => by simp [he j hj])]
    simp only [hc]
    cases hj : x.jobs with
    | nil =>
      have : x.stop = none := by simpa [hj] using hk.2
      simp [dmaStopped, hc, this]
    | cons j l => simp [he j (by simp [hj])]

/-- A port that does not lag stays as it is. -/
theorem quiesceGo_rest (n : Nat) (d : Dev) (h : ∀ p ∈ d.ports, portLags p.2 = false) : quiesceGo n d = d := by
  have hn : portLags (port d n) = false := by
    unfold port
    cases hp : mget d.ports n with
    | none => simp [portLags, portReset]
    | some p => exact h (n, p) (mget_mem hp)
  unfold quiesceGo
  simp only [portLags] at hn
  cases hg : (port d n).lane.nego with
  | none => simp [hg]
  | some g =>
    simp only [hg]
    rw [if_pos]
    simp only [hg, Option.isSome_some, Bool.true_and, Bool.and_eq_false_iff, beq_eq_false_iff_ne, ne_eq] at hn
    cases ht : (port d n).link.txOpen <;> simp_all

/-- No operation of a device at rest is started at the end of a command. -/
theorem opsGo_rest (d : Dev) (h : ∀ p ∈ d.xp.ops, opLags p.2 = false) : opsGo d = d := by
  have : waitingOps d = [] := by
    unfold waitingOps
    rw [List.filter_eq_nil_iff]
    intro p hp hc
    have := h p hp
    simp only [opLags, Bool.or_eq_false_iff] at this
    rw [this.1] at hc
    exact absurd hc (by decide)
  simp [opsGo, this]

/-- No part of a device at rest waits to be sent. -/
theorem kickParts_rest (d : Dev) (h : ∀ p ∈ d.xp.ops, opLags p.2 = false) : kickParts d = d := by
  have : d.xp.ops.filter (fun p => p.2.parts.any (fun q => !q.sent && !q.held)) = [] := by
    rw [List.filter_eq_nil_iff]
    intro p hp hc
    have := h p hp
    simp only [opLags, Bool.or_eq_false_iff] at this
    rw [this.2] at hc
    exact absurd hc (by decide)
  simp [kickParts, this]

/-- What may go on at the end of a command is nothing where the device is at rest. -/
theorem followUp_rest (d : Dev) (h : AtRest d) : followUp d = d := by
  unfold followUp
  have h1 : (d.ept.eps.map (·.1)).foldl (fun d e => epSync e d) d = d := by
    refine foldl_id _ _ _ ?_
    intro e he
    obtain ⟨p, hp, rfl⟩ := List.mem_map.1 he
    exact epSync_rest d p.1 (h.eps p hp)
  have h2 : epResetGo d = d := by simp [epResetGo, h.jobs]
  have h3 : (d.dma.chs.map (·.1)).foldl (fun d c => dmaGo c d) d = d :=
    foldl_id _ _ _ (fun c _ => dmaGo_rest c d h.chs)
  have h4 : (d.ports.map (·.1)).foldl (fun d n => quiesceGo n d) d = d :=
    foldl_id _ _ _ (fun n _ => quiesceGo_rest n d h.ports)
  have h5 : maintGo d = d := by
    unfold maintGo
    split
    · rfl
    · rw [h.waiting]
      have : updMnt (fun x => { x with waiting := [] }) d = d := by rw [← h.waiting]; rfl
      rw [this]
      rfl
  simp only [h1, opsGo_rest d h.ops, kickParts_rest d h.ops, h2, h3, h4, h5]

/-- A device at rest is not changed at the end of a command. -/
theorem settleAll_rest (n : Nat) (d : Dev) (h : AtRest d) : settleAll n d = d := by
  cases n with
  | zero => simp [settleAll, drain_nil, h.work]
  | succ n => simp [settleAll, drain_nil, h.work, followUp_rest d h]

/-- A command that leaves the device at rest has that device as its result. -/
theorem commit_rest (s : State) (d : Dev) (h : AtRest d) : s.commit d = { s with dev := d } := by
  unfold State.commit
  rw [settleAll_rest 64 d h]
  simp [h.peat, h.flash, h.data]

/-- The stores are in their one form after every command. -/
theorem commit_stores (s : State) (d : Dev) : StoresWf (s.commit d).dev := by
  simp [State.commit, StoresWf]

/-- The queue of waiting commands is no command's concern. -/
@[simp] theorem commit_pending (s : State) (d : Dev) : (s.commit d).pending = s.pending := by
  simp [State.commit]

end Sys2Proof.Machine
end

