-- ==== Sys2Proof/Laws/Admin.lean ====
section
/-! SUPPORT. An admin command that comes by the mailbox: from the row to its reply. -/

namespace Sys2Proof.Machine

/-- A device with the commands in progress replaced. -/
def withJobs (js : List AdminJob) (d : Dev) : Dev := { d with adm := { d.adm with running := js } }

/-- The reply of a command that came by the mailbox and answers no remote command (R430, R439, R440). -/
theorem replyOut_mailbox (c : AdminCtx) (op st why : Nat) (data : Bytes) (d : Dev)
    (hp : c.path = .mailbox) (hr : d.mnt.remote = none) (hj : d.adm.running = []) :
    let old := (aget d.adm.stats Path.mailbox).getD (0, 0)
    let stats := aset d.adm.stats Path.mailbox (old.1 + 1, old.2 + b2n (st != 0))
    replyOut c op st why data d = { d with
      adm := { d.adm with stats := stats }
      mnt := { d.mnt with
        data := if 16 < data.length then cellsWrite d.mnt.data c.replyData data else d.mnt.data
        rsp := replyBytes c op st why (if 16 < data.length then [] else data) true, busy := false, done := true } } := by
  by_cases hb : 16 < data.length <;> simp [replyOut, hp, jobGone, hj, countReply, mailboxReply, hr, hb]

/-- A reply by the mailbox leaves the device at rest. -/
theorem replyOut_rest (c : AdminCtx) (op st why : Nat) (data : Bytes) (d : Dev)
    (hp : c.path = .mailbox) (hr : d.mnt.remote = none) (h : AtRest d) : AtRest (replyOut c op st why data d) := by
  rw [replyOut_mailbox c op st why data d hp hr h.jobs]
  refine ⟨h.work, h.eps, h.ops, h.jobs, h.chs, h.ports, h.waiting, h.peat, h.flash, ?_⟩
  show cellsWf (if 16 < data.length then _ else _) = true
  split
  · exact cellsWrite_wf _ _ _ h.data
  · exact h.data

/-- A reply that waits is given, and the command is no longer in progress. -/
theorem reply_commit (s : State) (d : Dev) (c : AdminCtx) (op st why : Nat) (data : Bytes) (j : AdminJob)
    (hc : j.ctx = c) (ho : j.op = op) (hw : d.work = [.reply c op st why data]) (hj : d.adm.running = [j])
    (hp : c.path = .mailbox) (hr : d.mnt.remote = none)
    (h : AtRest (withJobs [] { d with work := [] })) :
    s.commit d = { s with dev := replyOut c op st why data (withJobs [] { d with work := [] }) } := by
  have hout : replyOut c op st why data { d with work := [] } = replyOut c op st why data (withJobs [] { d with work := [] }) := by
    have : jobGone c op { d with work := [] } = jobGone c op (withJobs [] { d with work := [] }) := by
      simp [jobGone, hj, hc, ho, withJobs]
    unfold replyOut
    rw [this]
  have hrest := replyOut_rest c op st why data _ hp (by exact hr) h
  rw [← hout] at hrest ⊢
  have hd : settleAll 64 d = replyOut c op st why data { d with work := [] } := by
    show settleAll (63 + 1) d = _
    unfold settleAll
    have : drain 65536 d = replyOut c op st why data { d with work := [] } := by
      rw [show (65536 : Nat) = 65535 + 1 from rfl, drain_cons 65535 d _ _ hw]
      exact drain_nil _ _ hrest.work
    rw [this, followUp_rest _ hrest, if_pos hrest.work]
  unfold State.commit
  rw [hd]
  simp [hrest.peat, hrest.flash, hrest.data]

/-- The operands of a well-formed admin command are what its fields hold (R428, R429). -/
theorem adminPart_fits (p : AdminPart) (h : p.wellFormed = true) :
    ctxOf p.ctx = p.ctx ∧ ((sizesOf p.op).zip p.params).map (fun x => x.2 % 256 ^ x.1.1) = p.params := by
  simp only [AdminPart.wellFormed, Bool.and_eq_true, decide_eq_true_eq, beq_iff_eq] at h
  obtain ⟨⟨⟨⟨h1, h2⟩, h3⟩, h4⟩, h5⟩ := h
  refine ⟨?_, ?_⟩
  · unfold ctxOf
    rw [Nat.mod_eq_of_lt h1, Nat.mod_eq_of_lt h2, Nat.mod_eq_of_lt h3]
  · clear h1 h2 h3
    generalize sizesOf p.op = l at *
    generalize p.params = q at *
    induction l generalizing q with
    | nil => cases q <;> simp_all
    | cons a l ih =>
      cases q with
      | nil => simp at h4
      | cons b q =>
        simp only [List.zip_cons_cons, List.all_cons, Bool.and_eq_true, decide_eq_true_eq, List.length_cons,
          Nat.add_right_cancel_iff, List.map_cons] at *
        rw [Nat.mod_eq_of_lt h5.1, ih q h5.2 h4]

/-- What an admin command by the mailbox may rely on, said field by field. -/
structure Mailbox (i : Instr) (c : AdminCtx) (n : Nat) (d : Dev) : Prop where
  fits : i.wellFormed = true
  path : c.path = .mailbox
  alive : d.flt.fatal = none
  mode : curMode d ≠ 3
  loss : ∀ f, lostFn d f = false
  own : d.mnt.remote = none
  room : n = 0 ∨ (c.replyData ≠ 0 ∧ c.replyData % 8 = 0 ∧ c.replyData + n ≤ 0x10000)

theorem byMailbox_mailbox {i : Instr} {c : AdminCtx} {n : Nat} {d : Dev} (h : byMailbox i c n d = true) : Mailbox i c n d := by
  unfold byMailbox at h
  simp only [Bool.and_eq_true, decide_eq_true_eq, Option.isNone_iff_eq_none, bne_iff_ne, ne_eq, List.all_eq_true,
    Bool.or_eq_true, beq_iff_eq] at h
  obtain ⟨⟨⟨⟨⟨⟨h1, h2⟩, h3⟩, h4⟩, h5⟩, h6⟩, h7⟩ := h
  refine ⟨h1, h2, h3, h4, ?_, h6, ?_⟩
  · intro f
    unfold lostFn host
    cases hm : mget d.hosts f.hp with
    | none => rfl
    | some x =>
      have := h5 _ (mget_mem hm)
      simp only at this
      simp [this]
  · rcases h7 with h7 | ⟨⟨h7, h8⟩, h9⟩
    · exact .inl h7
    · exact .inr ⟨h7, h8, h9⟩

/-- The operands of an admin command by the mailbox fit. -/
theorem mailbox_part {i : Instr} {c : AdminCtx} {n : Nat} {d : Dev} (h : Mailbox i c n d) {p : AdminPart}
    (hp : i.adminPart = some p) : p.wellFormed = true := by
  have := h.fits
  unfold Instr.wellFormed at this
  simp only [Bool.and_eq_true] at this
  simpa [hp] using this.1.1.1.1.1.1

/-- A row of the admin table that comes by the mailbox: if its run answers a reply and leaves a device at rest, that
reply is given (R432). -/
theorem mailbox_row (i : Instr) (c : AdminCtx) (ps : List Nat) (m : AdmCmd) (s : State) (d : Dev) (st why : Nat) (data : Bytes)
    (hr : AtRest s.dev) (h : Mailbox i c m.recLen s.dev) (hx : exec i s = .next (s.commit (adminRow adminCmds m c ps s.dev)))
    (hf : fieldsOf m ps = ps) (hc : ctxOf c = c) (hrsv : m.rsv ps = false) (hmode : m.mode (withJobs [⟨c, m.op, ps⟩] s.dev) = none)
    (hrun : m.run ⟨c, m.op, ps⟩ (withJobs [⟨c, m.op, ps⟩] s.dev) = (.reply st why data, withJobs [⟨c, m.op, ps⟩] d))
    (hremote : d.mnt.remote = none) (hd : AtRest d) :
    exec i s = .next { s with dev := replyOut c m.op st why data d } := by
  rw [hx]
  have hw := hr
  have hstart : adminRow adminCmds m c ps s.dev = push (.reply c m.op st why data) (withJobs [⟨c, m.op, ps⟩] d) := by
    have hlost : namesLost m ⟨c, m.op, ps⟩ (withJobs [⟨c, m.op, ps⟩] s.dev) = false := by
      have hl : ∀ f, lostFn (withJobs [⟨c, m.op, ps⟩] s.dev) f = false := h.loss
      unfold namesLost
      rw [List.any_eq_false]
      intro g _
      cases g <;> simp [hl]
    have hrec : recordBad m c (withJobs [⟨c, m.op, ps⟩] s.dev) = false := by
      unfold recordBad
      rcases h.room with h0 | ⟨h1, h2, h3⟩
      · simp [h0]
      · simp [h.path, h1, h2, h3]
    have hmr : modeRefusal m (withJobs [⟨c, m.op, ps⟩] s.dev) = none := by
      have h1 : (withJobs [⟨c, m.op, ps⟩] s.dev).flt.fatal = none := h.alive
      have h2 : curMode (withJobs [⟨c, m.op, ps⟩] s.dev) ≠ 3 := h.mode
      simp [modeRefusal, h1, h2, hmode]
    have hperm : permitted m ⟨c, m.op, ps⟩ (withJobs [⟨c, m.op, ps⟩] s.dev) = true := by simp [permitted, h.path]
    have hbegin : adminBegin m ⟨c, m.op, ps⟩ s.dev = push (.reply c m.op st why data) (withJobs [⟨c, m.op, ps⟩] d) := by
      unfold adminBegin
      have : ({ s.dev with adm := { s.dev.adm with running := s.dev.adm.running ++ [⟨c, m.op, ps⟩] } } : Dev)
          = withJobs [⟨c, m.op, ps⟩] s.dev := by rw [hw.jobs]; rfl
      simp only [this, hrsv, hperm, hmr, hrec, hlost, hrun]
      simp
    unfold adminRow
    simp only [hf, hc, h.path, pathExists, tooMany, clashes, hw.jobs, hbegin]
    simp
  rw [hstart]
  have hwork : (withJobs [⟨c, m.op, ps⟩] d).work = [] := hd.work
  have hjobs : withJobs [] ({ push (.reply c m.op st why data) (withJobs [⟨c, m.op, ps⟩] d) with work := [] } : Dev) = d := by
    have h1 := hd.work
    have h2 := hd.jobs
    unfold withJobs push
    show ({ d with work := [], adm := { d.adm with running := [] } } : Dev) = d
    rw [← h1]
    show ({ d with adm := { d.adm with running := [] } } : Dev) = d
    rw [← h2]
  rw [reply_commit s _ c m.op st why data ⟨c, m.op, ps⟩ rfl rfl (by simp [hwork]) rfl h.path
    (by exact hremote) (by rw [hjobs]; exact hd), hjobs]

/-- A row of the admin table by the mailbox, from what its run answers. -/
theorem mailbox_gives {i : Instr} {c : AdminCtx} {s : State} (m : AdmCmd) (ps : List Nat) (hr : AtRest s.dev) (h : Mailbox i c m.recLen s.dev)
    (hp : i.adminPart = some ⟨m.op, c, ps⟩) (hx : exec i s = .next (s.commit (adminRow adminCmds m c ps s.dev)))
    (d : Dev) (st why : Nat) (data : Bytes)
    (hrsv : m.rsv ps = false) (hmode : m.mode (withJobs [⟨c, m.op, ps⟩] s.dev) = none)
    (hrun : m.run ⟨c, m.op, ps⟩ (withJobs [⟨c, m.op, ps⟩] s.dev) = (.reply st why data, withJobs [⟨c, m.op, ps⟩] d))
    (hremote : d.mnt.remote = none) (hd : AtRest d) :
    exec i s = .next { s with dev := replyOut c m.op st why data d } :=
  have hw := adminPart_fits _ (mailbox_part h hp)
  mailbox_row i c ps m s d st why data hr h hx hw.2 hw.1 hrsv hmode hrun hremote hd

end Sys2Proof.Machine
end

