-- ==== Sys2Proof/Laws/Maps.lean ====
section
/-! SUPPORT. Sparse maps: what a lookup finds after a change. -/

namespace Sys2Proof.Machine

@[simp] theorem mget_mset_same {α : Type} (m : List (Nat × α)) (k : Nat) (a : α) : mget (mset m k a) k = some a := by
  induction m with
  | nil => simp [mset, mget]
  | cons p m ih =>
    obtain ⟨j, b⟩ := p
    unfold mset
    split
    · simp [mget]
    · split
      · simp [mget]
      · next h1 h2 => simp [mget, ih, Ne.symm h2]

theorem mget_mset_other {α : Type} (m : List (Nat × α)) (k l : Nat) (a : α) (h : k ≠ l) :
    mget (mset m k a) l = mget m l := by
  induction m with
  | nil => simp [mset, mget, h]
  | cons p m ih =>
    obtain ⟨j, b⟩ := p
    unfold mset
    split
    · simp [mget, h]
    · split
      · next h1 h2 => subst h2; simp [mget, h]
      · simp [mget, ih]

@[simp] theorem mget_mupd_same {α : Type} (m : List (Nat × α)) (k : Nat) (f : α → α) :
    mget (mupd m k f) k = (mget m k).map f := by
  induction m with
  | nil => rfl
  | cons p m ih =>
    obtain ⟨j, b⟩ := p
    by_cases h : j = k <;> simp_all [mupd, mget]

theorem mget_mupd_other {α : Type} (m : List (Nat × α)) (k l : Nat) (f : α → α) (h : k ≠ l) :
    mget (mupd m k f) l = mget m l := by
  induction m with
  | nil => rfl
  | cons p m ih =>
    obtain ⟨j, b⟩ := p
    by_cases h1 : j = k
    · subst h1; simp_all [mupd, mget]
    · by_cases h2 : j = l <;> simp_all [mupd, mget]

@[simp] theorem mget_mdel_same {α : Type} (m : List (Nat × α)) (k : Nat) : mget (mdel m k) k = none := by
  induction m with
  | nil => rfl
  | cons p m ih =>
    obtain ⟨j, b⟩ := p
    by_cases h : j = k <;> simp_all [mdel, mget]

theorem mget_mdel_other {α : Type} (m : List (Nat × α)) (k l : Nat) (h : k ≠ l) : mget (mdel m k) l = mget m l := by
  induction m with
  | nil => rfl
  | cons p m ih =>
    obtain ⟨j, b⟩ := p
    by_cases h1 : j = k
    · subst h1; simp_all [mdel, mget]
    · by_cases h2 : j = l <;> simp_all [mdel, mget]

/-- The keys of a map in which one value is changed are the same. -/
theorem mupd_keys {α : Type} (m : List (Nat × α)) (k : Nat) (f : α → α) : (mupd m k f).map (·.1) = m.map (·.1) := by
  unfold mupd
  rw [List.map_map]
  apply List.map_congr_left
  intro p _
  simp only [Function.comp]
  split <;> rfl

end Sys2Proof.Machine
end

