-- ==== Sys2Proof/Tests/Slice0.lean ====
section
/-! SUPPORT. States that meet what the statements ask, ill-formed commands that are refused, and worked examples of the
spec. -/

namespace Sys2Proof.Tests

set_option maxRecDepth 1000000
set_option Elab.async false

open Machine Claims

/-! ### States that the statements ask for -/

/-- Does a device meet what a claim asks. -/
noncomputable def meets (k : Completion) (d : Dev) : Bool := atRest d && k.pre d

/-- The same. -/
noncomputable def meetsE (k : Effect) (d : Dev) : Bool := atRest d && k.pre d

/-- A command by the mailbox with a place for its result. -/
def C : AdminCtx := { path := .mailbox, seq := 7, index := 0, intr := false, replyData := 8 }

/-- The PF of HOST[0]. -/
def F : Func := ⟨0, 0⟩

/-- An endpoint in RESET. -/
def epA : Ep := { typ := 0, send := { base := 0x1000, n := 4 }, recv := some { base := 0x2000, n := 4 }, sCq := 0, rCq := 0, eq := 0, pin := true, poll := false }

/-- A device with a block, an endpoint, a CQ, an EQ and a job slot. -/
def w0 : Dev := { Dev.reset with
  ept := { blocks := [(0, { f := F, job := 7, backing := 0x100000 })], eps := [(1, epA)]
           cqs := [(0, { f := F, base := 0x10000, n := 6, head := 0x20000, eq := some 0, armed := false, whole := false })] }
  fns := [(0, { bme := true, msixEn := true, eqs := [(0, { base := 0x30000, n := 6, head := 0x40000, vector := 3, modCount := 1, modTime := 0 })] })]
  xl := { slots := [(5, { job := 7, f := F, root := 0x50000, mrBase := 0x60000, m := 4 })] } }

namespace Endpoint

def w1 (s : EpState) : Dev := updEp 1 (fun x => { x with state := s}) w0
def wop : Dev := updXp (fun x => { x with ops := [(0, { owner := .ring 0, ep := 1, code := 1, desc := [], dst := 0, dstEp := 0, ord := 0, len := 0, state := .running })] }) (updEp 1 (fun x => { x with state := .active, accepted := [0] }) w0)

theorem meets_EndpointCommands :
    meets (Claims.epBlockAssign C 16383 0 31 65535 (2^52-16384)) w0 = true
      ∧ meets (Claims.epBlockRelease C 0) { w0 with ept := { w0.ept with eps := [] } } = true
      ∧ meets (Claims.epCreate C 63 1 0x1000 4 (2^64-1) 255 0 0 0 1 0) w0 = true
      ∧ meets (Claims.epEnable C 1) w0 = true
      ∧ meets (Claims.epDisable C 1) wop = true
      ∧ meets (Claims.epReset C 1) (w1 .error) = true
      ∧ meets (Claims.epDestroy C 1) w0 = true
      ∧ meetsE (Claims.epQuery C 1) w0 = true
      ∧ meets (Claims.cqCreate C 65535 0 (2^52-4096) 20 (2^52-4) 65535 1 1) w0 = true
      ∧ meets (Claims.cqReset C 0) w0 = true
      ∧ meets (Claims.cqDestroy C 0) { w0 with ept := { w0.ept with eps := [] } } = true
      ∧ meets (Claims.eqCreate C 0 255 4096 16 4 1023 255 1023) w0 = true
      ∧ meets (Claims.eqModerate C 0 0 255 1023) w0 = true
      ∧ meets (Claims.eqDestroy C 0 0) { w0 with ept := {} } = true := by decide +kernel

theorem meets_TranslationAndDmaCommands :
    meetsE (Claims.jobSlotCreate C 8 0 0 4096 4096 24) w0 = true
      ∧ meets (Claims.jobSlotDestroy C 5) { w0 with ept := {} } = true
      ∧ meets (Claims.rootSet C 5 4096) w0 = true
      ∧ meets (Claims.segSet C 5 7 (2^48-4096) 4096 0 15 0) w0 = true
      ∧ meets (Claims.xlatInvalidate C 5 0 (2^36) 1) w0 = true
      ∧ meets (Claims.xlatInvalidateSlot C 5) w0 = true
      ∧ meets (Claims.mrInvalidate C 5 15) w0 = true := by decide +kernel

end Endpoint

namespace Shared

def hq : Hdr := { kind := 7, op := 1, srcDa := 9, srcEp := 3, dstEp := 1 }
def wl (q : List Machine.Claim) : Dev := { w0 with clasp := { domains := [(4, { slot := 5, ranked := true, members := 2 })], recs := [(6, { hp := 0, addr := 0x7000, f := F, domain := 4, state := .held, holder := some ⟨9, 3, 1, hq⟩, seq := 4, reading := false, queue := q })] } }
def wq := wl [⟨9, 3, 1, hq⟩]
def wm : Dev := { w0 with mt := { ctxs := [(1, { recBase := 0x100000, uBase := 0x200000, b := 17, spBase := 0x300000, s := 10 })] } }
def gA : Group := { key := 1, slot := 5, f := F, n := 2, scratch := 0x500000, size := 4096, table := [(0, 1), (9, 2)] }
def wg (is : List (Nat × Inst)) : Dev := { w0 with coll := { groups := [(7, gA)], insts := is, ricks := [(2, { slots := 0, flags := 0, minM := 1, maxM := 2, build := 0, crc := 0, steps := [9] })], ranges := [(0, ⟨4, 5, F, none⟩)], armed := [(1, 5)] } }
def wa : Dev := { updEp 1 (fun x => { x with typ := 1, state := .active, accepted := [0] }) (wg [(0, { group := 7, ep := 1, rank := 0, op := 0, num := 3, rick := 2, state := .running, pc := 0 })]) with xp := { ops := [(0, { owner := .ring 0, ep := 1, code := 0x28, desc := zeros 64, dst := 0, dstEp := 0, ord := 0, len := 0, state := .running })] } }

theorem meets_ClaspAndMatchingCommands :
    meets (Claims.claspDomainCreate C 4095 5 1 256) w0 = true
      ∧ meets (Claims.claspDomainDestroy C 4) { w0 with clasp := { domains := [(4, { slot := 5, ranked := true, members := 2 })]} } = true
      ∧ meetsE (Claims.claspQuery C 6 0 0) (wl []) = true
      ∧ meets (Claims.claspForceRelease C 6) (wl []) = true
      ∧ meetsE (Claims.claspWaiterRemove C 6 9 3) wq = true
      ∧ meets (Claims.matchCtxCreate C 1 0x100000 0x200000 17 0x300000 10) w0 = true
      ∧ meets (Claims.matchCtxDestroy C 1) wm = true
      ∧ meetsE (Claims.matchQuery C 1) wm = true
      ∧ meetsE (Claims.matchProbe C 1 0 0 0 64 1) wm = true := by decide +kernel

theorem meets_CollectiveCommands :
    meetsE (Claims.collGroupCreate C 4095 1 5 2 0x400000 0x500000 4096) w0 = true
      ∧ meets (Claims.collGroupDestroy C 7) (wg []) = true
      ∧ meetsE (Claims.collGroupQuery C 7) (wg []) = true
      ∧ meets (Claims.collRickUnload C 2) (wg []) = true
      ∧ meetsE (Claims.collRickQuery C 2) (wg []) = true
      ∧ meetsE (Claims.collCounterAlloc C 5 65536) (wg []) = true
      ∧ meets (Claims.collCounterFree C 0 4) { wg [] with coll := { (wg []).coll with armed := [] } } = true
      ∧ meets (Claims.collCounterRead C 3) (wg []) = true
      ∧ meets (Claims.collCounterWrite C 3 (2^64-1)) (wg []) = true
      ∧ meets (Claims.collCounterBind C 1 1 3) (wg []) = true
      ∧ meets (Claims.collCounterUnbind C 1 1) (wg []) = true
      ∧ meets (Claims.collCounterArm C 3 7) (wg []) = true
      ∧ meets (Claims.collCounterDisarm C 1) (wg []) = true
      ∧ meetsE (Claims.collArmFire C 9 3 7 4 5 6) (wg []) = true
      ∧ meetsE (Claims.collAbort C 7 1) wa = true := by decide +kernel

end Shared

namespace Fabric

def wp (st : Nat) : Dev := updPort 5 (fun p => { p with state := st, role := 0, neighbour := some (9, 3) }) { w0 with clk := 64000 }
def body : Bytes := toLe 8 0x80
def img : Bytes := toLe 4 0x54525A44 ++ toLe 2 1 ++ [0, 0] ++ toLe 4 3 ++ toLe 4 0x55 ++ toLe 2 7 ++ toLe 2 1 ++ [0, 0] ++ toLe 2 0 ++ zeros 8 ++ toLe 4 (crc32 body).toNat ++ zeros 28 ++ body
def wi : Dev := { w0 with rtr := { w0.rtr with da := 3, daValid := true, inj := true }, mnt := { w0.mnt with data := cellsWrite [] 8 img } }

theorem meets_BraidAndSchedulerCommands :
    meetsE (Claims.braidQuery C 131071 1) w0 = true
      ∧ meets (Claims.braidRateSet C 9 1 4000 1024) w0 = true
      ∧ meets (Claims.schedQueueSet C 127 7 255 40000 4095 1) w0 = true
      ∧ meets (Claims.schedPortShapeSet C 0 40000 4095 255 1) w0 = true
      ∧ meets (Claims.schedMarkSet C 3 7 4095 4095 255) w0 = true
      ∧ meets (Claims.schedHistSelect C 127 8) w0 = true
      ∧ meets (Claims.shapeGroupSet C 0 255 1 1 1) w0 = true
      ∧ meets (Claims.shapeGroupBind C 1 255) w0 = true
      ∧ meetsE (Claims.schedStatsRead C 127) w0 = true := by decide +kernel

theorem meets_RouterCommands :
    meets (Claims.deviceDaSet C 131071 0) w0 = true
      ∧ meets (Claims.portRoleSet C 5 3 0) (wp 2) = true
      ∧ meets (Claims.portDrain C 5 1) (wp 2) = true
      ∧ meetsE (Claims.portQuery C 5) (wp 2) = true
      ∧ meets (Claims.routeLoad C 0 8 72 0) wi = true
      ∧ meets (Claims.routeEntrySet C 1 0 2047 0x80 0 0) w0 = true
      ∧ meets (Claims.routeEntryRead C 0 1 63) w0 = true
      ∧ meets (Claims.routeEpochSet C 1 0) { w0 with rtr := { w0.rtr with loadedB := true } } = true
      ∧ meets (Claims.routeDeflSet C 127 7 4095) w0 = true
      ∧ meets (Claims.routeParamSet C 31 255 65535 4) w0 = true
      ∧ meets (Claims.routeLandSet C 0 65535) w0 = true
      ∧ meetsE (Claims.routeProbe C 131071 0 1 1 3 65535 1 255) w0 = true := by decide +kernel

end Fabric

namespace Lanes

def wl (st ph : Nat) : Dev := updPort 5 (fun p => { p with state := st, neighbour := some (9, 3), lane := { p.lane with phase := ph, lanes := 3 } }) { w0 with clk := 64000 }
def wt : Dev := { w0 with time := { w0.time with isGm := true }, flt := { w0.flt with sev := [(srcWin 3 2, 1), (srcWin 3 3, 1)] } }

theorem meets_LaneCommands :
    meetsE (Claims.laneQuery C 127) w0 = true
      ∧ meets (Claims.laneRetrain C 5 4 1) (wl 2 5) = true
      ∧ meets (Claims.laneHistoryClear C 0xFF) w0 = true
      ∧ meets (Claims.clockParentSet C 1 127 0xFF 0xFF) (setFld (TIME + 0x020) 0 1 1 w0) = true
      ∧ meets (Claims.clockParentQuery C) w0 = true
      ∧ meets (Claims.laneTestEnter C 5 1) (wl 0 0) = true
      ∧ meetsE (Claims.laneTestExit C 5) (wl 0 7) = true
      ∧ meets (Claims.lanePatternSet C 5 7 7 7 (2^64-1)) (wl 0 7) = true
      ∧ meets (Claims.laneLoopbackSet C 5 2 15) (wl 0 7) = true
      ∧ meets (Claims.laneLoopbackFar C 5 3) (wl 0 7) = true
      ∧ meets (Claims.laneErrInject C 5 2 3 40 0) (wl 0 7) = true
      ∧ meetsE (Claims.laneEyeScan C 5 2 2 0 63 1 0 63 63 0 0) (wl 0 7) = true
      ∧ meetsE (Claims.lanePrbsRead C 5) (wl 0 7) = true
      ∧ meets (Claims.cageSet C 5 1 0 1 3 3) (wl 0 7) = true := by decide +kernel

theorem meets_TimeAndHostCommands :
    meetsE (Claims.timeQuery C) w0 = true
      ∧ meets (Claims.timeCfgSet C 0 0 255 1 255 255 255 0) w0 = true
      ∧ meets (Claims.timeSet C (2^64-1) 65535) wt = true
      ∧ meets (Claims.timeUtcSet C 65535 0) w0 = true
      ∧ meetsE (Claims.timePortQuery C 127) w0 = true
      ∧ meets (Claims.timeAsymSet C 127 65535 0) w0 = true
      ∧ meets (Claims.timeMirrorSet C 63 0 31 0x1000 1000) w0 = true
      ∧ meets (Claims.timePpsSet C 1 1 255 (2^32-1) 1 1 5 1 0) w0 = true := by decide +kernel

end Lanes

namespace Hosts

def sev (l : List Nat) (d : Dev) : Dev := { d with flt := { d.flt with sev := l.map (fun s => (s, 1)) } }
def wh (st : SlotState) : Dev := sev ((List.range 16).map (srcHost 0)) (updHost 0 (fun x => { x with slot := st, present := true, notify := 0 }) { w0 with ept := {}, xl := {} })
def wd : Dev := updFn F (fun x => { x with d3 := true, pmeEn := true }) (wh .on)
def wp : Dev := updFn F (fun x => { x with pmeEn := true }) (updHost 0 (fun x => { x with perst := true, wake := false }) (wh .on))
def wn : Dev := updHost 0 (fun x => { x with nextCfg := some (3, 5, 7), dl := true }) (wh .on)
def wz (s : LossScope) (c : LossCause) (st : SlotState) : Dev := updHost 0 (fun x => { x with loss := some ⟨s, c⟩, notify := 0, slot := st, numVfs := 5 }) { w0 with ept := { w0.ept with eps := [] }, xl := {} }
def wm (e : MsixEntry) : Dev := updFn F (fun x => { x with msix := [(2047, e)] }) (wh .on)
def we (e : MsixEntry) : Dev := updFn F (fun x => { x with eqs := x.eqs.map (fun q => (q.1, { q.2 with modTime := 5, since := 1 })) }) (wm e)

theorem meets_TimeAndHostCommands :
    meetsE (Claims.hostQuery C 0) w0 = true
      ∧ meets (Claims.hostFuncConfig C 0 31 1024 99 0) w0 = true
      ∧ meets (Claims.hostSplitSet C 3 1 0) w0 = true
      ∧ meets (Claims.hostSlotSet C 0 1 1 1 2 2 255 0) (wh .off) = true
      ∧ meets (Claims.hostWake C 0) wd = true
      ∧ meets (Claims.hostSlotRemove C 0) (wh .on) = true := by decide +kernel

theorem meets_HostFunctionEvents :
    meets (Claims.flr F) (wh .on) = true
      ∧ meets (Claims.vfDisable 0) (wh .on) = true
      ∧ meets (Claims.d3hotEntry F) (wh .on) = true
      ∧ meets (Claims.returnToD0 F) wd = true
      ∧ meets (Claims.busMasterDisable F) (wh .on) = true
      ∧ meets (Claims.perstAssert 0) wn = true
      ∧ meets (Claims.perstDeassert 0) (updHost 0 (fun x => { x with perst := true, wake := true }) wn) = true
      ∧ meets (Claims.hotReset 0) wn = true
      ∧ meets (Claims.hostLinkDown 0) wn = true
      ∧ meets (Claims.dlActiveReached 0 7 31 true) wn = true
      ∧ meets (Claims.hostLossDestroy 0 .port .removed) (wz .port .removed .removing) = true := by decide +kernel

theorem meets_HostSlotAndInterruptEvents :
    meets (Claims.presenceTaken 0) (updHost 0 (fun x => { x with present := false }) (wh .empty)) = true
      ∧ meets (Claims.presenceLost 0) (wh .on) = true
      ∧ meets (Claims.powerFaultTaken 0) (wh .powering) = true
      ∧ meets (Claims.buttonPress 0) wp = true
      ∧ meets (Claims.poweringDone 0) (wh .powering) = true
      ∧ meets (Claims.msixUnmask F 2047) (wm { addr := 0x1000, data := 5, mask := true, pend := true }) = true
      ∧ meetsE (Claims.msixBusMaster F 0) (wm { addr := 0x1000, data := 5, mask := false, pend := true }) = true
      ∧ meets (Claims.eqModerationTimer F 0) (we { addr := 0x1000, data := 5, mask := false, pend := false }) = true
      ∧ meets (Claims.correctableLinkError 0) (wh .on) = true
      ∧ meets (Claims.controllerUncorrectable 0) (wh .on) = true := by decide +kernel

end Hosts

namespace Dma

def ch0 : DmaCh := { f := F, slotA := 5, slotB := none, ring := 0x1000, n := 3, ep := some 1, ord := 0, tc := 0, prio := 3, vector := none, half := false, full := false, err := false, state := 0 }
def wc (x : DmaCh) (c : Nat) : Dev := { w0 with dma := { w0.dma with chs := [(c, x)] } }
def desc (o len src dst : Nat) : Bytes := toLe 1 o ++ [0,0,0] ++ toLe 4 len ++ toLe 8 src ++ toLe 8 dst ++ toLe 4 7 ++ [0,0,0,0x80]
def wj (e : Bytes) : Dev := wc { ch0 with state := 1, tail := 4, head := 3, jobs := [{ id := 9, pos := 3, desc := e }], targets := [(0, (0, 0, 0))] } 0
def seg : Segment := { iova := 0, size := 2 ^ 21, bus := 0x100000000, v := true, r := true, w := true, a := true }
def ws : Dev := let d := wc { ch0 with state := 1, tail := 4, head := 4, prio := 2, jobs := [{ id := 9, pos := 3, desc := desc 0 5000 0x1010 0x2020, begun := true }] } 63
  { d with xl := { d.xl with slots := [(5, { job := 7, f := F, root := 0x50000, mrBase := 0x60000, m := 4, segs := [seg] })] }, hosts := d.hosts.map (fun h => (h.1, { h.2 with slot := .on })) }
def ws2 : Dev := updFn F (fun f => { f with mrrs := 4096 }) ws
def bt (d : Dev) : Dev := setFld (GLB + 0x028) 0 3 6 d

theorem meets_TranslationAndDmaCommands :
    meets (Claims.dmaChCreate C 63 0 5 0x1000 16 0 3 3) w0 = true
      ∧ meets (Claims.dmaChTargetSet C 63 15 131071 1048575 4294967295) (wc ch0 63) = true
      ∧ meets (Claims.dmaChStart C 0) (wc ch0 0) = true
      ∧ meets (Claims.dmaChStop C 0) (wc { ch0 with state := 1 } 0) = true
      ∧ meets (Claims.dmaChReset C 0) (wc { ch0 with state := 2, cause := 2, head := 5, tail := 7 } 0) = true
      ∧ meets (Claims.dmaChDestroy C 0) (wc ch0 0) = true
      ∧ meetsE (Claims.dmaChQuery C 0) (wc ch0 0) = true
      ∧ meets (Claims.dmaChPrioSet C 0 3) (wc ch0 0) = true := by decide +kernel

theorem meets_DmaWork :
    meets (Claims.dmaCopy 0) (wj (desc 0 1 0 0)) = true
      ∧ meets (Claims.dmaPeatRead 0) (wj (desc 3 8 0 0)) = true
      ∧ meets (Claims.dmaPeatWrite 0) (wj (desc 4 8 0 0x7ffff8)) = true
      ∧ meetsE (Claims.dmaPut 0) (wj (desc 1 8 0 0)) = true
      ∧ meetsE (Claims.dmaGet 0) (wj (desc 2 8 0 0)) = true
      ∧ meetsE (Claims.dmaChunkSelect 63 9 0x100001010) ws2 = true
      ∧ meets (Claims.dmaKickOff F 63) (bt (wc ch0 63)) = true
      ∧ meets (Claims.dmaKick F 63) (bt (wc { ch0 with state := 1, scan := some { no := 0, i := 0, req := 0 } } 63)) = true := by decide +kernel

end Dma

namespace System

def sev (l : List Nat) (d : Dev) : Dev := { d with flt := { d.flt with sev := l.map (fun s => (s, 1)) } }
def z : Dev := sev ([srcWin 2 4, srcWin 2 5, srcWin 2 6, srcWin 0 3, srcWin 0 4, srcWin 0 5, srcWin 5 2, srcWin 17 7, srcWin 15 6] ++ (List.range 17).map (fun w => srcWin w 1)) w0
def pe (d : Dev) : Dev := setEn PWR true d
def on (i : Instr) (d : Dev) : Dev := match exec i ⟨d, []⟩ with | .next t => t.dev | _ => d
def n24 : Nat := 2 ^ 32 - 1
def rails : Dev := pe { z with pwr := { z.pwr with rails := [{ addr := some (1, 2) }, { addr := some (2, 2), fails := 1 }, {}, {}, {}, {}] } }
def rr : List RailReading := [⟨true, false, 800, 5, 40⟩, ⟨false, true, 0, 0, 0⟩, ⟨true, true, 0, 0, 0⟩]
def pr : Dev := setEn RTR true (updPort 127 (fun p => { p with role := 0, roleNext := 0, hintReq := 3 }) z)
def em : Dev := setEn EMBER true (sev ((List.range 9).map (srcWin 15)) z)
def emc : Dev := { em with flt := { em.flt with contain := [srcWin 15 4], met := [(srcWin 15 4, 63)] } }
def lg : Dev := { z with flt := { z.flt with marks := [{ source := srcWin 4 0, edge := true, forced := false, sev := 1 }, { source := 0, edge := false, forced := false, sev := 1 }] } }
def we : Dev := { z with nv := { z.nv with wear := [(2047, 5), (3, 799999999)] } }
def tk : Dev := { em with ember := { em.ember with fenced := [(7, 1)], queue := [7] } }
def ty : Dev := setFld (TALLY + 0x020) 0 1 1 (updHost 0 (fun x => { x with slot := .on }) { z with tally := { f := F, ring := 0x100000, m := 1, period := 1, groups := 2048 - 1024, pmask := 1, hmask := 1 } })

theorem meets_IdentityAndPowerCommands :
    meetsE (Claims.identify C) w0 = true
      ∧ meetsE (Claims.capsQuery C) w0 = true
      ∧ meets (Claims.echo C (2^64-1) 5) w0 = true
      ∧ meets (Claims.adminStats C) w0 = true
      ∧ meetsE (Claims.pwrQuery C) w0 = true
      ∧ meets (Claims.pwrLimitSet C 40 60 2 0) w0 = true
      ∧ meets (Claims.pwrThermalSet C 90 90 105 0) w0 = true
      ∧ meets (Claims.pwrRailMap C 5 127 255 0) w0 = true
      ∧ meets (Claims.pwrPrewarnForce C 15 1000) w0 = true
      ∧ meetsE (Claims.pwrSensorRead C) w0 = true := by decide +kernel

theorem meets_ResetAndFirmwareCommands :
    meets (Claims.deviceReset C) z = true
      ∧ meetsE (Claims.portReset C 127) pr = true
      ∧ meetsE (Claims.blockReset C 0x16 0) z = true
      ∧ meets (Claims.setMode C 0) z = true
      ∧ meets (Claims.bootModeSet C 2) z = true
      ∧ meetsE (Claims.lcQuery C) z = true
      ∧ meets (Claims.lcChange C 1) { z with nv := { z.nv with written := true } } = true
      ∧ meets (Claims.identityWrite C 5 65488) z = true
      ∧ meets (Claims.calibrationWrite C 65535 65535 1) z = true
      ∧ meetsE (Claims.peatQuery C) z = true
      ∧ meetsE (Claims.journalRead C 0 3) { z with nv := { z.nv with journal := [(5, 511, 4)] } } = true
      ∧ meetsE (Claims.peatRead C 0x400000 4096) z = true
      ∧ meets (Claims.peatWrite C 0x7FF000 0 4096) z = true
      ∧ meets (Claims.fwWrite C 1 0x3FFFFFF 0xFFFF 1) z = true
      ∧ meets (Claims.fwVerify C 1) z = true
      ∧ meets (Claims.fwActivate C 1) { z with boot := { z.boot with verified := [(3, (0, []))] } } = true
      ∧ meets (Claims.fwCommit C) { z with nv := { z.nv with trial := 2 } } = true
      ∧ meetsE (Claims.fwQuery C) z = true
      ∧ meets (Claims.personalitySet C) z = true := by decide +kernel

theorem meets_FaultAndCounterCommands :
    meetsE (Claims.fltQuery C 1023) z = true
      ∧ meetsE (Claims.fltSeveritySet C 0 4 0 1) z = true
      ∧ meets (Claims.fltRouteSet C 159 255 0) z = true
      ∧ meetsE (Claims.faultLogRead C 1 64) { z with nv := { z.nv with logSeq := 100 } } = true
      ∧ meets (Claims.tallyStart C 0 0x1000 8 1000000 1 1 0 0) z = true
      ∧ meets (Claims.tallyStop C) ty = true
      ∧ meets (Claims.counterChain C (DMA + 0x300) 1) z = true
      ∧ meetsE (Claims.counterClear C (blocks.getD 3 default) 0) z = true
      ∧ meets (Claims.counterWrapClear C n24) { z with wraps := [DMA + 0x300] } = true := by decide +kernel

theorem meets_PowerEvents :
    meets Claims.prewarnForceExpiry { w0 with pwr := { w0.pwr with forced := 9 } } = true
      ∧ meets (Claims.thermalReading (List.replicate 96 109)) z = true
      ∧ meets (Claims.thermtrip 115) z = true
      ∧ meetsE (Claims.droopDetect 61) z = true
      ∧ meets Claims.droopEnd z = true
      ∧ meets Claims.droopLong { z with pwr := { z.pwr with droopSince := some 0 } } = true
      ∧ meets (Claims.slewGranted (.ember 71) true 1000) z = true
      ∧ meets (Claims.slewHeld .dma true 1) { z with pwr := { z.pwr with held := [(.dma, true, 5)] } } = true
      ∧ meets (Claims.pmbusPoll rr) rails = true
      ∧ meets (Claims.pmAlert rr) rails = true
      ∧ meets (Claims.avsStep 800) (pe z) = true
      ∧ meets Claims.avsSilent (setFld (PWR + 0x030) 26 1 1 (pe z)) = true := by decide +kernel

theorem meets_ResetAndBootEvents :
    meetsE (Claims.coldReset 15) z = true
      ∧ meetsE Claims.resetPinAssert z = true
      ∧ meetsE (Claims.deviceLevelReset 5) { z with boot := { z.boot with due := some 5 } } = true
      ∧ meetsE Claims.pfailRecovered { z with boot := { z.boot with pfail := true } } = true
      ∧ meetsE Claims.powerGoodFall z = true
      ∧ meetsE Claims.pfailTaken z = true
      ∧ meets (Claims.refclkAFail true) z = true
      ∧ meets Claims.refclkBFail z = true := by decide +kernel

theorem meets_FaultAndEmberEvents :
    meets (Claims.sramCorrected .glb none) z = true
      ∧ meets (Claims.sramUncorrectable .mgf 16) z = true
      ∧ meets (Claims.sramPayload 3 63) z = true
      ∧ meets (Claims.dieLinkFail 7) z = true
      ∧ meets (Claims.containmentAction 4 63) emc = true
      ∧ meetsE Claims.lockstep z = true
      ∧ meetsE Claims.kilnLogWrite lg = true
      ∧ meetsE Claims.wearUpdate we = true
      ∧ meets (Claims.watchdog 63) em = true
      ∧ meets (Claims.firmwareTrap 0) em = true
      ∧ meets (Claims.filigreeStop 71) em = true
      ∧ meets (Claims.takeover 7 64) tk = true
      ∧ meets Claims.takeoverDrained { tk with ember := { tk.ember with switching := true } } = true
      ∧ meets Claims.tallyTick ty = true
      ∧ meets Claims.tallyMissed { ty with tally := { ty.tally with busyTo := 99 } } = true := by decide +kernel

end System

namespace Registers

def sev (l : List Nat) (d : Dev) : Dev := { d with flt := { d.flt with sev := l.map (fun s => (s, 1)) } }
def bt (d : Dev) : Dev := setFld (GLB + 0x028) 0 3 6 d
def z : Dev := bt (sev ([srcWin 15 6, srcWin 2 0, srcWin 4 0, srcWin 15 0, srcWin 12 0, srcHost 0 6, srcHost 0 5, srcWin 7 2, 1023] ++ (List.range 17).map (fun w => srcWin w 1)) w0)
def on (i : Instr) (d : Dev) : Dev := match exec i ⟨d, []⟩ with | .next t => t.dev | _ => d
def mh : Master := .host F
def ch : Dev := { setReg (PWR + 0x118) 9 (setReg (PWR + 0x110) 8 z) with chains := [PWR + 0x110] }
def db : Dev := { z with ept := { z.ept with eps := [(1, { epA with state := .ready, send := { epA.send with scan := some { no := 0, i := 0, req := 0 } }, recv := some { base := 0x2000, n := 4, scan := some { no := 0, i := 0, req := 0 } } })] } }
def hdr0 : Hdr := { kind := 9, vn := true, tc := 3, dstDa := 9, op := 5 }
def txw : List (BitVec 64) := wordsOf hdr0.encode
def rt : Dev := let d := { z with rtr := { z.rtr with da := 3, daValid := true, member := [(9, 0x82)] }, mgf := { z.mgf with tx := txw.take 7 } }
  updPort 2 (fun p => { p with role := 0, state := 2, neighbour := some (9, 4) }) d
def mst (op len : Nat) (o : Nat) (a : Nat) (bs : Bytes) : Strand := mkStrand { hdr0 with op := BitVec.ofNat 8 op, dstDa := 3, srcDa := 9, tc := 1, vn := false, len := BitVec.ofNat 13 len, opw := BitVec.ofNat 128 o, addr := BitVec.ofNat 64 a } (if bs = [] then [] else [⟨bs, false⟩])
def mg : Dev := setFld (MGF + 0x024) 0 17 9 (setFld (MGF + 0x020) 8 1 1 rt)
def rg : Dev := on (.adminRingEnable mh 0) z
def fet (bs : Bytes) : Dev := { z with adm := { z.adm with fetched := [{ path := .mailbox, index := 0, bytes := bs }] }, mnt := { z.mnt with busy := true } }
def ec : Bytes := toLe 2 0x0103 ++ [2, 0] ++ toLe 4 7 ++ toLe 8 11 ++ toLe 8 (2^64-1) ++ zeros 32 ++ toLe 8 8

theorem meets_RegisterAccesses :
    meets (Claims.ctrlEnSet mh EPT 1) z = true
      ∧ meets (Claims.ctrlEnClear mh DMA 0) (setEn DMA true z) = true
      ∧ meets (Claims.ctrlEnKept mh EMBER 15 0) (setEn EMBER true z) = true
      ∧ meets (Claims.regTaken mh 4294967295) z = true
      ∧ meets (Claims.regIgnored mh 0) (setEn CONG true z) = true
      ∧ meets (Claims.regPoisoned F 0 0 0) z = true
      ∧ meets (Claims.regImproper F 67108863 0) z = true
      ∧ meets (Claims.reservePeakRead mh) { z with rtr := { z.rtr with peak := 77 } } = true
      ∧ meets (Claims.timeNowLatch mh) { z with time := { z.time with ns := 2^40 + 5 } } = true
      ∧ meets (Claims.chainedCounterRead mh (PWR + 0x110)) ch = true
      ∧ meets (Claims.chainedCounterOdd mh (PWR + 0x110) 9) (on (.chainedCounterRead mh (PWR + 0x110)) ch) = true := by decide +kernel

theorem meets_DoorbellsAndRingRegisters :
    meets (Claims.doorbell F 1 63 1) db = true
      ∧ meets (Claims.doorbellDropped F 1048575 0 8) z = true
      ∧ meets (Claims.cqArm F 0) z = true
      ∧ meets (Claims.cqArmDropped F 65535) z = true
      ∧ meets (Claims.fenceReq mh 63) (setEn EMBER true z) = true
      ∧ meets (Claims.fltForce mh 20 0) z = true
      ∧ meets (Claims.fltStickyClear mh 31 (BitVec.allOnes 32)) { z with flt := { z.flt with sticky := [5, 992, 31, 1023] } } = true
      ∧ meets (Claims.adminRingEnable mh 0) z = true
      ∧ meets (Claims.adminRingDisable mh 0) rg = true
      ∧ meets (Claims.admCmdTail mh 0 (BitVec.allOnes 16)) rg = true
      ∧ meets (Claims.admRspHead mh 0 7) rg = true := by decide +kernel

theorem meets_ManagementFifos :
    meets (Claims.txData mh (BitVec.allOnes 64)) z = true
      ∧ meetsE (Claims.txEnd mh (txw.getD 7 0) 2) rt = true
      ∧ meets (Claims.rxDataRead mh 5 true) { z with mgf := { z.mgf with rx := [(5, true), (6, false)], flushRx := some 1 } } = true
      ∧ meets (Claims.rxDataStallEnd F) { z with mgf := { z.mgf with stalled := [.maint, mh] } } = true
      ∧ meets (Claims.flushRx mh) z = true
      ∧ meets (Claims.flushTx .maint) z = true
      ∧ meets (Claims.flushRxDone 1) { z with mgf := { z.mgf with rx := [(5, true), (6, true)], flushRx := some 1 } } = true
      ∧ meets Claims.flushTxDone { z with mgf := { z.mgf with flushTx := true } } = true
      ∧ meets (Claims.mgmtRx (mst 0x7F 9 0 0 (List.replicate 9 3))) rt = true
      ∧ meets (Claims.remoteAdmin (mst 0x80 64 0 0 (List.replicate 64 3))) mg = true
      ∧ meetsE (Claims.dataWrite (mst 0x82 8 0 65528 (List.replicate 8 3)) 2) mg = true
      ∧ meetsE (Claims.dataRead (mst 0x83 0 4096 61440 []) 2) mg = true := by decide +kernel

theorem meets_AdminPathsAndMailbox :
    meets (Claims.adminCommandFetch F) (updHost 0 (fun x => { x with slot := .on }) (updFn F (fun x => { x with adm := { x.adm with tail := 1 } }) rg)) = true
      ∧ meets (Claims.adminCommandBegin ec) (fet ec) = true
      ∧ meets (Claims.adminUnknown (List.replicate 64 255)) (fet (List.replicate 64 255)) = true
      ∧ meets (Claims.adminTimeout ec) (fet ec) = true
      ∧ meets Claims.mbxGo z = true
      ∧ meets Claims.mbxGoBusy { z with mnt := { z.mnt with busy := true } } = true
      ∧ meets (Claims.maintenanceRead 65532) z = true
      ∧ meets (Claims.maintenanceWrite 65532 4294967295) z = true
      ∧ meets (Claims.maintenancePart 6 5) z = true
      ∧ meets (Claims.mctpRead 0) z = true
      ∧ meets Claims.maintenanceGap { z with mnt := { z.mnt with part := [1] } } = true := by decide +kernel

end Registers

namespace Links

def sev (l : List Nat) (d : Dev) : Dev := { d with flt := { d.flt with sev := l.map (fun s => (s, 1)) } }
def bt (d : Dev) : Dev := setFld (GLB + 0x028) 0 3 6 d
def p3 : Port := { portReset 3 with role := 0, roleNext := 0, state := 2, neighbour := some (5, 7), lane := { phase := 5, lanes := 3, clkOk := true, svcSync := true, peerPhase := 5, peerRxr := 3, ends := [{ready := true, locked := true}, {ready := true, locked := true}] } }
def z : Dev := bt (sev ([srcPort 3 0, srcPort 3 1, srcPort 3 2, srcWin 3 2, srcWin 3 3, srcWin 0 2, srcWin 5 4] ++ (List.range 17).map (fun w => srcWin w 1)) { w0 with ports := [(3, p3), (4, { p3 with lfsr := (portReset 4).lfsr, neighbour := some (6, 1) })], rtr := { w0.rtr with da := 2, daValid := true, group := [], member := [(5, 0x83), (6, 0x84)] } })
def zt : Dev := setEn TIME true z
def on (i : Instr) (d : Dev) : Dev := match exec i ⟨d, []⟩ with | .next t => t.dev | _ => d
def tm (g : TimeSt → TimeSt) (d : Dev) : Dev := { d with time := g d.time }
def ln (g : Lane → Lane) (d : Dev) : Dev := updLane 3 g d
def lk (g : Link → Link) (d : Dev) : Dev := updLink 3 g d
def pp (g : Port → Port) (d : Dev) : Dev := updPort 3 g d
def pin : Dev := setFld (TIME + 0x050) 2 1 1 (tm (fun t => { t with ns := 5000000123, frac := 77, inDelay := 4294967000 }) zt)
def pout : Dev := setFld (TIME + 0x050) 0 2 3 zt
def mir : Dev := tm (fun t => { t with mirrors := [(63, { f := F, addr := 0x1040, period := 3, seq := 4294967295 })] }) zt
def sd : Dev := updPTime 3 (fun p => { p with t1 := some (9, 1000), t4 := some (4, 99 * 65536) }) zt
def sd2 : Dev := on (.timeStamp 3 (stampFrame 9 50 0 1 1)) sd
def th (st : TimeState) (d : Dev) : Dev := tm (fun t => { t with parent := some 3, state := st }) (updPTime 3 (fun p => { p with d := some ((sampleOf sd2 3 55 1).1), accepted := 7 }) d)
def ths (st : TimeState) (v : Nat) : Dev := setFld (TIME + 0x024) 0 24 v (th st sd2)
def cl : Dev := setFld (TIME + 0x020) 0 1 0 <| ln (fun l => { l with clkOk := false, fclk := some 7 }) (tm (fun t => { t with list := [3, 4] }) (th .locked zt))
def el : Dev := setFld (TIME + 0x020) 0 1 1 (setFld (TIME + 0x020) 8 8 9 zt)
def annSt : Strand := mkStrand { (default : Hdr) with vn := true, kind := 9, op := 0xA0, opw := BitVec.ofNat 128 (7 + 2^24 * 4 + 2^32 * 1 + 2^36 * 14) } []
def el2 : Dev := { tm (fun t => { t with state := .locked, parent := some 3 }) el with boot := { el.boot with refA := true } }
def el3 : Dev := { updPTime 3 (fun p => { p with offer := some (4, 1, 7, 14, 0) }) el with boot := { el.boot with refA := true } }
def dn : Dev := pp (fun p => { p with state := 0, neighbour := none, lane := { phase := 1, clkOk := true } }) z
def eqd : Dev := pp (fun p => { p with state := 0, lane := { phase := 3, lanes := 3, clkOk := true, svcSync := true, ends := [{ready := true, far := [0,0,64,0,0,0]}, {ready := true}] } }) z
def idd : Dev := pp (fun p => { p with state := 0, neighbour := none, lane := { phase := 2, clkOk := true, svcSync := true, coldNext := true } }) z
def risz (h : PortHold) : Dev := setEn RTR true (setEn (LANE 3) true (setEn (LINK 3) true (pp (fun p => { p with state := 0, lane := { hold := h } }) z)))
def gu : Dev := ln (fun l => { l with ends := [{}, { req := some [1,2,3,255], sends := 8 }] }) eqd
def ald : Dev := ln (fun l => { l with phase := 4, peerRxr := 3, peerPhase := 4, ends := [{ locked := true }, { locked := true }] }) eqd
def ald2 : Dev := pp (fun p => { p with state := 2, lane := { p.lane with nego := some { kind := 0, lane := 0, seq := 9, mine := true, accepted := true } } }) ald
def eql (b : Bool) : Dev := ln (fun l => { l with half := b, peerHalfOk := true, ends := [{ ready := true }, {}] }) eqd
def op : Dev := lk (fun l => { l with txOpen := some 9 }) z
def ng (c : Option AdminCtx) (d : Dev) : Dev := ln (fun l => { l with nego := some { kind := 0, lane := 0, seq := 9, mine := true, cmd := c } }) d
def rt : Dev := ln (fun l => { l with phase := 3, nego := some { kind := 0, lane := 0, seq := 9, mine := true, accepted := true } }) z
def hn : Dev := pp (fun p => { p with dimmed := true, link := { p.link with firstBeads := 1000000, replayedBeads := 1000, highRuns := 2 }, lane := { p.lane with score := [5, 4] } }) z
def ts : Dev := pp (fun p => { p with state := 0, lane := { phase := 7, remoteAllow := true } }) z
def dinAll : BitVec 512 := BitVec.allOnes 512
def dinP : BitVec 512 := dinAll ^^^ (1#512 <<< 12)
def zp : Dev := ln (fun l => { l with cageIn := [14, 14] }) z
def ent : QEnt := { st := mkStrand { (default : Hdr) with dstDa := 5, len := 0 } [], id := 3, cells := 1 }
def rp (d : Dev) : Dev := lk (fun l => { l with una := 2^20-1, nextLsn := 0, rttAny := some 8, rep := [{ lsn := 2^20-1, ent := ent, hdr := ent.st.hdr, closed := true, tLast := 3 }] }) d
def rp1 : Dev := { lk (fun l => { l with rttAny := none }) (rp z) with clk := 4100 }
def ent2 : QEnt := { ent with st := mkStrand { (default : Hdr) with dstDa := 5, len := 64, ttl := 8 } [⟨zeros 64, false⟩], cells := 2 }
def tx : Dev := pp (fun p => { p with txNext := some ent2, link := { p.link with nextLsn := 2^20-1 } }) z
def hb (lsn da : Nat) : Bead := let h : Hdr := { (default : Hdr) with dstDa := BitVec.ofNat 17 da, len := 0, ttl := 8, lsn := BitVec.ofNat 20 lsn }; ⟨h.encode, mkTrailer true true false h.crc⟩
def zr : Dev := { z with rtr := { z.rtr with member := [(5, 0x83), (6, 0x84)] } }
def pb (l : Bool) : Bead := ⟨zeros 64, mkTrailer false l false (payloadCrc (zeros 64) l)⟩
def qd (i : Nat) : Dev := pp (fun p => { p with out := p.out.enter i ent2 }) z
def hj : Dev := updHost 7 (fun h => { h with inj := h.inj.enter 4 ent2 }) z
def en3 : QEnt := { ent2 with st := mkStrand { (default : Hdr) with dstDa := 5, len := 64, ttl := 8, tc := 3, vn := true } [⟨zeros 64, false⟩] }
def ag : Dev := pp (fun p => { p with out := p.out.enter 7 en3 }) z
def ij : Dev := updHost 7 (fun h => { h with injNext := some { ent2 with st := mkStrand { (default : Hdr) with dstDa := 6, len := 64, ttl := 8 } [⟨zeros 64, false⟩] } }) zr

theorem meets_TimePulses :
    meets Claims.ppsInStamp pin = true
      ∧ meets Claims.ppsInIgnored { tm (fun t => { t with ppsLast := some 10 }) pin with clk := 500000009 } = true
      ∧ meets Claims.ppsInFirst (setFld (TIME + 0x050) 3 1 1 (tm (fun t => { t with isGm := true, ns := 5000000000 }) pin)) = true
      ∧ meets Claims.gmPpsTimeout (tm (fun t => { t with isGm := true, gmClass := 0 }) zt) = true
      ∧ meets Claims.ppsOutEdge pout = true
      ∧ meets Claims.ppsOutHeld (setFld (TIME + 0x050) 0 1 1 zt) = true
      ∧ meets Claims.todLineSent (setFld (TIME + 0x050) 4 1 1 pout) = true
      ∧ meetsE (Claims.mirrorWrite 63) mir = true := by decide +kernel

theorem meets_TimeTransfer :
    meets (Claims.markerSend 3) (tm (fun t => { t with ns := 700, frac := 65535 }) zt) = true
      ∧ meets (Claims.markerArrival 3) zt = true
      ∧ meets (Claims.stampDeparture 3 65535 7 3 2) (updPTime 3 (fun p => { p with t4 := some (0, 5) }) zt) = true
      ∧ meets (Claims.stampArrival 3 9 50 0 1) sd = true
      ∧ meetsE (Claims.stampSample 3 6 55 1 0) sd2 = true
      ∧ meetsE (Claims.thetaLocked 3 6 55 1 3) (ths .locked 0xFFFFFF) = true
      ∧ meetsE (Claims.thetaLocking 3 6 55 1 3) (tm (fun t => { t with goods := 15 }) (ths .locking 0xFFFFFF)) = true
      ∧ meets Claims.servoNoTheta (th .locked zt) = true
      ∧ meets Claims.holdoverLimit (tm (fun t => { t with state := .holdover }) zt) = true
      ∧ meets Claims.clockParentLost (updLane 4 (fun l => { l with clkOk := false }) { cl with boot := { cl.boot with refA := true } }) = true
      ∧ meets (Claims.clockParentMoves 4) cl = true
      ∧ meetsE Claims.announceSend el = true
      ∧ meets (Claims.timeAnnouncement 127 annSt) el = true
      ∧ meets Claims.electionKept (tm (fun t => { t with isGm := true }) el) = true
      ∧ meetsE Claims.electionWon el2 = true
      ∧ meetsE (Claims.electionLost 3) el3 = true := by decide +kernel

theorem meets_LinkBringUp :
    meets (Claims.syncAcquired 3) (ln (fun l => { l with svcSync := false }) z) = true
      ∧ meetsE (Claims.syncToIdentity 3) dn = true
      ∧ meets (Claims.syncLost 3) (ln (fun l => { l with svcSync := true }) dn) = true
      ∧ meetsE (Claims.syncLostInService 3) z = true
      ∧ meets (Claims.clkLost 3) dn = true
      ∧ meets (Claims.clkLostInService 3) z = true
      ∧ meets (Claims.codewordLockLost 3) (ln (fun l => { l with negSeq := 255 }) z) = true
      ∧ meetsE (Claims.clkRestored 3) (tm (fun t => { t with isGm := true }) z) = true
      ∧ meets (Claims.trainStateSend 3) (ln (fun l => { l with phase := 4, half := true }) z) = true
      ∧ meets (Claims.trainStateHeard 3 7 3 1 3) z = true
      ∧ meets (Claims.trainStateAligns 3 1 3) eqd = true
      ∧ meets (Claims.identitySend 3) eqd = true
      ∧ meetsE (Claims.identityAccepted 3 5 7 0 1 9 (2^64-1)) idd = true
      ∧ meetsE (Claims.identityRefused 3 2 7 0 1 1 1 9 4) idd = true
      ∧ meets (Claims.identityRetry 3) (risz .oneS) = true
      ∧ meets (Claims.bringupRetry 3) (risz .tenMs) = true
      ∧ meets (Claims.downHoldExpiry 3) (risz .tenMs) = true := by decide +kernel

theorem meets_LinkTraining :
    meets (Claims.trainPreset 3 1 7 1 255) eqd = true
      ∧ meetsE (Claims.trainIncrement 3 0 1 255) (ln (fun l => { l with ends := [{ taps := [0, -8, 48, -8, 0, 0] }, {}] }) eqd) = true
      ∧ meets (Claims.trainRepeated 3 1 [1, 4, 5, 9]) (ln (fun l => { l with ends := [{}, { lastSeq := some 9, lastRsp := [1, 2, 3] }] }) eqd) = true
      ∧ meets (Claims.trainAnswered 3 1 1 255 #v[1,2,64,255,254,3]) (ln (fun l => { l with ends := [{}, { req := some [1,2,3,255], sends := 3 }] }) eqd) = true
      ∧ meetsE (Claims.trainResent 3 1) (ln (fun l => { l with ends := [{}, { req := some [1,2,3,255], sends := 7 }] }) eqd) = true
      ∧ meetsE (Claims.trainGivenUp 3 1) gu = true
      ∧ meets (Claims.laneReady 3 1 4294) eqd = true
      ∧ meets (Claims.laneNotReady 3 1 4295) eqd = true
      ∧ meets (Claims.alignLock 3 0) ald = true
      ∧ meets (Claims.enterService 3) ald = true
      ∧ meetsE (Claims.retrained 3) ald2 = true
      ∧ meetsE (Claims.eqLimitHalf 3) (eql false) = true
      ∧ meetsE (Claims.eqLimitFails 3) (eql true) = true
      ∧ meets (Claims.historyWritten 3 5 7) z = true
      ∧ meets (Claims.learningExpiry 3) (pp (fun p => { p with state := 1 }) z) = true := by decide +kernel

theorem meets_LinkNegotiation :
    meets (Claims.proposalAccepted 3 4 1 (2^24-1) 255) op = true
      ∧ meets (Claims.proposalRejected 3 1 1 0 255) (ln (fun l => { l with lanes := 1 }) op) = true
      ∧ meets (Claims.proposalIgnored 3 1 1 260 255) (ng none op) = true
      ∧ meetsE (Claims.proposalWithdrawn 3 1 258 255) (ng none op) = true
      ∧ meetsE (Claims.acceptHeard 3 0 0 5 9) (ng none op) = true
      ∧ meets (Claims.rejectHeard 3 0 0 5 9) (ng none op) = true
      ∧ meets (Claims.doneHeard 3 0 0 5 9) (ln (fun l => { l with clkOk := false, again := [{ kind := 0, lane := 0, seq := 9, mine := true }] }) z) = true
      ∧ meetsE (Claims.proposeResent 3) (ng none op) = true
      ∧ meets (Claims.proposalAbandoned 3) (ng none op) = true
      ∧ meetsE (Claims.retrainAbandoned 3 C) (ng (some C) op) = true
      ∧ meetsE (Claims.retrainTimeout 3) rt = true := by decide +kernel

theorem meets_LinkHealthAndScan :
    meets (Claims.congHint 3 15 14) z = true
      ∧ meets Claims.congHintSend z = true
      ∧ meets (Claims.hintStale 3) z = true
      ∧ meets (Claims.linkHealth 3 (2^24-1) 5 15 14 3 200) z = true
      ∧ meets (Claims.linkHealthSend 3 127 0) z = true
      ∧ meets (Claims.healthSkipped 3) (lk (fun l => { l with firstBeads := 999999, replayedBeads := 5 }) z) = true
      ∧ meets (Claims.healthDims 3) (lk (fun l => { l with firstBeads := 1000000, replayedBeads := 100 }) z) = true
      ∧ meetsE (Claims.healthNarrows 3) hn = true
      ∧ meets (Claims.loopback 3 1 3) ts = true
      ∧ meets (Claims.loopbackIgnored 3 1 3) z = true
      ∧ meets (Claims.prbsLocked 3 2) (ln (fun l => { l with chk := 1, patMask := 7 }) ts) = true
      ∧ meetsE (Claims.isbScanSteady dinAll) z = true
      ∧ meetsE (Claims.isbScanPresent 3 dinP) zp = true
      ∧ meetsE (Claims.isbScanFault (dinAll ^^^ (1#512 <<< 511))) zp = true := by decide +kernel

theorem meets_LinkLayerBeads :
    meets (Claims.linkAckTaken 3 0) (rp z) = true
      ∧ meetsE (Claims.linkAckSample 3 0 1022) rp1 = true
      ∧ meets (Claims.linkAckWrong 3 1 5) (rp z) = true
      ∧ meets (Claims.ackTimerEnds 3) (lk (fun l => { l with ackOn := true, expect := 77 }) z) = true
      ∧ meetsE (Claims.replayed 3) (rp z) = true
      ∧ meets (Claims.replayComplete 3) (lk (fun l => { l with replaying := true }) z) = true
      ∧ meets (Claims.rttPeriod 3) (lk (fun l => { l with rttNow := some 9 }) z) = true
      ∧ meetsE (Claims.transmitted 3) tx = true
      ∧ meetsE (Claims.transmitWaits 3) (lk (fun l => { l with rep := List.replicate 1488 { lsn := 0, ent := ent, hdr := ent.st.hdr, closed := true, tLast := 3 }}) tx) = true
      ∧ meets (Claims.headDuplicate 3 (hb 0 5)) (lk (fun l => { l with expect := 1 }) z) = true
      ∧ meets (Claims.headOutOfSequence 3 (hb 2 5)) (lk (fun l => { l with expect := 1, discard := true }) z) = true
      ∧ meetsE (Claims.headRouted 3 4 (hb 1 6)) (lk (fun l => { l with expect := 1, discard := true }) zr) = true
      ∧ meetsE (Claims.beadKept 3 (pb false)) (lk (fun l => { l with cur := some { id := 7, keep := true, ok := true } }) z) = true
      ∧ meets (Claims.beadEnds 3 (pb true)) (lk (fun l => { l with expect := 2^20-1, cur := some { id := 7, keep := false, ok := true } }) z) = true
      ∧ meets (Claims.beadBad 3 ⟨zeros 64, mkTrailer false true false 77⟩) z = true := by decide +kernel

theorem meets_SchedulingAndInjection :
    meetsE (Claims.chosenFour 3) (qd 4) = true
      ∧ meetsE (Claims.chosenZero 3) (qd 0) = true
      ∧ meetsE (Claims.injectionChosen 7) hj = true
      ∧ meetsE (Claims.aged 3 7 0) ag = true
      ∧ meetsE Claims.depthSampled (pp (fun p => { p with out := { p.out with samples := [[3, 1, 9], [], [], [], [], [], [], [2]] } }) z) = true
      ∧ meetsE (Claims.injected 7 4) ij = true
      ∧ meets (Claims.injectionWaits 7) { ij with rtr := { ij.rtr with generalUsed := 704511 } } = true := by decide +kernel

end Links

namespace Strands

def sev (l : List Nat) (d : Dev) : Dev := { d with flt := { d.flt with sev := l.map (fun s => (s, 1)) } }
def seg : Segment := { iova := 0x10000, size := 0x100000, bus := 0x800000, v := true, r := true, w := true, a := true }
def mr : Bytes := toLe 8 0x10000 ++ toLe 8 0x100000 ++ [0x77, 0x3F] ++ zeros 14
def js : JobSlot := { job := 7, f := F, root := 0x50000, mrBase := 0x60000, m := 4, segs := [seg] }
def q0 : SendHalf := {}
def pe : Peer := { state := .opened, txGen := some 0x11, rxGen := 0x22, rxReq := { synced := true, base := 4294967295 }, rxRsp := { synced := true, base := 100 } }
def ep1 : Ep := { epA with state := .ready }
def t0 : Dev := { w0 with
  ept := { w0.ept with eps := [(1, ep1)] }
  xl := { slots := [(5, js)], regions := [((5, 1), mr)] }
  rtr := { w0.rtr with da := 2, daValid := true }
  xp := { w0.xp with peers := [(9, pe)] } }
def kk : StreamKey := ⟨1, 9, 3, 2⟩
def ct : Content := { op := none, hdr := { (default : Hdr) with kind := 5, vn := true, dstDa := 9, len := 8 }, hp := 0, ep := 1, src := .bytes [⟨zeros 8, false⟩] }
def sq : Dev := { t0 with xp := { t0.xp with cal := [(9, true)], contents := [(4, ct)], peers := [(9, { pe with rsp := { q0 with next := 4294967295, queue := [{ cid := 4, data := [⟨zeros 8, false⟩] }] } })] } }
def un : Dev := { t0 with xp := { t0.xp with contents := [(4, { ct with sent := true })], peers := [(9, { pe with rsp := { q0 with unacked := [{ bsn := 7, cid := 4, t0 := 0 }], next := 8 } })] } }
def bk : Dev := { t0 with xp := { t0.xp with contents := [(4, { ct with refused := true })], backoff := [4], trimmed := [4] } }
def ws (k : BitVec 4) (o : BitVec 8) (vn : Bool) (opw : Nat) (dat : Bytes) (g : Hdr → Hdr) : Strand :=
  mkStrand (g { (default : Hdr) with kind := k, op := o, vn := vn, dstDa := 2, dstEp := 1, srcDa := 9, srcEp := 3, job := 7, bgen := 0x22, flags := 1
                                     bsn := if vn then 100 else 4294967295, key := 0x177, addr := 0x10F80, msn := 16777215, ord := 2, opw := BitVec.ofNat 128 opw
                                     len := BitVec.ofNat 13 dat.length }) [⟨dat, false⟩]
def wst : Strand := ws 0 1 false 0 (zeros 70) (fun h => { h with addr := 0x10F80, ord := 9 })
def pk (w : ParkWhy) : Dev := { t0 with ept := { t0.ept with parked := [{ rx := { st := wst }, why := w }] } }
def desc (op : Nat) (l : List (Nat × Bytes)) : Bytes := l.foldl (fun b p => patch b p.1 p.2) (patch (zeros 64) 0 [BitVec.ofNat 8 op, 1])
def opA (code : Nat) : Op := { owner := .ring 17, ep := 1, code := code, desc := desc code [(32, toLe 8 0x10FF0), (16, toLe 8 0x20008)], dst := 9, dstEp := 3, ord := 2, len := 8, msn := 5, state := .running, left := 1 }
def tO (o : Op) (typ : Nat) : Dev := { t0 with
  ept := { t0.ept with eps := [(1, { ep1 with state := .active, typ := typ, accepted := [6] })] }
  xp := { t0.xp with ops := [(6, o)], sendRecs := [(o.key, { next := 6, order := [6], unacked := [5] })] } }
def u7 : Unacked := { bsn := 4294967295, cid := 4, t0 := 0 }
def cOp : Content := { op := some 6, hdr := { (default : Hdr) with dstDa := 9, msn := 5, srcEp := 1, dstEp := 3, ord := 2 }, hp := 0, ep := 1, src := .none, sent := true }
def tU (o : Op) (typ : Nat) : Dev := let d := tO o typ; { d with xp := { d.xp with contents := [(4, cOp)], peers := [(9, { pe with req := { q0 with next := 0, unacked := [u7] } })] } }
def ackS : Strand := ws 1 0 true 0 [] (fun h => { h with bsn := 0, bgen := 0x11, flags := 0x80 })
def rsp (kind : BitVec 4) (cause status : Nat) : Strand := ws kind 0 true (4294967295 + 2^33 + cause * 2^40 + status * 2^48) [] (fun h => { h with bgen := 0x11, flags := 0 })
def tR (o : Op) (typ : Nat) : Dev := let d := tU o typ; { d with xp := { d.xp with peers := [(9, { pe with rxGen := 0x11, req := { q0 with next := 0, unacked := [u7] } })] } }
def gone : Strand := ws 10 0 true (0x23 * 2^48) [] (fun h => { h with bgen := 0x11, flags := 0 })
def rs : Strand := ws 2 0 true (4 * 2^40) [] (fun h => { h with bgen := 0x11, flags := 0x80 })
def dr : Dev := sev [srcWin 11 3] { t0 with xp := { t0.xp with peers := [(9, { pe with req := { q0 with next := 77, unacked := [u7] } })] } }
def wi : Strand := ws 0 2 false 0xABCD1234 (zeros 70) id
def pc : Strand := ws 0 4 false (3 + 9 * 2^18) (zeros 70) id
def tC : Dev := { t0 with coll := { t0.coll with ranges := [(0, { count := 4, slot := 5, f := F, mirror := some 0x9000 })], values := [(3, 2^64 - 2)], armed := [(3, 0x55)] } }
def rcv (op : Nat) (len : Nat) : Recv := { pos := 18, desc := desc op [(4, toLe 4 len), (32, toLe 8 0x10F00)] }
def tS : Dev := { t0 with ept := { t0.ept with eps := [(1, { ep1 with recvs := [rcv 0x40 69, rcv 0x40 1] })] } }
def sd : Strand := ws 0 8 false 0xABCD1234 (zeros 70) (fun h => { h with addr := 70 + 2^32 })
def tg : Strand := ws 0 9 false (0x1111 + 5 * 2^64 + 6 * 2^96) (zeros 70) (fun h => { h with addr := 70 })
def rT : Recv := { pos := 18, desc := patch (patch (rcv 0x41 69).desc 16 (toLe 8 0x1111 ++ toLe 4 5 ++ toLe 2 6)) 1 [0] }
def cx : MCtx := { recBase := 0xA0000, uBase := 0xB0000, b := 17, spBase := 0xC0000, s := 10 }
def pQ : Posted := { seq := 3, recv := rT }
def tM (ps : List Posted) : Dev := { t0 with mt := { ctxs := [(1, { cx with posted := ps, seq := 4 })] } }
def rts : Strand := ws 0 0x0A false (0x1112 + 5 * 2^64 + 6 * 2^96) [] (fun h => { h with addr := 70000 + 7 * 2^32 })
def oR : Op := { opA 9 with rndv := true, rtag := 7, poison := true }
def dn : Strand := ws 0 0x0C false (99 + 7 * 2^32) [] id
def t0r : Dev := { t0 with fns := [(0, { (fn t0 F) with mrrs := 128 })] }
def pr : Strand := ws 4 0x0B false (16 + 7 * 2^16) [] (fun h => { h with offset := 0 })
def oP (code : Nat) (fin : Bool) : Op := { opA code with len := 512, parts := [{ off := 0, len := 8, sent := true }, { off := 8, len := 8, sent := true, fin := fin }] }
def rspS (op : BitVec 8) : Strand := ws 5 op true 0 (List.replicate 8 5#8) (fun h => { h with msn := 5, flags := 0 })
def oPull : Op := { oP 0x0B false with owner := .pull 2 }
def tr : Strand := (rspS 3).trim
def atm : Strand := ws 6 2 false 0xFF [] (fun h => { h with addr := 0x10FF8 })
def arsp : Strand := ws 5 0x10 true 0xFFFFFFFFFFFFFFFF [] (fun h => { h with msn := 5, flags := 0 })
def lk (op : BitVec 8) (opw : Nat) : Strand := ws 7 op false opw [] (fun h => { h with addr := 0x10FF8 })
def tL (rs : List (Nat × LockRec)) : Dev := { t0 with clasp := { domains := [(4, { slot := 5, ranked := true, members := 2 })], recs := rs } }
def lr (da : Nat) : LockRec := { hp := 0, addr := 0x800FF8, f := F, domain := 4, state := .held, holder := some ⟨da, 3, 1, (lk 1 4).hdr⟩, seq := 8, reported := 5, reading := false }
def lrsp (op : BitVec 8) (opw : Nat) : Strand := ws 7 op true opw [] (fun h => { h with msn := 5, flags := 0 })
def tH (d : Dev) : Dev := { d with clasp := { d.clasp with held := [(1, 9, 6), (1, 9, 7)] } }
def gA : Group := { key := 0xAA, slot := 5, f := F, n := 2, scratch := 0x500000, size := 4096, table := [(2, 1), (9, 3)] }
def stepV : Nat := 2 + 1 * 2^8 + 1 * 2^44 + 3 * 2^64 + 2 * 2^66 + 0x33 * 2^76
def rk (steps : List Nat) : Rick := { slots := 1, flags := 0, minM := 1, maxM := 2, build := 0, crc := 0, steps := steps }
def csD : Bytes := patch (desc 0x28 [(4, toLe 4 64), (16, toLe 2 7), (18, toLe 2 2), (26, toLe 2 1)]) 24 [0x20#8]
def oC : Op := { opA 0x28 with desc := csD, len := 64 }
def cs : CStep := { no := 3, ix := 0, peers := [1], segs := [(0, 16)], left := 64, todo := 64, held := false }
def xi (s : InstState) (ss : List CStep) : Inst := { group := 7, ep := 1, rank := 0, op := 6, num := 5, rick := 2, state := s, steps := ss }
def tK (steps : List Nat) (x : Inst) (typ : Nat) : Dev := let d := tO oC typ; { d with coll := { d.coll with groups := [(7, gA)], ricks := [(2, rk steps)], insts := [(4, x)] } }
def sdS : Strand := ws 8 1 false (0xAA + 5 * 2^32 + 0x33 * 2^48 + 1 * 2^56) (zeros 8) (fun h => { h with flags := 0x41, offset := 8 })
def af : Strand := ws 8 2 false (3 + 0x55 * 2^32 + 6 * 2^64) [] (fun h => { h with flags := 0x41 })
def rx1 : Rx := { st := ws 4 3 false 8 [] id }
def rdD (use : Use) (len : Nat) (a : Option Acc) : Dev := { t0 with np := [(0, { rd := 3, f := F, addr := 0x1000, len := len, sent := true })], nextReq := 1, nextRead := 4, reads := [(3, { f := F, parts := [(0, none)], use := use })], xl := { t0.xl with accs := match a with | some a => [(2, a)] | none => [], nextAcc := 3 } }
def accR (use : Use) (remote : Bool) (len : Nat) : Acc := { slot := some 5, f := F, key := none, remote := remote, iova := 0x10F80, len := len, right := .r, region := .any, act := .read, use := use, st := .data }
def dS := rdD (.acc 2) 8 (some (accR (.source rx1) true 8))
def dT := sev [srcHost 0 7] dS
def dE := let d := rdD (.acc 2) 128 (some (accR (.ring 1 false 9 4 2) false 128)); { d with ept := { d.ept with eps := [(1, { ep1 with send := { base := 0x1000, n := 4, head := 4, scans := 10, scan := some { no := 9, i := 4, req := 20 } } })] } }
def dX := let d := rdD (.context 1) 256 none; { d with ept := { d.ept with eps := [(1, { ep1 with resident := false, fetching := true, pin := false })] } }
def rxA : Rx := { st := atm }
def dA := let d := rdD (.atomSer rxA F 0x800FF8) 8 none; { d with clasp := { d.clasp with busy := [{ hp := 0, addr := 0x800FF8 }, { hp := 1, addr := 0x800FF8 }] } }
def fl : Strand := ws 0 1 false 0 [] (fun h => { h with flags := 0x11 })
def fm : RxMsg := { hdr := fl.hdr, got := 70, total := some 70, last := some { st := fl }, flushing := true }
def dF := let d := rdD (.flush { st := fl }) 0 none; { d with xp := { d.xp with recvRecs := [(fl.hdr.rxKey, { next := 16777215, msgs := [(16777215, fm)] })], peers := [(9, { pe with rxReq := { pe.rxReq with held := [4294967295] } })] }, ept := { d.ept with eps := [(1, { ep1 with state := .active })] } }
def wk : Walk := { slot := 5, page := 0x123456789000, level := 3, table := 0x50000 }
def dW := let d := rdD (.walk 0 2) 8 none; updInst 0 (fun x => { x with walks := [(2, wk)] }) (setReg (XLAT 0 + 0x100) 1 (setReg (XLAT 0 + 0x108) 0xFFFFFFF000 d))
def ce : Cqe := { ts := 5, tq := 1, status := 0, ep := 1, dir := false, op := 1 }
def dH := let d := rdD (.cqHead 0) 4 none; updCq 0 (fun x => { x with wr := 64, waiting := [ce], reading := true }) d
def oD (code : Nat) (l : List (Nat × Bytes)) (flags : Nat) (len : Nat) : Op := { opA code with desc := patch (desc code l) 1 [BitVec.ofNat 8 flags, 0, BitVec.ofNat 8 (if flags / 4 % 2 = 1 then len else 0)], state := .waiting, msn := 0, len := len, left := 0 }
def tD (o : Op) : Dev := let d := tO o 0; { d with xp := { d.xp with sendRecs := [] } }
def body : List (Nat × Bytes) := [(16, toLe 8 0x20008), (24, toLe 4 0x177), (28, toLe 4 0x12345), (32, List.replicate 32 7#8)]
def oI (code : Nat) : Op := oD code body 5 32
def oT : Op := { oI 1 with trig := true, ext := some (3, 5) }
def tT : Dev := { tD oT with coll := { tC.coll with values := [(3, 5)] } }
def oW : Op := oD 1 [(32, toLe 8 0x10F00)] 1 200
def oRd : Op := oD 3 body 1 256
def oAt : Op := oD 0x10 [(16, toLe 8 0x20008), (28, [4]), (44, toLe 8 99), (52, toLe 8 100)] 1 8
def oL (c : Nat) : Op := oD c [(16, toLe 8 0x20008), (28, toLe 2 0xABC), (30, [9]), (44, toLe 4 77)] 1 0
def tKs : Dev := let d := tD { oC with state := .waiting }; { d with coll := { (tK [9] (xi .waiting []) 0).coll with insts := [] } }
def tV (tagged : Bool) : Dev := let d := tM []; { d with ept := { d.ept with eps := [(1, { ep1 with newRecv := [if tagged then rT else rcv 0x40 5, rcv 0x40 6] })] } }
def tSp : Dev := { t0 with mt := { ctxs := [(1, { cx with posted := [{ pQ with spilled := some 3 }], spilled := true })] } }
def tP : Dev := { t0 with ept := { t0.ept with eps := [(1, { ep1 with poll := true, send := { base := 0x10000, n := 4, head := 23, unowned := true, scans := 5 } })] } }
def pace : Pace := { t0 := 0, insts := [4], ports := [0, 2], assertLeft := [1], deassertLeft := [1] }
def tPc : Dev := let d := tK [9] (xi .releasing []) 0; { d with coll := { d.coll with pace := some pace } }
def tPw : Dev := setFld (COLL + 0x024) 24 1 1 tPc

theorem meets_BraidTimers :
    meets (Claims.increaseTimer 9 false) { t0 with xp := { t0.xp with peers := [(9, { pe with req := { q0 with queue := [{ cid := 0, data := [] }] } })] } } = true
      ∧ meets (Claims.idleReset 9 true) t0 = true
      ∧ meets (Claims.rateFloor 9 false) (sev [srcWin 12 2] { t0 with xp := { t0.xp with peers := [(9, { pe with req := { q0 with rate := 10, queue := [{ cid := 0, data := [] }] } })] } }) = true
      ∧ meetsE (Claims.slotReleases 9 true) sq = true
      ∧ meetsE (Claims.retransmitted 9 true 7) un = true
      ∧ meets (Claims.unreachableEnds 9) { t0 with xp := { t0.xp with peers := [(9, { pe with state := .unreachable })] } } = true
      ∧ meets (Claims.ackDelayEnds 9 false) { t0 with xp := { t0.xp with peers := [(9, { pe with rxReq := { pe.rxReq with sinceAck := 3 } })] } } = true
      ∧ meetsE (Claims.backoffEnds 4) bk = true
      ∧ meetsE (Claims.trimResent 4) bk = true
      ∧ meets (Claims.sendRecordFreed kk) { t0 with xp := { t0.xp with sendRecs := [(kk, {})] } } = true
      ∧ meets (Claims.recvRecordFreed kk) { t0 with xp := { t0.xp with recvRecs := [(kk, { next := 3 })] } } = true := by decide +kernel

theorem meets_AcknowledgementsAndRefusals :
    meetsE (Claims.parkedTrimmed wst) (pk .order) = true
      ∧ meetsE (Claims.contextLate wst) (pk .context) = true
      ∧ meetsE (Claims.ackCompletes ackS u7 6 (opA 1)) (tU (opA 1) 0) = true
      ∧ meetsE (Claims.nackNotReady (rsp 2 1 0) u7 cOp) (tR (opA 1) 0) = true
      ∧ meetsE (Claims.nackRefused (rsp 2 2 0x20) u7 cOp 6 (opA 1)) (tR (opA 1) 1) = true
      ∧ meetsE (Claims.trimNoticed (rsp 3 0 0) u7 cOp) (tR (opA 1) 0) = true
      ∧ meetsE (Claims.goneEnds gone 6 (opA 1)) (tR (opA 1) 1) = true
      ∧ meetsE (Claims.resyncRestarts rs 0x11) dr = true := by decide +kernel

theorem meets_DataStrands :
    meetsE (Claims.writePlaced wst) t0 = true
      ∧ meetsE (Claims.writeImmDone wi) t0 = true
      ∧ meetsE (Claims.putCountDone pc) tC = true
      ∧ meetsE (Claims.sendDelivered sd (rcv 0x40 69) [rcv 0x40 1]) tS = true
      ∧ meetsE (Claims.taggedDelivered tg pQ) (tM [pQ]) = true
      ∧ meetsE (Claims.rndvHeld rts) (tM [pQ]) = true
      ∧ meetsE (Claims.rndvEnds dn 6 oR) (tO oR 0) = true := by decide +kernel

theorem meets_ReadAndAtomicStrands :
    meetsE (Claims.readAsked (ws 4 3 false 120 [] id)) t0r = true
      ∧ meetsE (Claims.pullAsked pr) (tO oR 0) = true
      ∧ meetsE (Claims.readPartPlaced (rspS 3) 6 (oP 3 false) { off := 0, len := 8, sent := true }) (tO (oP 3 false) 0) = true
      ∧ meetsE (Claims.pullPartPlaced (rspS 0x0B) 6 oPull { off := 0, len := 8, sent := true }) (tO oPull 0) = true
      ∧ meetsE (Claims.readEnds (rspS 3) 6 (oP 3 true) { off := 0, len := 8, sent := true }) (tO (oP 3 true) 0) = true
      ∧ meetsE (Claims.readAgain tr 6 (oP 3 true) { off := 0, len := 8, sent := true }) (tO (oP 3 true) 0) = true
      ∧ meetsE (Claims.atomicBegins atm) t0 = true
      ∧ meetsE (Claims.atomicEnds arsp 6 (opA 0x10)) (tO (opA 0x10) 0) = true := by decide +kernel

theorem meets_LockStrands :
    meetsE (Claims.lockFirst (lk 1 4)) (tL []) = true
      ∧ meetsE (Claims.lockQueued (lk 1 (4 + 5 * 2^16)) 6 (lr 8)) (tL [(6, lr 8)]) = true
      ∧ meetsE (Claims.lockTried (lk 2 4) 6 (lr 8)) (tL [(6, lr 8)]) = true
      ∧ meetsE (Claims.lockGivenUp (lk 3 (4 + 8 * 2^32)) 6 (lr 9)) (tL [(6, lr 9)]) = true
      ∧ meetsE (Claims.lockGranted (lrsp 0x81 (2 + 6 * 256)) 6 (opA 0x18)) (tO (opA 0x18) 0) = true
      ∧ meetsE (Claims.lockBusyEnds (lrsp 0x82 0x50) 6 (opA 0x19)) (tO (opA 0x19) 1) = true
      ∧ meetsE (Claims.lockRemovedEnds (lrsp 0x85 0x51) 6 (opA 0x18)) (tO (opA 0x18) 1) = true
      ∧ meetsE (Claims.lockReleasedEnds (lrsp 0x84 (6 * 256)) 6 (opA 0x1A)) (tH (tO (opA 0x1A) 0)) = true
      ∧ meetsE (Claims.lockInherited (lrsp 0x83 (6 * 256 + 255 * 2^64))) (tH t0) = true := by decide +kernel

theorem meets_CollectiveStrandsAndHostReads :
    meetsE (Claims.stepPlacedAt sdS 4 (xi .running [cs]) cs 0) (tK [stepV, 9] (xi .running [cs]) 0) = true
      ∧ meetsE (Claims.armFired af) tC = true
      ∧ meetsE (Claims.readServed 0 [1, 2] rx1) dS = true
      ∧ meetsE (Claims.readTimesOut 0 rx1) dT = true
      ∧ meetsE (Claims.entryNotOwned 0 (zeros 128) 1 false 9 4 2) dE = true
      ∧ meetsE (Claims.contextCame 0 (zeros 256) 1) dX = true
      ∧ meetsE (Claims.atomicDone 0 [7] rxA F 0x800FF8) dA = true
      ∧ meetsE (Claims.flushed 0 { st := fl } fm) dF = true
      ∧ meetsE (Claims.walkDescends 0 (toLe 8 0x7000B) 0 2 wk) dW = true
      ∧ meetsE (Claims.headRead 0 [1] 0 ce) dH = true := by decide +kernel

theorem meets_SendDescriptors :
    meetsE (Claims.writeBegins 1 6 (oI 1)) (tD (oI 1)) = true
      ∧ meetsE (Claims.writeImmBegins 1 6 (oI 2)) (tD (oI 2)) = true
      ∧ meetsE (Claims.putCountBegins 1 6 (oI 4)) (tD (oI 4)) = true
      ∧ meetsE (Claims.sendBegins 1 6 (oI 8)) (tD (oI 8)) = true
      ∧ meetsE (Claims.taggedBegins 1 6 (oI 9)) (tD (oI 9)) = true
      ∧ meetsE (Claims.triggeredBegins 1 6 oT) tT = true
      ∧ meetsE (Claims.writeReads 1 6 oW) (tD oW) = true
      ∧ meetsE (Claims.readBegins 1 6 oRd) (tD oRd) = true
      ∧ meetsE (Claims.atomicSends 1 6 oAt) (tD oAt) = true
      ∧ meetsE (Claims.acquireSends 1 6 (oL 0x18)) (tD (oL 0x18)) = true
      ∧ meetsE (Claims.trySends 1 6 (oL 0x19)) (tD (oL 0x19)) = true
      ∧ meetsE (Claims.releaseSends 1 6 (oL 0x1A)) (tD (oL 0x1A)) = true
      ∧ meetsE (Claims.nopCompletes 1 6 (oL 0)) (tD (oL 0)) = true := by decide +kernel

theorem meets_ReceivesAndInstances :
    meetsE (Claims.collMade 1 6 { oC with state := .waiting }) tKs = true
      ∧ meetsE (Claims.recvPosted 1 (rcv 0x40 5) [rcv 0x40 6]) (tV false) = true
      ∧ meetsE (Claims.taggedPosted 1 rT [rcv 0x40 6]) (tV true) = true
      ∧ meetsE (Claims.spillReturned 1) tSp = true
      ∧ meetsE (Claims.ringPolled 1) tP = true
      ∧ meetsE (Claims.instEnds 4 (xi .waiting []) oC) (tK [9] (xi .waiting []) 0) = true
      ∧ meetsE (Claims.instTimesOut 4 (xi .running []) oC gA) (tK [stepV, 9] (xi .running []) 1) = true
      ∧ meetsE (Claims.releaseDelivered 0 4 (xi .releasing []) oC pace) tPc = true
      ∧ meetsE (Claims.prewarnRises 1 pace) tPw = true
      ∧ meetsE (Claims.prewarnFalls 1) { t0 with coll := { t0.coll with prewarn := 3 } } = true
      ∧ meetsE (Claims.probeAnswered C 5 0x10FFF) t0 = true := by decide +kernel

end Strands

namespace Boot

def fr : Dev := { Dev.reset with clk := 5, nv := { Dev.reset.nv with lc := 2, bootMode := 0, incarnation := 255 } }

theorem meets_ResetAndBootEvents :
    meetsE Claims.bootSequence fr = true := by decide +kernel

end Boot

namespace Ricks

def steps : Bytes := toLe 16 (9 + 3 * 2 ^ 64 + 3 * 2 ^ 66)
def img : Bytes := toLe 4 0x4B434952 ++ toLe 2 1 ++ toLe 2 1 ++ toLe 1 16 ++ toLe 3 0 ++ toLe 4 1 ++ toLe 4 1048576 ++ toLe 8 77 ++ toLe 4 (crc32 steps).toNat ++ zeros 32 ++ steps
def wr : Dev := { w0 with mnt := { w0.mnt with data := cellsWrite [] 65456 img } }

theorem meets_CollectiveCommands :
    meetsE (Claims.collRickLoad C 1023 65456 80) wr = true := by decide +kernel

end Ricks


/-! ### Witnesses of the statements about shared rules -/

namespace G

def cells : List Host.Cell := cellsWrite [] 4094 [1, 0, 3, 4]

/-- O4: a state whose stores hold something, and a step from it. -/
theorem meets_StoresWfKept : cellsWf cells = true ∧ StoresWf { w0 with nv := { w0.nv with peat := cells, flash := cells }, mnt := { w0.mnt with data := cells } } := by
  unfold StoresWf; decide +kernel

/-- O5: a zero byte leaves no entry; a write inside it, at its ends and one past it. -/
theorem meets_StoreReadBack : cellsWf cells = true ∧ cells.length = 3 ∧ cellAt cells 4095 = 0 ∧ cellAt cells 4097 = 4
    ∧ cellsWrite cells 4094 (zeros 4) = [] := by decide +kernel

/-- A header with no field zero. -/
def h : Hdr := { lsn := 0xABCDE, ttl := 21, defl := 2, trim := false, ce := 3, vn := true, ver := 2, tc := 3, kind := 11, ord := 9, entropy := 0xBEEF, rsv62 := 2, dstDa := 0x1ABCD, dstEp := 0xF0F0F, srcDa := 0x0FEDC, srcEp := 0x12345, job := 0xCAFE, bgen := 0x5A, op := 0xA5, flags := 0x81, len := 150, rsv191 := true, bsn := 0xDEADBEEF, msn := 0xABCDEF, rsv248 := 0x77, offset := 0x12345678, key := 0x9ABCDEF0, addr := 0x123456789ABCDEF0, opw := 0x0123456789ABCDEFFEDCBA9876543210 }

def cs : List Chunk := [⟨(List.range 100).map (BitVec.ofNat 8), false⟩, ⟨(List.range 50).map (BitVec.ofNat 8), true⟩]

/-- O8 and O9: 64 bytes; payloads of 150, 4,096 and no bytes, and a trimmed strand. -/
theorem meets_StrandStructure : h.encode.length = 64
    ∧ (bytesOf cs).length = h.len.toNat ∧ h.len.toNat ≤ 4096 ∧ h.trim = false
    ∧ (bytesOf [⟨zeros 4096, false⟩]).length = ({ h with len := 4096 } : Hdr).len.toNat
    ∧ (bytesOf []).length = ({ h with len := 0, trim := true } : Hdr).len.toNat := by decide +kernel

/-- O11: the beads of that strand are good; two of its payload beads carry T.POISON. -/
theorem meets_StompedBeads : (mkStrand h cs).allBeads.map (fun b => (b.classify = .good : Bool)) = [true, true, true, true]
    ∧ (mkStrand h cs).allBeads.map Bead.poisoned = [false, false, true, true] := by decide +kernel

/-- O12: words that are NaNs and words that are not. -/
theorem meets_AtomicWords : fp64.isNan 0x7FF0000000000001 = true ∧ fp64.isNan 0x7FF0000000000000 = false
    ∧ fp64.isNan 0xFFFFFFFFFFFFFFFF = true ∧ fp64.isNan 0x8000000000000001 = false := by decide +kernel

/-- O13: one more than 2^63 ahead. -/
theorem meets_ThresholdReached : 2 ^ 63 < ((2 ^ 63 + 1 : BitVec 64) - 0).toNat := by decide

/-- The Braid of the example of chapter 9, in nanoseconds from its beginning. -/
def s0 : SendHalf := { rate := 2000, alpha := 256, srtt := some 2400 }

def at' (t : Nat) : Dev := { Dev.reset with clk := 1000000 + t }

/-- O14 and O15: at the end of the cut interval, one nanosecond before it, and rates at both ends of their range. -/
theorem meets_CongestionCuts : mayCut (at' 2900) (rateEcho (at' 500) s0) ∧ ¬ mayCut (at' 2899) (rateEcho (at' 500) s0)
    ∧ mayCut (at' 500) s0 ∧ rateOk { s0 with rate := 10, alpha := 1024 } ∧ rateOk { s0 with rate := 4000, alpha := 0 } := by
  unfold mayCut rateOk; decide +kernel

/-- O16 and O17: a function that may read and write, with room for the reads, and with none left. -/
theorem meets_TransfersAreSplit : mayIssue w0 F = true ∧ frozen w0 = false ∧ (fn w0 F).bme = true
    ∧ outstanding w0 F.hp + (tlps (fn w0 (pf F.hp)).mrrs 4090 1100).length ≤ 768
    ∧ withinTags w0 := by
  refine ⟨by decide +kernel, by decide +kernel, by decide +kernel, by decide +kernel, fun h => ?_⟩
  show 0 ≤ 768
  decide

/-- O18: a queue in its first and its second pass. -/
def cq0 (wr : Nat) : Dev := { w0 with ept := { w0.ept with cqs := [(0, { f := F, base := 0x10000, n := 6, head := 0x20000, eq := some 0, armed := false, whole := true, wr := wr })] } }

theorem meets_CompletionWrites : (∀ x, cq? (cq0 63) 0 = some x → entriesFit (cq0 63) x ∧ x.armed = false)
    ∧ (cq? (cq0 64) 0).isSome = true := by
  refine ⟨fun x h => ?_, by decide +kernel⟩
  cases h; unfold entriesFit; decide +kernel

/-- O19: a vector that may be sent, and masked ones. -/
def vec (m : Bool) : Dev := updFn F (fun x => { x with msix := [(5, { addr := 0xFEE00000, data := 0x41, mask := m, pend := false })] }) w0

theorem meets_VectorRequests : ((mget (fn (vec false) F).msix 5).getD {}).mask = false ∧ (fn (vec false) F).fnMask = false
    ∧ (fn (vec false) F).msixEn = true ∧ (fn (vec false) F).bme = true ∧ mayIssue (vec false) F = true ∧ frozen (vec false) = false
    ∧ 4 ≤ (fn (vec false) (pf F.hp)).mps ∧ ((mget (fn (vec true) F).msix 5).getD {}).mask = true := by decide +kernel

/-- O20: sources that are not reserved, one of each severity. -/
def sev (v : Nat) : Dev := { w0 with flt := { w0.flt with sev := [(srcWin 15 4, v)] } }

theorem meets_OccurrenceHandled : srcReserved (srcWin 15 4) = false
    ∧ (List.range 5).map (fun v => sevApplied (sev v) (srcWin 15 4) false) = [0, 1, 2, 3, 4] := by decide +kernel

/-- O21: a counter about to wrap, alone, the even of a pair, and the odd of a pair. -/
def cnt (l : List Nat) : Dev := { setReg (XLAT 0 + 0x208) 7 (setReg (XLAT 0 + 0x200) (2 ^ 48 - 1) Dev.reset) with chains := l }

theorem meets_CountersCount : (reg (cnt []) (XLAT 0 + 0x200)).toNat = 2 ^ 48 - 1 ∧ chainedOdd (cnt []) (XLAT 0 + 0x200) = false
    ∧ chainedOdd (cnt [XLAT 0 + 0x200]) (XLAT 0 + 0x200) = false ∧ chainedOdd (cnt [XLAT 0 + 0x200]) (XLAT 0 + 0x208) = true
    ∧ (reg (cnt []) (XLAT 0 + 0x208)).toNat < 2 ^ 48 := by decide +kernel

/-- O22: a VF sends a command that is not open to it. -/
def V : Func := ⟨0, 3⟩

def CV : AdminCtx := { path := .ring V, seq := 9, index := 4, intr := false, replyData := 0 }

def dv : Dev := { Dev.reset with fns := [(0, { bme := true, mps := 256 }), (3, { bme := true, adm := { live := true, en := true, lRsp := 0x8FF0, lSize := 4 } })] }

theorem meets_VfCommandsRefused : (Instr.portRoleSet CV 3 1 0).adminPart = some ⟨0x0802, CV, [3, 1, 0]⟩
    ∧ adminCmds.any (fun m => m.op == 0x0802 && !m.vf) = true ∧ AdminPart.wellFormed ⟨0x0802, CV, [3, 1, 0]⟩ = true
    ∧ atRest dv = true ∧ pathExists dv (.ring V) = true ∧ canWrite dv V 33 = true := by decide +kernel

end G

/-! ### Ill-formed commands are refused -/

namespace Ill

def good : Bead := idleBead

theorem test_seq : (Instr.identify { C with seq := 2 ^ 32 }).wellFormed = false ∧ (Instr.identify C).wellFormed = true := by decide
theorem test_index : (Instr.identify { C with index := 2 ^ 16 }).wellFormed = false := by decide
theorem test_replyData : (Instr.identify { C with replyData := 2 ^ 64 }).wellFormed = false := by decide
theorem test_parameter : (Instr.portQuery C 256).wellFormed = false ∧ (Instr.portQuery C 255).wellFormed = true := by decide
theorem test_parameters : AdminPart.wellFormed ⟨0x0804, C, [1, 2]⟩ = false := by decide
theorem test_strand : (Instr.sendStrand ⟨{}, 0, List.replicate 65 good⟩).wellFormed = false
    ∧ (Instr.sendStrand ⟨{}, 0, List.replicate 64 good⟩).wellFormed = true := by decide +kernel
theorem test_strandBead : (Instr.sendStrand ⟨{}, 0, [{ good with content := zeros 63 }]⟩).wellFormed = false := by decide
theorem test_frame : (Instr.linkAck 3 ⟨1, zeros 16, 0, true⟩).wellFormed = false ∧ (Instr.linkAck 3 ⟨1, zeros 15, 0, true⟩).wellFormed = true := by decide
theorem test_bead : (Instr.beadArrival 3 { good with content := zeros 65 }).wellFormed = false := by decide
theorem test_readData : (Instr.hostReadComplete 8 .ok (zeros 4097)).wellFormed = false ∧ (Instr.hostReadComplete 8 .ok (zeros 4096)).wellFormed = true := by
  decide +kernel
theorem test_endpoint : (Instr.send (2 ^ 20)).wellFormed = false ∧ (Instr.send (2 ^ 20 - 1)).wellFormed = true := by decide
theorem test_ctrlEn : (Instr.ctrlEnSet .maint 0 (2 ^ 32)).wellFormed = false ∧ (Instr.ctrlEnClear .maint 0 (2 ^ 32)).wellFormed = false := by decide
theorem test_access : (Instr.registerWrite .maint 0 16 1 false).wellFormed = false ∧ (Instr.registerWrite .maint 0 32 (2 ^ 32) false).wellFormed = false
    ∧ (Instr.registerWrite .maint 0 64 (2 ^ 32) false).wellFormed = true := by decide
theorem test_rxWidth : (Instr.rxDataRead .maint 8).wellFormed = false := by decide
theorem test_cq : (Instr.cqArm F (2 ^ 16)).wellFormed = false := by decide
theorem test_eq : (Instr.eqModerationTimer F 256).wellFormed = false := by decide
theorem test_vector : (Instr.msixUnmask F 2048 .mask).wellFormed = false := by decide
theorem test_engines : (Instr.bootSequence [(72, 0)]).wellFormed = false ∧ (Instr.bootSequence [(71, 256)]).wellFormed = false := by decide
theorem test_sensors : (Instr.thermalReading []).wellFormed = false := by decide
theorem test_rails : (Instr.pmbusPoll []).wellFormed = false ∧ (Instr.pmAlert []).wellFormed = false := by decide
theorem test_source : (Instr.containmentAction 1024).wellFormed = false := by decide

end Ill

/-! ### Examples worked in the spec -/

namespace Ex

/-- The header of the example after R47 (chapter 2). -/
def h : Hdr := { tc := 2, ord := 3, entropy := 0x4B1D, ce := 1, epoch := true, len := 1500, dstDa := 0x12353, srcDa := 0x00A05 }

/-- Chapter 2: header bytes 4 to 7, and bits [31:0] on the four links. -/
theorem test_header : slice h.encode 4 4 = [0x08, 0x4C, 0xC7, 0x12]
    ∧ leAt { h with ttl := 11, lsn := 0x05A3C }.encode 0 4 = 0x90B05A3C ∧ leAt { h with ttl := 10, defl := 1, lsn := 0x80017 }.encode 0 4 = 0x92A80017
    ∧ leAt { h with ttl := 9, defl := 1, ce := 3, lsn := 0x331F0 }.encode 0 4 = 0xB29331F0
    ∧ leAt { h with ttl := 8, defl := 1, ce := 3, lsn := 0xFFFE2 }.encode 0 4 = 0xB28FFFE2 := by decide +kernel

/-- Chapter 4: from the seed 0xACE1 the step leaves 0x5670. -/
theorem test_lfsr : lfsr16 0xACE1 = 0x5670 := by decide

/-- Chapter 9, steps 2 to 4: an echo, an echo inside the cut interval, a trim notice. -/
theorem test_rateCuts :
    let s2 := rateEcho (G.at' 500) G.s0
    let s4 := rateCut (G.at' 2000) (rateEcho (G.at' 1700) s2)
    (s2.alpha, s2.rate, s2.rBefore) = (304, 1703, 2000) ∧ s4.rate = 1000 := by decide +kernel

/-- Chapter 9, steps 5, 6 and 7: the first, the ninth and the tenth firing of the increase timer. -/
theorem test_rateIncreases :
    let s (n : Nat) := (List.range n).foldl (fun s i => rateIncrease (G.at' (2000 + 10000 * (i + 1))) s)
      { G.s0 with alpha := 304, rate := 1000, lastEvent := 1002000 }
    ((s 1).alpha, (s 1).rate) = (285, 1005) ∧ ((s 9).alpha, (s 9).rate) = (174, 1045) ∧ ((s 10).alpha, (s 10).rate) = (164, 1095) := by
  decide +kernel

/-- A port of the router in the example of chapter 10: its neighbour, its depth in cells, the hint it received, its role. -/
def p (nb : Nat × Nat) (depth hint role : Nat) : Port :=
  { portReset 0 with state := 2, role := role, neighbour := some nb, hintReq := hint
                     out := { qs := [[], [], [{ st := ⟨h, 0, []⟩, cells := depth }], [], [], [], [], []] } }

/-- Chapter 10: PORT[70] is above its threshold and PORT[88] has the least cost: the strand leaves there, deflected. -/
theorem test_router :
    let d : Dev := { Dev.reset with rtr := { Dev.reset.rtr with da := 0xA16, daValid := true, group := [(2048 + 1165, 0x00DF83D8000000C6)] }
                                    ports := [(3, p (0xA1E, 0) 150 9 0), (5, { p (0xA05, 12) 0 0 0 with out := {} }), (70, p (0x12343, 0) 4410 2 1), (88, p (0xE104, 0) 600 3 1), (95, p (108800, 0) 4200 1 1)] }
    decide284 (setFld (RTR + 0x030) 0 5 8 d) { h with ttl := 11 } (some 5) = .deflect 88 := by decide +kernel

/-- Chapter 16: the 64 bytes of EQ_CREATE are read as its operands. -/
theorem test_eqCreate : (AdminPart.wellFormed ⟨0x0230, C, [0, 5, 0x4012340000, 10, 0x401234F000, 37, 16, 20]⟩) = true
    ∧ (packOffsets 8 (sizesOf 0x0230)).map (·.1) = [8, 9, 16, 24, 32, 40, 42, 44] := by decide +kernel

end Ex

end Sys2Proof.Tests
end

/-! The trailer of a bead: which bit holds what, and what a receiver reads back of it (R37). -/

namespace Sys2Proof

open Sys2Proof.Machine

theorem b2n_le_one (b : Bool) : b2n b ≤ 1 := by
  cases b <;> decide

/-- The fields of a trailer do not overlap and fill 16 bits, so that nothing of their sum is cut off. -/
theorem mkTrailer_toNat (k l p : Bool) (c : BitVec 13) :
    (mkTrailer k l p c).toNat = b2n k + 2 * b2n l + 4 * b2n p + 8 * c.toNat := by
  have hk := b2n_le_one k
  have hl := b2n_le_one l
  have hp := b2n_le_one p
  have hc := c.isLt
  rw [mkTrailer, BitVec.toNat_ofNat, Nat.mod_eq_of_lt (by omega)]

/-- Bit `j` of a trailer, as a quotient's parity. -/
theorem mkTrailer_getLsbD (k l p : Bool) (c : BitVec 13) (j : Nat) :
    (mkTrailer k l p c).getLsbD j
      = decide ((b2n k + 2 * b2n l + 4 * b2n p + 8 * c.toNat) / 2 ^ j % 2 = 1) := by
  rw [← BitVec.testBit_toNat, mkTrailer_toNat, Nat.testBit_eq_decide_div_mod_eq]

theorem b2n_eq_one (b : Bool) : decide (b2n b = 1) = b := by
  cases b <;> decide

@[simp] theorem mkTrailer_bit0 (k l p : Bool) (c : BitVec 13) : (mkTrailer k l p c).getLsbD 0 = k := by
  have hk := b2n_le_one k
  have hbit : (b2n k + 2 * b2n l + 4 * b2n p + 8 * c.toNat) / 2 ^ 0 % 2 = b2n k := by omega
  rw [mkTrailer_getLsbD, hbit, b2n_eq_one]

@[simp] theorem mkTrailer_bit1 (k l p : Bool) (c : BitVec 13) : (mkTrailer k l p c).getLsbD 1 = l := by
  have hk := b2n_le_one k
  have hl := b2n_le_one l
  have hbit : (b2n k + 2 * b2n l + 4 * b2n p + 8 * c.toNat) / 2 ^ 1 % 2 = b2n l := by omega
  rw [mkTrailer_getLsbD, hbit, b2n_eq_one]

@[simp] theorem mkTrailer_bit2 (k l p : Bool) (c : BitVec 13) : (mkTrailer k l p c).getLsbD 2 = p := by
  have hk := b2n_le_one k
  have hl := b2n_le_one l
  have hp := b2n_le_one p
  have hbit : (b2n k + 2 * b2n l + 4 * b2n p + 8 * c.toNat) / 2 ^ 2 % 2 = b2n p := by omega
  rw [mkTrailer_getLsbD, hbit, b2n_eq_one]

/-! What a receiver reads of a bead with such a trailer. -/

@[simp] theorem Bead.kind_mkTrailer (bs : Bytes) (k l p : Bool) (c : BitVec 13) :
    (Bead.mk bs (mkTrailer k l p c)).kind = k :=
  mkTrailer_bit0 k l p c

@[simp] theorem Bead.last_mkTrailer (bs : Bytes) (k l p : Bool) (c : BitVec 13) :
    (Bead.mk bs (mkTrailer k l p c)).last = l :=
  mkTrailer_bit1 k l p c

@[simp] theorem Bead.poisoned_mkTrailer (bs : Bytes) (k l p : Bool) (c : BitVec 13) :
    (Bead.mk bs (mkTrailer k l p c)).poisoned = p :=
  mkTrailer_bit2 k l p c

@[simp] theorem Bead.crc_mkTrailer (bs : Bytes) (k l p : Bool) (c : BitVec 13) :
    (Bead.mk bs (mkTrailer k l p c)).crc = c := by
  have hk := b2n_le_one k
  have hl := b2n_le_one l
  have hp := b2n_le_one p
  have hquot : (mkTrailer k l p c).toNat / 8 = c.toNat := by
    rw [mkTrailer_toNat]
    omega
  rw [Bead.crc, hquot, BitVec.ofNat_toNat, BitVec.setWidth_eq]

/-- T.CRC stands in bits 15 to 3 of the trailer. -/
theorem Bead.crc_getLsbD (b : Bead) (i : Nat) (hi : i < 13) :
    b.crc.getLsbD i = b.trailer.getLsbD (3 + i) := by
  rw [Bead.crc, BitVec.getLsbD_ofNat, ← BitVec.testBit_toNat, Nat.add_comm 3 i, Nat.testBit_add]
  simp [hi]

theorem Bead.stomp_crc (b : Bead) : b.stomp.crc = b.computed ^^^ 0x1FFF#13 :=
  Bead.crc_mkTrailer ..

theorem mkTrailer_crcBit (k l p : Bool) (c : BitVec 13) (i : Nat) (hi : i < 13) :
    (mkTrailer k l p c).getLsbD (3 + i) = c.getLsbD i := by
  rw [← Bead.crc_getLsbD ⟨[], mkTrailer k l p c⟩ i hi, Bead.crc_mkTrailer]

/-- Settles O6: the trailer's fields lie side by side in 16 bits, so each bit is read back from its own field. -/
theorem trailerLayout : Obligations.TrailerLayout := by
  unfold Obligations.TrailerLayout
  refine ⟨fun k l p c => ?_, fun b => ?_, ?_⟩
  · exact ⟨mkTrailer_bit0 .., mkTrailer_bit1 .., mkTrailer_bit2 .., mkTrailer_crcBit k l p c⟩
  · exact ⟨rfl, rfl, rfl, b.crc_getLsbD, b.stomp_crc⟩
  · exact ⟨Bead.last_mkTrailer .., Bead.kind_mkTrailer .., Bead.poisoned_mkTrailer ..⟩

end Sys2Proof

/-! The beads of a strand: how payload bytes are cut into beads, and how the receiver joins them again (R44). -/

namespace Sys2Proof

open Sys2Proof.Machine

/-! ### Bytes -/

@[simp] theorem toLe_length (n v : Nat) : (toLe n v).length = n := by
  induction n generalizing v with
  | zero => rfl
  | succ n ih => rw [toLe, List.length_cons, ih]

theorem Hdr.encode_length (h : Hdr) : h.encode.length = 64 :=
  toLe_length ..

theorem padTo_length (n : Nat) (bs : Bytes) : (padTo n bs).length = n := by
  simp only [padTo, zeros, List.length_append, List.length_take, List.length_replicate]
  omega

theorem padTo_of_length_eq {n : Nat} {bs : Bytes} (h : bs.length = n) : padTo n bs = bs := by
  simp [padTo, zeros, h, List.take_of_length_le]

/-- Padding changes no byte that is read with 0 beyond the end. -/
theorem padTo_getD (n : Nat) (bs : Bytes) (k : Nat) (hk : k < n) : (padTo n bs).getD k 0 = bs.getD k 0 := by
  simp only [padTo, zeros, List.getD_eq_getElem?_getD]
  by_cases h : k < bs.length
  · rw [List.getElem?_append_left (by rw [List.length_take]; omega), List.getElem?_take_of_lt hk]
  · have htake : (bs.take n).length ≤ k := by
      rw [List.length_take]
      omega
    have hpad : k - (bs.take n).length < n - bs.length := by
      rw [List.length_take]
      omega
    rw [List.getElem?_append_right htake, List.getElem?_replicate_of_lt hpad,
      List.getElem?_eq_none (Nat.le_of_not_lt h), Option.getD_some, Option.getD_none]

/-- Padded bytes cut back to at least their number are the bytes. -/
theorem padTo_take {n m : Nat} {bs : Bytes} (hn : bs.length ≤ n) (hm : bs.length = min n m) :
    (padTo n bs).take m = bs := by
  rw [padTo, List.take_of_length_le hn]
  by_cases h : n ≤ m
  · have hfull : n - bs.length = 0 := by omega
    rw [hfull]
    simp [zeros, List.take_of_length_le, show bs.length ≤ m by omega]
  · rw [List.take_append_of_le_length (by omega), List.take_of_length_le (by omega)]

theorem ceilDiv_of_pos {n : Nat} (h : 0 < n) : ceilDiv n 64 = ceilDiv (n - 64) 64 + 1 := by
  simp only [ceilDiv]
  omega

theorem lt_ceilDiv_iff (i n : Nat) : i < ceilDiv n 64 ↔ 64 * i < n := by
  simp only [ceilDiv]
  omega

/-! ### Payload beads -/

/-- The first bead that `beadsOf` cuts from marked bytes. -/
def leadBead (bs : List (Byte × Bool)) : Bead :=
  let c := padTo 64 ((bs.take 64).map (·.1))
  ⟨c, mkTrailer false (bs.drop 64).isEmpty ((bs.take 64).any (·.2)) (payloadCrc c (bs.drop 64).isEmpty)⟩

@[simp] theorem leadBead_kind (bs : List (Byte × Bool)) : (leadBead bs).kind = false :=
  Bead.kind_mkTrailer ..

@[simp] theorem leadBead_last (bs : List (Byte × Bool)) : (leadBead bs).last = decide (bs.length ≤ 64) := by
  rw [leadBead, Bead.last_mkTrailer, Bool.eq_iff_iff]
  simp

@[simp] theorem leadBead_content_length (bs : List (Byte × Bool)) : (leadBead bs).content.length = 64 :=
  padTo_length ..

theorem leadBead_content_getD (bs : List (Byte × Bool)) (k : Nat) (hk : k < 64) :
    (leadBead bs).content.getD k 0 = (bs.map (·.1)).getD k 0 := by
  rw [leadBead, padTo_getD _ _ _ hk]
  simp [List.getD_eq_getElem?_getD, hk]

theorem leadBead_content_take (bs : List (Byte × Bool)) :
    (padTo 64 (leadBead bs).content).take bs.length = (bs.take 64).map (·.1) := by
  rw [padTo_of_length_eq (leadBead_content_length bs), leadBead]
  have hlen : ((bs.take 64).map (·.1)).length = min 64 bs.length := by
    rw [List.length_map, List.length_take]
  exact padTo_take (by omega) hlen

@[simp] theorem beadsOf_nil (fuel : Nat) : beadsOf fuel [] = [] := by
  cases fuel <;> rfl

theorem beadsOf_succ (fuel : Nat) {bs : List (Byte × Bool)} (h : bs ≠ []) :
    beadsOf (fuel + 1) bs = leadBead bs :: beadsOf fuel (bs.drop 64) := by
  rw [beadsOf, if_neg h]
  rfl

/-- With fuel enough, bead `i` is cut from the bytes from `64 * i` on, as long as there are any. -/
theorem beadsOf_eq (fuel : Nat) (bs : List (Byte × Bool)) (hfuel : bs.length ≤ 64 * fuel) :
    beadsOf fuel bs = (List.range (ceilDiv bs.length 64)).map (fun i => leadBead (bs.drop (64 * i))) := by
  induction fuel generalizing bs with
  | zero =>
    rw [List.eq_nil_of_length_eq_zero (by omega : bs.length = 0)]
    rfl
  | succ fuel ih =>
    by_cases hbs : bs = []
    · rw [hbs]
      rfl
    · have hrest : (bs.drop 64).length ≤ 64 * fuel := by
        rw [List.length_drop]
        omega
      rw [beadsOf_succ fuel hbs, ih _ hrest, ceilDiv_of_pos (List.length_pos_iff.2 hbs), List.range_succ_eq_map]
      simp [List.drop_drop, Nat.mul_succ, Nat.add_comm, Function.comp_def]

/-! ### The receiver's side -/

/-- The chunk that a receiver takes from a payload bead at its place in a payload of `n` bytes. -/
def chunkOfBead (n : Nat) (p : Bead × Nat) : Option Chunk :=
  let left := n - 64 * p.2
  if left = 0 then none else some ⟨(padTo 64 p.1.content).take left, p.1.poisoned⟩

theorem Strand.chunks_eq (s : Strand) : s.chunks = s.beads.zipIdx.filterMap (chunkOfBead s.hdr.len.toNat) :=
  rfl

/-- Beads cut from the last bytes of a payload, the first of them its bead `j`, give those bytes back. -/
theorem chunksOf_beadsOf (n fuel j : Nat) (bs : List (Byte × Bool)) (hbs : bs.length = n - 64 * j)
    (hfuel : bs.length ≤ 64 * fuel) :
    ((((beadsOf fuel bs).zipIdx j).filterMap (chunkOfBead n)).map (·.bytes)).flatten = bs.map (·.1) := by
  induction fuel generalizing bs j with
  | zero =>
    rw [List.eq_nil_of_length_eq_zero (by omega : bs.length = 0)]
    rfl
  | succ fuel ih =>
    by_cases hnil : bs = []
    · simp [hnil]
    · have hpos := List.length_pos_iff.2 hnil
      have hlead : chunkOfBead n (leadBead bs, j) = some ⟨(bs.take 64).map (·.1), (leadBead bs).poisoned⟩ := by
        simp only [chunkOfBead]
        rw [if_neg (by omega), ← hbs, leadBead_content_take]
      have hrest := ih (j + 1) (bs.drop 64) (by rw [List.length_drop]; omega) (by rw [List.length_drop]; omega)
      rw [beadsOf_succ fuel hnil, List.zipIdx_cons, List.filterMap_cons_some hlead, List.map_cons, List.flatten_cons,
        hrest, ← List.map_append, List.take_append_drop]

/-! ### Strands as their source makes them -/

theorem markBytes_fst (cs : List Chunk) : (markBytes cs).map (·.1) = Claims.bytesOf cs := by
  simp [markBytes, Claims.bytesOf, List.map_flatten, Function.comp_def]

theorem markBytes_length (cs : List Chunk) : (markBytes cs).length = (Claims.bytesOf cs).length := by
  rw [← markBytes_fst, List.length_map]

@[simp] theorem mkStrand_trim (h : Hdr) (cs : List Chunk) : (mkStrand h cs).hdr.trim = h.trim := rfl

@[simp] theorem mkStrand_len (h : Hdr) (cs : List Chunk) : (mkStrand h cs).hdr.len = h.len := rfl

theorem mkStrand_beads {h : Hdr} (cs : List Chunk) (ht : h.trim = false) : (mkStrand h cs).beads = mkBeads cs := by
  simp [mkStrand, ht]

theorem mkStrand_allBeads {h : Hdr} (cs : List Chunk) (ht : h.trim = false) :
    (mkStrand h cs).allBeads = (mkStrand h cs).headBead :: mkBeads cs := by
  simp [Strand.allBeads, ht, mkStrand_beads cs ht]

theorem mkStrand_allBeads_trimmed {h : Hdr} (cs : List Chunk) (ht : h.trim = true) :
    (mkStrand h cs).allBeads = [(mkStrand h cs).headBead] := by
  simp [Strand.allBeads, ht]

@[simp] theorem Strand.headBead_kind (s : Strand) : s.headBead.kind = true :=
  Bead.kind_mkTrailer ..

@[simp] theorem Strand.headBead_last (s : Strand) : s.headBead.last = (s.hdr.trim || s.beads.isEmpty) :=
  Bead.last_mkTrailer ..

@[simp] theorem Strand.headBead_content_length (s : Strand) : s.headBead.content.length = 64 :=
  s.hdr.encode_length

section
variable {cs : List Chunk} {n : Nat} (hn : (Claims.bytesOf cs).length = n) (hmax : n ≤ 4096)
include hn hmax

/-- The payload beads of at most 4,096 bytes: bead `i` carries the bytes from `64 * i` on. -/
theorem mkBeads_eq : mkBeads cs = (List.range (ceilDiv n 64)).map (fun i => leadBead ((markBytes cs).drop (64 * i))) := by
  have hlen := (markBytes_length cs).trans hn
  rw [mkBeads, beadsOf_eq 65 _ (by omega), hlen]

theorem mkBeads_length : (mkBeads cs).length = ceilDiv n 64 := by
  rw [mkBeads_eq hn hmax, List.length_map, List.length_range]

theorem mkBeads_content_length (b : Bead) (hb : b ∈ mkBeads cs) : b.content.length = 64 := by
  rw [mkBeads_eq hn hmax] at hb
  obtain ⟨i, -, rfl⟩ := List.mem_map.1 hb
  exact leadBead_content_length _

theorem mkBeads_getD {i : Nat} (hi : i < ceilDiv n 64) :
    (mkBeads cs).getD i default = leadBead ((markBytes cs).drop (64 * i)) := by
  rw [mkBeads_eq hn hmax]
  simp [List.getD_eq_getElem?_getD, hi]

/-- T.LAST of a payload bead is 1 where no payload bead follows. -/
theorem mkBeads_last {i : Nat} (hi : i < ceilDiv n 64) :
    ((mkBeads cs).getD i default).last = decide (i + 1 = ceilDiv n 64) := by
  have hlen := (markBytes_length cs).trans hn
  have hnext := lt_ceilDiv_iff (i + 1) n
  rw [mkBeads_getD hn hmax hi, leadBead_last, List.length_drop, hlen, decide_eq_decide]
  omega

/-- Byte `k` of the payload is byte `k % 64` of payload bead `k / 64`; beyond the payload the last bead holds 0. -/
theorem mkBeads_content_getD {k : Nat} (hk : k < 64 * ceilDiv n 64) :
    ((mkBeads cs).getD (k / 64) default).content.getD (k % 64) 0 = (Claims.bytesOf cs).getD k 0 := by
  rw [mkBeads_getD hn hmax (by omega), leadBead_content_getD _ _ (by omega), List.map_drop, markBytes_fst]
  simp only [List.getD_eq_getElem?_getD, List.getElem?_drop, Nat.div_add_mod]

/-- The receiver reads back the payload the source was given. -/
theorem mkStrand_payload {h : Hdr} (ht : h.trim = false) (hLEN : h.len.toNat = n) :
    (mkStrand h cs).payload = Claims.bytesOf cs := by
  have hlen := (markBytes_length cs).trans hn
  rw [Strand.payload, Strand.chunks_eq, mkStrand_beads cs ht, mkStrand_len, hLEN, mkBeads,
    chunksOf_beadsOf n 65 0 _ (by omega) (by omega), markBytes_fst]

/-- T.KIND marks the header bead and T.LAST the last bead. -/
theorem mkStrand_kind_last {h : Hdr} (ht : h.trim = false) {i : Nat} (hi : i < 1 + ceilDiv n 64) :
    ((mkStrand h cs).allBeads.getD i default).kind = decide (i = 0)
      ∧ ((mkStrand h cs).allBeads.getD i default).last = decide (i + 1 = 1 + ceilDiv n 64) := by
  rw [mkStrand_allBeads cs ht]
  cases i with
  | zero =>
    have hempty : (mkBeads cs).isEmpty = decide (ceilDiv n 64 = 0) := by
      rw [← mkBeads_length hn hmax, Bool.eq_iff_iff]
      simp
    rw [List.getD_cons_zero, Strand.headBead_kind, Strand.headBead_last, mkStrand_trim, ht, mkStrand_beads cs ht,
      Bool.false_or, hempty, decide_eq_decide]
    exact ⟨rfl, by omega⟩
  | succ i =>
    have hi' : i < ceilDiv n 64 := by omega
    rw [List.getD_cons_succ, mkBeads_last hn hmax hi', mkBeads_getD hn hmax hi', leadBead_kind, decide_eq_decide]
    exact ⟨by simp, by omega⟩

end

/-- Settles O9: bead `i` of the payload carries the 64 bytes from `64 * i` on, and a trimmed strand is its header bead. -/
theorem strandStructure : Obligations.StrandStructure := by
  unfold Obligations.StrandStructure
  intro h cs hn hmax bs
  refine ⟨fun ht => ?_, fun ht => ?_⟩
  · have hbs : bs = (mkStrand h cs).headBead :: mkBeads cs := mkStrand_allBeads cs ht
    have hlen : bs.length = 1 + ceilDiv h.len.toNat 64 := by
      rw [hbs, List.length_cons, mkBeads_length hn hmax, Nat.add_comm]
    have hbyte : ∀ k < 64 * ceilDiv h.len.toNat 64,
        (bs.getD (k / 64 + 1) default).content.getD (k % 64) 0 = (Claims.bytesOf cs).getD k 0 := fun k hk => by
      rw [hbs, List.getD_cons_succ, mkBeads_content_getD hn hmax hk]
    have hcover : h.len.toNat ≤ 64 * ceilDiv h.len.toNat 64 ∧ ceilDiv h.len.toNat 64 ≤ 64 := by
      simp only [ceilDiv]
      omega
    refine ⟨hlen, by omega, by omega, fun b hb => ?_, fun i hi => ?_, fun k hk => ?_, fun k hk hk' => ?_, ?_⟩
    · rw [hbs] at hb
      rcases List.mem_cons.1 hb with rfl | hb
      · exact Strand.headBead_content_length _
      · exact mkBeads_content_length hn hmax b hb
    · rw [hlen] at hi ⊢
      exact mkStrand_kind_last hn hmax ht hi
    · exact hbyte k (by omega)
    · rw [hbyte k hk', List.getD_eq_getElem?_getD, List.getElem?_eq_none (by omega), Option.getD_none]
    · exact mkStrand_payload hn hmax ht rfl
  · exact ⟨mkStrand_allBeads_trimmed cs ht, by simp [ht], rfl⟩

end Sys2Proof

/-! Congestion events on a Braid's rate (R251). Each event first stamps the present time. Whether it may then cut turns on CI and
the last cut alone, which the stamp does not touch: one equation per event and side of CI says the rest. -/

namespace Sys2Proof

open Sys2Proof.Machine

/-- ALPHA after an echo that cuts: one step of its running mean towards 1,024, by the gain g of CONG.RATE. -/
def echoAlpha (d : Dev) (s : SendHalf) : Nat :=
  s.alpha - s.alpha / 2 ^ fld d (CONG + 0x020) 28 4 + 1024 / 2 ^ fld d (CONG + 0x020) 28 4

section
variable {d : Dev} {s : SendHalf}

theorem rateEcho_of_mayCut (h : Claims.mayCut d s) :
    rateEcho d s = { s with lastEvent := d.clk, aiAt := d.clk, alpha := echoAlpha d s, rBefore := s.rate,
                            rate := max 10 (s.rate * (2048 - echoAlpha d s) / 2048), lastCut := d.clk } := by
  simp only [echoAlpha, ← Nat.shiftRight_eq_div_pow]
  exact if_pos h

theorem rateEcho_of_not_mayCut (h : ¬ Claims.mayCut d s) :
    rateEcho d s = { s with lastEvent := d.clk, aiAt := d.clk } :=
  if_neg h

theorem rateCut_of_mayCut (h : Claims.mayCut d s) :
    rateCut d s = { s with lastEvent := d.clk, aiAt := d.clk, rBefore := s.rate, rate := max 10 (s.rate / 2),
                           lastCut := d.clk } :=
  if_pos h

theorem rateCut_of_not_mayCut (h : ¬ Claims.mayCut d s) :
    rateCut d s = { s with lastEvent := d.clk, aiAt := d.clk, rate := max 10 (min s.rate (s.rBefore / 2)) } :=
  if_neg h

end

theorem rateEcho_stamps (d : Dev) (s : SendHalf) : (rateEcho d s).lastEvent = d.clk ∧ (rateEcho d s).aiAt = d.clk := by
  by_cases h : Claims.mayCut d s
  · rw [rateEcho_of_mayCut h]
    exact ⟨rfl, rfl⟩
  · rw [rateEcho_of_not_mayCut h]
    exact ⟨rfl, rfl⟩

theorem rateCut_stamps (d : Dev) (s : SendHalf) : (rateCut d s).lastEvent = d.clk ∧ (rateCut d s).aiAt = d.clk := by
  by_cases h : Claims.mayCut d s
  · rw [rateCut_of_mayCut h]
    exact ⟨rfl, rfl⟩
  · rw [rateCut_of_not_mayCut h]
    exact ⟨rfl, rfl⟩

/-- Inside CI a trim notice or a timeout leaves at most half of the rate remembered at the last cut, or 10. -/
theorem rateCut_le_half_rBefore {d : Dev} {s : SendHalf} (h : ¬ Claims.mayCut d s) :
    (rateCut d s).rate ≤ max 10 (s.rBefore / 2) := by
  rw [rateCut_of_not_mayCut h]
  show max 10 (min s.rate (s.rBefore / 2)) ≤ max 10 (s.rBefore / 2)
  omega

/-- Settles O14, by the side of CI on which the event falls; the bound after an echo cut holds because that cut remembers
the rate before it. -/
theorem congestionCuts : Obligations.CongestionCuts := by
  unfold Obligations.CongestionCuts
  intro d s g
  obtain ⟨hechoEvent, hechoTimer⟩ := rateEcho_stamps d s
  obtain ⟨hcutEvent, hcutTimer⟩ := rateCut_stamps d s
  refine ⟨⟨hechoEvent, hechoTimer, hcutEvent, hcutTimer⟩, fun hmay => ?_, fun hmay => ?_, fun d' hmay' => ?_⟩
  · rw [rateEcho_of_mayCut hmay, rateCut_of_mayCut hmay]
    exact ⟨rfl, rfl, rfl, rfl, rfl, rfl, rfl, rfl⟩
  · rw [rateEcho_of_not_mayCut hmay, rateCut_of_not_mayCut hmay]
    exact ⟨rfl, rfl, rfl, rfl, rfl, rfl, rfl, rfl⟩
  · rw [rateEcho_of_not_mayCut hmay']
    refine ⟨rfl, rfl, fun hmay => ?_⟩
    have hremembered : (rateEcho d s).rBefore = s.rate := by rw [rateEcho_of_mayCut hmay]
    rw [← hremembered]
    exact rateCut_le_half_rBefore hmay'

end Sys2Proof
